-- ==== Sys2Proof/Word.lean ====
section
/-! DEFINITION. The words of the machine: bytes, 32-bit register words (R7) and 64-bit quantities such as hall
time (R19) and the generator registers (R80). -/

namespace Sys2Proof

/-- A byte. -/
abbrev Byte := BitVec 8

/-- A register word: all registers are 32 bits wide (R7). -/
abbrev Word := BitVec 32

/-- A 64-bit quantity: hall time, a G register, a 64-bit counter. -/
abbrev DWord := BitVec 64

end Sys2Proof
end

