-- ==== Sys2Proof/Vocabulary.lean ====
section
/-! DEFINITION. The operand types of the commands: who writes a register, which stream, which landing, what a pin
or a sensor shows, and the parts of an arriving message that the spec gives a meaning. -/

namespace Sys2Proof

/-- A station number, 0 to 63 (R13). -/
abbrev StnId := Fin 64

/-- A port number, 0 to 127 (R13). -/
abbrev PortId := Fin 128

/-- A DRAM stack number, 0 to 7 (R13). -/
abbrev StackId := Fin 8

/-- A traffic class in the numbering of Table 2.7: 0 TC_REQ, 1 TC_RSP, 2 TC_FWD, 3 TC_COL, 4 TC_MGT. -/
abbrev TClass := Fin 5

/-- The two requesters of register transactions (R368). -/
inductive Requester where
  | host
  | curator
  deriving DecidableEq, Repr

/-- The two streams of a station. -/
inductive Stream where
  | access
  | execute
  deriving DecidableEq, Repr

/-- What resets the PCI Express side (R425, R439). -/
inductive PcieCause where
  | flr
  | hot
  | perst
  | linkDown
  deriving DecidableEq, Repr

/-- What a PCI Express link has trained to (R423, Table 17.4): the rate as GEN 1 to 6, the width in lanes, Flit mode. -/
structure PcieLink where
  gen   : Nat
  width : Nat
  flit  : Bool
  deriving DecidableEq, Repr

/-- A received TLP (R424, R426, R430): whole; with a byte enable clear; with EP = 1; with an end-to-end CRC that fails. -/
inductive Tlp where
  | good
  | holed
  | poisoned
  | badEcrc
  deriving DecidableEq, Repr

/-- The BAR that an AtomicOp addresses (R428). -/
inductive Bar where
  | bar0
  | bar2
  | bar4
  deriving DecidableEq, Repr

/-- A reset of the PCI Express side: its cause, and what the link then trains to, which a Function Level Reset leaves as it is
(R423, R425). -/
structure PcieRestart where
  cause : PcieCause
  link  : PcieLink
  deriving DecidableEq, Repr

/-- What a write of BAR0 carries: the words for consecutive registers in ascending address, and how its TLP came (R426). -/
structure RegWords where
  values : List Word
  tlp    : Tlp
  deriving DecidableEq, Repr

/-- A read of BAR0: who reads, from which address, how many consecutive registers, and how its TLP came (R426). -/
structure RegRead where
  by_  : Requester
  addr : Nat
  dws  : Nat
  tlp  : Tlp
  deriving DecidableEq, Repr

/-- Where an AtomicOp goes: the BAR and the offset that it addresses, and how its TLP came (R428). -/
structure AtomicAt where
  bar : Bar
  off : Nat
  tlp : Tlp
  deriving DecidableEq, Repr

/-- A tri-level strap as sampled in the last 1 ms of stage 0 (R392); `unsteady` is a pin whose samples differ. -/
inductive Strap where
  | low
  | open_
  | high
  | unsteady
  deriving DecidableEq, Repr

/-- Where the Crossing delivers a frame (Table 11.2). -/
inductive Landing where
  | queue (t : StnId) (q : Fin 4)
  | port (p : PortId)
  | group (m : Fin 128)
  | curator
  deriving DecidableEq, Repr

/-- The register whose write arms a cut (R109): STN_CUT_CTRL, or STN_CUT_AT_LO. -/
inductive CutReg where
  | ctrl
  | atLo
  deriving DecidableEq, Repr

/-- The phase C inputs (Table 15.8). -/
inductive PinIn where
  | hold
  | leak
  | flow
  deriving DecidableEq, Repr

/-- The width of an AtomicOp operand; 128 bits exist for CAS only and complete as unsupported (R428). -/
inductive AtomicWidth where
  | w32
  | w64
  | w128
  deriving DecidableEq, Repr

/-- One sample of every sensor (R377): temperatures in whole degrees C, Vin in mV, the draw in W, the flow pulses
counted in one second; whether the hot-swap stage has completed (R443), and the levels of the pins HOLD, LEAK and FLOW
(Table 15.8). -/
structure Sample where
  tStn   : List Byte
  tMem   : List Byte
  tOpt   : List Byte
  tIn    : Byte
  tOut   : Byte
  vin    : BitVec 16
  pin    : BitVec 16
  pulses : Nat
  hotSwap : Bool
  hold   : Bool
  leak   : Bool
  flow   : Bool
  deriving DecidableEq, Repr

/-- The parts of a received LLDPDU that decide anything (R317, R320). `tlv` says whether the organisationally
specific TLV under ACC_OUI is present. -/
structure Lldpdu where
  mac     : BitVec 48
  ttl     : BitVec 16
  tlv     : Bool
  version : Byte
  etype   : BitVec 16
  deriving DecidableEq, Repr

/-- The PTP messages an endpoint may send (R318). -/
inductive PtpKind where
  | delayReq
  | announce
  | peerDelay
  | management
  | other
  deriving DecidableEq, Repr

/-- A received PTP message: its kind, domain and sequence number, and its receive time in HT x 16 (R313). -/
structure PtpMsg where
  kind   : PtpKind
  domain : Byte
  seq    : BitVec 16
  rxTime : DWord
  deriving DecidableEq, Repr

end Sys2Proof
end

