-- ==== Sys2Proof/Syntax.lean ====
section
/-! DEFINITION. The commands of the block: one constructor for each row of spec/opcode_table.json, in the table's
order, with the row's operands. A command offers one step of the part: a write or read from outside, an arrival at
a port or a pin, or an event of one of the part's own sequencers, engines or clocked units. -/

namespace Sys2Proof

/-- The commands (opcode_table.json, one constructor a row). -/
inductive Instr where
  /-- POWER_ON_RESET (R391). Application of 3.3 V auxiliary power resets the device, starting at Plinth phase A and stage 0 with every register at its reset value. -/
  | powerOnReset
  /-- AUX_POWER_LOSS (R444). Loss of 3V3_AUX while 48 V is present makes the hardware switch the regulators off within 10 µs; no record is formed. -/
  | auxPowerLoss
  /-- PCIE_RESET (R425). A Function Level Reset, hot reset, PERST_N or link-down resets the PCI Express side, rolls back an open host transaction and abandons a PCIe image load. -/
  | pcieReset (cause : PcieRestart)
  /-- WARM_RESET (R435). Writing GLB_CTRL.WARM with the KEY stops stations and ports, discards both transactions and restarts from phase B while HT keeps counting. -/
  | warmReset (value : Word)
  /-- CURATOR_BOOT (R362). At Curator reset release the boot ROM verifies the firmware, then the Curator seeks and verifies an image in slot order. -/
  | curatorBoot
  /-- STAGE_ADVANCE (R382). Start-up passes to its next stage once the condition of Table 15.4 for that stage holds. -/
  | stageAdvance (straps : List Strap)
  /-- STACK_TRAINING_FAIL (R349). A stack that fails training or whose controller loses it raises MEM-05, Fatal, and start-up stops. -/
  | stackTrainingFail (k : StackId)
  /-- WAVE_POWER (R383). At Pw the stations of wave w are powered and their register and VITRINE records are applied. -/
  | wavePower (w : Fin 8)
  /-- WAVE_RELEASE (R383). At Pw + 31,250 the wave's clock-domain crossings are set and RUN is set where the image marks the station to run. -/
  | waveRelease (w : Fin 8)
  /-- PHASE_C_OUTPUT_ENABLE (R394). 100 µs after phase C begins the device starts driving its phase C outputs and raises PLT_PHC. -/
  | phaseCOutputEnable
  /-- TSYNC_EDGE (R22). A rising TSYNC edge at the root's mezzanine is checked against the expected tick and becomes the new reference. -/
  | tsyncEdge
  /-- TSYNC_PULSE (R23). At each tick where HT mod HT_TSYNC_PERIOD = 0 the device drives an 8 tk TSYNC pulse on PLT6. -/
  | tsyncPulse
  /-- TSTAMP_SEND (R313). At each tick with HT mod 4,096 = 0 every fabric port sends a TSTAMP record. -/
  | tstampSend
  /-- TSTAMP_RECORD (R313). A received TSTAMP record yields the round trip and the offset from the link partner. -/
  | tstampRecord (p : PortId) (t3 t1 t2 t4 : DWord)
  /-- PARENT_STANDBY_SWITCH (R28). A device that loses its primary parent link switches to its standby parent within 10 µs, or enters holdover when neither parent is available. -/
  | parentStandbySwitch
  /-- HOLDOVER_LIMIT_EXPIRE (R28). A holdover that lasts longer than HT_HOLDOVER clears ALIGNED, raises TIM-03 and makes the device stop after the open step's Closing. -/
  | holdoverLimitExpire
  /-- ROOT_CONFLICT (R29). A root that receives timestamps from another root yields the role when its hall rank is higher, raising TIM-02 and taking the winner as parent. -/
  | rootConflict (p : PortId) (rank : Fin 512)
  /-- PARADE (R30). At the parade tick the device sets every clock-domain crossing to its parade depth, records HT_PARADE and sets PARADE_DONE. -/
  | parade
  /-- BUCKET_DEADLINE (R158). A bucket entry's deadline D_b is reached and fixes the membership tick if M has not yet come. -/
  | bucketDeadline (b : Fin 4096)
  /-- CLOSING_BEGIN (R40). In the first tick with the state Open and HT ≥ HT_STEP_CLOSE the Closing begins, endpoint data credit is withheld and the close tick is advanced by the period. -/
  | closingBegin
  /-- DRAIN_COMPLETE (R36). When every station reports empty and no credit is outstanding, the Closing ends in Closed, or in Stopped under R28 or R396. -/
  | drainComplete
  /-- CLOSE_OVERRUN (R37). A Closing not drained when HT reaches the close tick plus HT_CLOSE_LIMIT sets CLOSE_OVERRUN and raises TIM-04. -/
  | closeOverrun
  /-- STEP_OPEN (R38). In the first tick with HT ≥ HT_STEP_OPEN and the state Closed the step opens, the step numbers advance and a late opening raises TIM-05. -/
  | stepOpen
  /-- STOPPED_TO_CLOSED (R39). Stopped becomes Closed in the first tick with ALIGNED, PARADE_DONE, stage 6 reached and HOLD inactive or masked. -/
  | stoppedToClosed
  /-- STEP_END_RELEASE (R103). A stream waiting at its step-end point issues once HT_STEP_CUR differs from the value recorded when it arrived there. -/
  | stepEndRelease (n : StnId) (st : Stream)
  /-- TXN_BEGIN (R368). Writing TXN_BEGIN.GO opens the writer's transaction from NONE, or sets ERR. -/
  | txnBegin (r : Requester) (value : Word)
  /-- TXN_COMMIT_NOW (R371). Writing TXN_COMMIT with AT = 0 arms the open transaction to take effect in the next tick. -/
  | txnCommitNow (r : Requester)
  /-- TXN_COMMIT_AT (R371). Writing TXN_COMMIT with AT = 1 arms the open transaction for the tick in TXN_AT, or for the next tick as a late action. -/
  | txnCommitAt (r : Requester)
  /-- TXN_ROLLBACK (R374). Writing TXN_ROLLBACK discards the writer's shadows from OPEN, ARMED or FAILED and returns the state to NONE. -/
  | txnRollback (r : Requester) (value : Word)
  /-- TXN_TAKES_EFFECT (R372). At its tick an armed transaction is checked against Table 14.7 and all its entries take effect together, or it is refused with CFG-07. -/
  | txnTakesEffect (r : Requester)
  /-- ROLE_FROM_OFF_RELEASE (R452). 31,250 tk after a station is powered from OFF its clock-domain crossings are set and it is released. -/
  | roleFromOffRelease (n : StnId)
  /-- GATE_BANK_TAKEOVER (R327). At PRT_GATE_TAKE with ARM set the inactive gate bank becomes active from entry 0 and ARM clears. -/
  | gateBankTakeover (p : PortId)
  /-- REGISTER_WRITE (R10). A write to a register that has no row of its own acts on each field by its access code. -/
  | registerWrite (r : Requester) (addr : Nat) (value : RegWords)
  /-- RC_READ (R11). A read of an RC field returns its value at the start of the cycle and then clears it to its reset value. -/
  | rcRead (addr : RegRead)
  /-- PAIR_LO_READ (R451). A read of the _LO half of an RO register pair captures both halves for a later _HI read. -/
  | pairLoRead (addr : RegRead)
  /-- STN_RUN_SET (R73). Writing STN_CTRL.RUN = 1 while idle starts both streams at their entry points and clears flags and registers. -/
  | stnRunSet (n : StnId)
  /-- STN_RUN_CLEAR (R73). Writing STN_CTRL.RUN = 0 while running stops both streams at the next bundle boundary and makes the station idle. -/
  | stnRunClear (n : StnId)
  /-- STN_RESTART (R67). Writing STN_CTRL.RESTART to a halted station releases its queued and register tiles and starts both streams at their entry points. -/
  | stnRestart (n : StnId)
  /-- STN_FENCE_REQ (R68). Writing STN_CTRL.FENCE_REQ stops the streams, discards the station's tiles, takes its ports down and fences it. -/
  | stnFenceReq (n : StnId)
  /-- STN_FLAG_SET (R78). Writing STN_FLAG_SET sets each flag whose bit is 1. -/
  | stnFlagSet (n : StnId) (mask : Word)
  /-- STN_FLAG_CLR (R78). Writing STN_FLAG_CLR clears each flag whose bit is 1, unless a set wins in the same cycle. -/
  | stnFlagClr (n : StnId) (mask : Word)
  /-- AS_NOP (R83). The AS instruction nop has no effect. -/
  | asNop (n : StnId)
  /-- AS_JMP (R83). The AS instruction jmp continues at this instruction plus OFF, or raises STN-07 for a target out of range. -/
  | asJmp (n : StnId)
  /-- AS_DBNZ (R83). The AS instruction dbnz decrements GD and branches if it is not zero. -/
  | asDbnz (n : StnId)
  /-- AS_BEQZ (R83). The AS instruction beqz branches if GD is zero. -/
  | asBeqz (n : StnId)
  /-- AS_STEPW (R103). The AS instruction stepw brings the AS to its step-end point and records HT_STEP_CUR. -/
  | asStepw (n : StnId)
  /-- AS_HTWAIT (R83). The AS instruction htwait waits until HT is at or beyond GD. -/
  | asHtwait (n : StnId)
  /-- AS_LIL (R83). The AS instruction lil loads IMM20 zero-extended into GD. -/
  | asLil (n : StnId)
  /-- AS_LIM (R83). The AS instruction lim loads IMM20 into GD bits 39:20. -/
  | asLim (n : StnId)
  /-- AS_LIH (R83). The AS instruction lih loads IMM20 into GD bits 59:40. -/
  | asLih (n : StnId)
  /-- AS_ADDI (R83). The AS instruction addi sets GD to GS plus the signed immediate modulo 2^64. -/
  | asAddi (n : StnId)
  /-- AS_ADD (R83). The AS instruction add sets GD to GS plus GT modulo 2^64. -/
  | asAdd (n : StnId)
  /-- AS_SUB (R83). The AS instruction sub sets GD to GS minus GT modulo 2^64. -/
  | asSub (n : StnId)
  /-- AS_TLD (R84). The AS instruction tld reserves a queue entry and a tile block and issues the read of a frame-form tile. -/
  | asTld (n : StnId)
  /-- AS_TLDP (R84). The AS instruction tldp issues the read of a payload-form tile with its TH from a template, and increments the template's SEQ. -/
  | asTldp (n : StnId)
  /-- AS_TST (R84). The AS instruction tst pops a queue and issues the store of the frame in frame form. -/
  | asTst (n : StnId)
  /-- AS_TSTP (R84). The AS instruction tstp pops a queue and issues the store of the payload form, discarding the TH. -/
  | asTstp (n : StnId)
  /-- AS_TFWD (R85). The AS instruction tfwd pops a queue and forwards the tile to its next itinerary hop. -/
  | asTfwd (n : StnId)
  /-- AS_TSEND (R85). The AS instruction tsend pops a queue and sends the tile to the hop word in GD, leaving HOP unchanged. -/
  | asTsend (n : StnId)
  /-- AS_TDROP (R83). The AS instruction tdrop pops a queue and frees the tile. -/
  | asTdrop (n : StnId)
  /-- AS_THLD (R80). The AS instruction thld reads a 32-byte TH into a template and holds the AS until it has been read. -/
  | asThld (n : StnId)
  /-- AS_BCOPY (R86). The AS instruction bcopy clears its flag and starts a memory-to-memory copy of GT bytes. -/
  | asBcopy (n : StnId)
  /-- AS_FSET (R78). The AS instruction fset sets a flag. -/
  | asFset (n : StnId)
  /-- AS_FCLR (R78). The AS instruction fclr clears a flag. -/
  | asFclr (n : StnId)
  /-- AS_FWAIT (R78). The AS instruction fwait waits until a flag equals V. -/
  | asFwait (n : StnId)
  /-- TLD_DATA_ARRIVE (R84). The data of an issued tld or tldp arrive from memory, the TH is checked and the queue entry is filled. -/
  | tldDataArrive (n : StnId)
  /-- BCOPY_COMPLETE (R86). When the last byte of a bcopy is written its flag sets. -/
  | bcopyComplete (n : StnId) (k : Nat)
  /-- XS_BUNDLE_ISSUE (R91). An XS bundle whose waits have ended issues all its ops together, reading their operands in the issue cycle. -/
  | xsBundleIssue (n : StnId)
  /-- ENGINE_RESULT_LAND (R97). An issued op's result lands in its destination register at the end of issue cycle t + I + L − 1. -/
  | engineResultLand (n : StnId)
  /-- WATCHDOG_EXPIRE (R104). When the stall count reaches STN_WATCHDOG the station's state is captured and it halts with STN-05. -/
  | watchdogExpire (n : StnId)
  /-- LUPIN_JOB_START (R234). Lupin takes the next job from its job queue when the previous job has ended. -/
  | lupinJobStart (n : StnId)
  /-- LUPIN_TILE (R234). Lupin pops an input tile, processes it in the job's mode and pushes any output to QO. -/
  | lupinTile (n : StnId)
  /-- CUT_ARM (R109). Writing STN_CUT_CTRL.MODE ≠ 0 or STN_CUT_AT_LO arms the cut and freezes at once if the count has already passed. -/
  | cutArm (n : StnId) (reg : CutReg) (value : Word)
  /-- CUT_FREEZE (R110). When NB or NT reaches STN_CUT_AT the station freezes at the end of the freeze cycle, sets HIT and raises its interrupt. -/
  | cutFreeze (n : StnId)
  /-- CUT_RESUME (R112). Writing STN_CUT_CTRL.RESUME to a station frozen by a cut clears HIT and continues both streams from the frozen point. -/
  | cutResume (n : StnId)
  /-- CUT_DATA_READ (R115). A read of STN_CUT_DATA returns the selected word of the frozen state and increments WORD. -/
  | cutDataRead (n : StnId)
  /-- ENDPOINT_FRAME_RECEIVE (R316). An Ethernet frame arriving at an endpoint port is sorted by EtherType, address and tag, and a Carade frame passes link retry and header checks. -/
  | endpointFrameReceive (p : PortId) (frame : List Byte) (corr uncorr : Nat)
  /-- FABRIC_CELL_RECEIVE (R311). A 248-byte cell arriving at a fabric port is checked by CRC and assembled into its frame. -/
  | fabricCellReceive (p : PortId) (cell : List Byte) (corr uncorr : Nat)
  /-- REASSEMBLY_GAP_TIMEOUT (R306). An LSEQ gap across the sub-links of a bundled port not filled within 256 tk is treated as a discard and answered with a NAK. -/
  | reassemblyGapTimeout (p : PortId)
  /-- ACK_SEND (R307). While data arrive the receiver sends an ACK record naming the last LSEQ accepted at least once in every 256 tk. -/
  | ackSend (p : PortId)
  /-- ACK_RECORD (R307). A received ACK record releases acknowledged frames from the replay buffer. -/
  | ackRecord (p : PortId) (lseq : BitVec 16)
  /-- NAK_RECORD (R307). A received NAK record makes the sender replay from the named LSEQ and increment PRT_RETRY. -/
  | nakRecord (p : PortId) (lseq : BitVec 16)
  /-- CREDIT_RECORD (R312). A received CREDIT record returns blocks and headers of each ingress pool to the sender's link credit. -/
  | creditRecord (p : PortId) (words : List Word)
  /-- IDENT_RECORD (R320). A received IDENT record gives the fabric partner's identity, which Accession accepts or refuses. -/
  | identRecord (p : PortId) (w1 w2 : Word)
  /-- EPITAPH_RECORD (R309). A received EPITAPH record makes the sender resend the failed port's frames above the named LSEQ. -/
  | epitaphRecord (p : PortId) (failed : PortId) (lseq : BitVec 16)
  /-- EPITAPH_TIMEOUT (R309). When no EPITAPH arrives within 10 µs of a port failure the sender resends every unacknowledged frame and raises LNK-05. -/
  | epitaphTimeout (p : PortId)
  /-- PCS_LOCK (R319). A port's PCS gains block lock and passes from TRAINING to DISCOVERED. -/
  | pcsLock (p : PortId)
  /-- BLOCK_LOCK_LOSS_TIMEOUT (R308). A PCS or sub-link that loses block lock for more than 1 µs fails its port. -/
  | blockLockLossTimeout (p : PortId)
  /-- TWIN_TAKEOVER (R308). From the next gate boundary of the twin, the twin carries all traffic of the failed port's link. -/
  | twinTakeover (p : PortId)
  /-- RETRAIN_TIMEOUT (R319). A port whose retraining has failed for 100 ms enters DOWN. -/
  | retrainTimeout (p : PortId)
  /-- FABRIC_CREDIT_START (R320). An admitted fabric partner's data credit starts at the port's next gate boundary. -/
  | fabricCreditStart (p : PortId)
  /-- ACC_RETRY (R320). Writing ACC_CTRL.RETRY makes Accession re-examine REFUSED ports. -/
  | accRetry
  /-- LLDPDU_TRANSMIT (R317). The LLDP agent sends an LLDPDU every ACC_LLDP.TX seconds and on any change of its content. -/
  | lldpduTransmit (p : PortId)
  /-- LLDPDU_RECEIVE (R317). A received LLDPDU updates the port's neighbour and, for an endpoint, decides acceptance. -/
  | lldpduReceive (p : PortId) (du : Lldpdu)
  /-- LLDP_NEIGHBOUR_EXPIRY (R317). Expiry of the neighbour's time to live withdraws the partner and clears the port's credits. -/
  | lldpNeighbourExpiry (p : PortId)
  /-- PTP_SYNC_TRANSMIT (R318). The PTP agent sends Sync and Follow_Up on every endpoint port every 2^−SYNC s. -/
  | ptpSyncTransmit (p : PortId)
  /-- PTP_MESSAGE_RECEIVE (R318). A received PTP message is answered as a master boundary clock, and Announce from endpoints is ignored. -/
  | ptpMessageReceive (p : PortId) (msg : PtpMsg)
  /-- FRAME_TRANSMIT_START (R328). A frame starts on a port when its class is open, it fits before the slot end and its shaper allows it. -/
  | frameTransmitStart (p : PortId) (c : TClass)
  /-- SLOT_END (R329). At the end of a class slot every ungranted head frame naming the port counts a slip in PRT_SLIP and CRS_SLIP. -/
  | slotEnd (p : PortId) (c : TClass)
  /-- TELEMETRY_SAMPLE (R330). At each tick with HT mod 2^K = 0 the device writes a depth and sojourn record for each sampled port. -/
  | telemetrySample
  /-- LANDING_CREDIT_RESERVE (R282). The oldest frame for a landing reserves its landing credit once the credit is free, in round-robin order of source. -/
  | landingCreditReserve (l : Landing) (c : TClass)
  /-- CROSSING_GRANT (R288). The Crossing matches a ready frame to a free output and starts its transfer in the next tick. -/
  | crossingGrant
  /-- CROSSING_DELIVERY (R63). A crossed frame lands in its queue, port, group or Curator landing, and its ingress block returns as link credit. -/
  | crossingDelivery (t : StnId)
  /-- AGEING_SWEEP (R286). At each tick with HT mod 4,096 = 0 every VOQ frame that has waited longer than CRS_AGE_LIMIT is discarded. -/
  | ageingSweep
  /-- REPLY_RESERVATION_LAPSE (R289). A reply reservation unused within twice CRS_AGE_LIMIT is released with CRS-03. -/
  | replyReservationLapse (n : StnId)
  /-- BUCKET_HEADER_RECEIVE (R166). An arriving bucket header is checked and opens, joins or waits for its bucket-table entry, or is discarded as stray or malformed. -/
  | bucketHeaderReceive (p : PortId) (bh : List Word)
  /-- BUCKET_TILE_RECEIVE (R165). A bucket tile from an endpoint is scanned for non-finite values and held for the entry stage, or discarded as stray or duplicate. -/
  | bucketTileReceive (p : PortId) (tile : List Byte)
  /-- SIZE_EXCHANGE_ROUND (R171). In each unskipped round of a dynamic bucket the device exchanges SIZE BHs with its partner and updates cnt and hmax. -/
  | sizeExchangeRound (b : Fin 4096) (r : Fin 9)
  /-- EXCLUDE_SCAN (R165). Under EXCLUDE, after M and when every member is complete, members with any non-finite tile are excluded. -/
  | excludeScan (b : Fin 4096)
  /-- ENTRY_STAGE_CHUNK (R157). The entry stage sums a chunk of the endpoints' contributions by the tree of R135. -/
  | entryStageChunk (b : Fin 4096) (h : Nat)
  /-- FABRIC_ROUND_CHUNK (R155). A fabric round sends the shards it gives away and adds the partner's partials for a chunk. -/
  | fabricRoundChunk (b : Fin 4096) (r : Fin 9) (h : Nat)
  /-- SHARD_DELIVERY (R168). After the last round the owner scales its shard when MEAN = 1 and delivers it along OUT_ITIN, and the entry becomes DONE. -/
  | shardDelivery (b : Fin 4096)
  /-- CRS_RED_ABANDON (R170). Writing a bucket index to CRS_RED_ABANDON abandons the open entry, frees its tiles and delivers the empty-bucket notice. -/
  | crsRedAbandon (value : Word)
  /-- SITTING_HEADER_RECEIVE (R216). An arriving sitting header is checked and converted into a header-only frame or a notice tile, or discarded. -/
  | sittingHeaderReceive (p : PortId) (sh : List Word)
  /-- OPT_STEP_SUMMARY (R194). After the step's Closing the Curator sums the sealed optimizer contribution records into the step summary record. -/
  | optStepSummary
  /-- MOE_STEP_SUMMARY (R229). After the step's Closing the Curator sums the sealed mixture contribution records and raises the EXP codes. -/
  | moeStepSummary
  /-- TALLY_RING_DRAIN (R198). The Curator drains the Tally ring, counting verdicts and writing a NUM-03 record for each mismatch. -/
  | tallyRingDrain
  /-- LOCK_HOLD_CUTOFF (R343). A locked sequence held longer than MEM_HOLD_MAX cycles is cut off and raises MEM-04. -/
  | lockHoldCutoff (k : StackId)
  /-- DRAM_SCRUB_STEP (R347). Every GAP × 1,024 cycles the patrol scrub reads the next unit of each pseudo-channel and writes it back corrected. -/
  | dramScrubStep (k : StackId)
  /-- VITRINE_SCRUB_STEP (R352). The Vitrine scrub reads and corrects a line in an idle bank tick. -/
  | vitrineScrubStep (n : StnId) (line : Nat)
  /-- IMG_LOAD_START (R364). Writing GLB_IMG_CTRL.LOAD_START begins a PCIe load into the target slot and clears its VALID bit. -/
  | imgLoadStart
  /-- IMG_PUSH (R364). Writing GLB_IMG_PUSH appends that many bytes of the load window to the image being loaded. -/
  | imgPush (value : Word)
  /-- IMG_LOAD_END (R364). Writing GLB_IMG_CTRL.LOAD_END ends the PCIe load, with TRY, and starts its verification. -/
  | imgLoadEnd (tryBit : Bool)
  /-- IMG_VERIFY_COMPLETE (R365). A loaded image's verification ends, accepting it, marking it to try or ACTIVE, or setting FAIL. -/
  | imgVerifyComplete
  /-- IMG_CONFIRM (R365). Writing GLB_IMG_CTRL.CONFIRM makes a tried slot ACTIVE. -/
  | imgConfirm
  /-- PLINTH_FRAME_RISE (R393). FRAME rising in phase B clears ERR and starts a Plinth load. -/
  | plinthFrameRise
  /-- PLINTH_BLOCK_RECEIVE (R393). A 4,096-byte block of a Plinth load is taken, and ACK rises when the device can take the next block. -/
  | plinthBlockReceive (block : List Byte)
  /-- PLINTH_FRAME_FALL (R393). FRAME falling ends a Plinth load, whose image is then verified, or fails with PLT-04 when short. -/
  | plinthFrameFall
  /-- ECHO (R380). The mailbox command ECHO returns its argument words. -/
  | echo
  /-- INFO (R380). The mailbox command INFO returns the serial, firmware version and copy, and time since reset release. -/
  | info
  /-- FLASH_READ (R380). The mailbox command FLASH_READ copies flash bytes to a DRAM offset. -/
  | flashRead
  /-- MIRROR_READ (R380). The mailbox command MIRROR_READ copies mirror ring entries, oldest first, to DRAM. -/
  | mirrorRead
  /-- ATTEST (R367). The mailbox command ATTEST forms and signs the attestation report with the supplied nonce. -/
  | attest
  /-- STN_PROG (R380). The mailbox command STN_PROG loads AS or XS program memory of a non-running station from DRAM. -/
  | stnProg
  /-- CAT_FLUSH (R412). The mailbox command CAT_FLUSH starts a copy of the Catalogue to flash. -/
  | catFlush
  /-- MAILBOX_COMPLETE (R380). A mailbox command completes, filling CUR_RSP, setting DONE and raising the mailbox vector. -/
  | mailboxComplete
  /-- CURATOR_SAMPLE (R377). Every 10 µs the Curator samples sensors, voltage and power, recomputes the limits and moves the ladder and thermal actions. -/
  | curatorSample (smp : Sample)
  /-- LADDER_FALL (R385). After the draw has stayed below 90 % of the limit for 1 ms the ladder falls one step. -/
  | ladderFall
  /-- STACK_THROTTLE_RELEASE (R387). A stack's thermal throttling is released one level per millisecond as it cools. -/
  | stackThrottleRelease (k : StackId)
  /-- OVERPOWER_COMPARATOR (R385). A hardware comparator that sees a draw above 4.6 kW sets ladder step 7 and raises PWR-04. -/
  | overpowerComparator
  /-- CURATOR_GUARD_EXPIRE (R378). When core 0 misses the guard for 100 µs the hardware guard sets step 7, opens the valve and raises PWR-08. -/
  | curatorGuardExpire
  /-- VIN_OVERVOLTAGE_TRIP (R381). Vin above 64 V for 10 µs switches the regulators off with PWR-03. -/
  | vinOvervoltageTrip
  /-- VIN_UNDERVOLTAGE_TRIP (R381). Vin below 36 V for 50 µs stops the station clocks and switches the regulators off with PWR-02. -/
  | vinUndervoltageTrip
  /-- RAIL_REGULATION_TRIP (R381). A rail out of regulation for 10 µs switches the regulators off with PWR-07. -/
  | railRegulationTrip
  /-- LOGIC_OVERTEMP_TRIP (R387). Logic hot at or above 110 °C for 10 µs, or 105 °C for 100 ms at step 7, switches the regulators off with THM-03. -/
  | logicOvertempTrip
  /-- STACK_OVERTEMP_TRIP (R387). A stack at or above 98 °C for 1 ms switches the regulators off with THM-06. -/
  | stackOvertempTrip (k : StackId)
  /-- VALVE_LOOP (R389). Every 10 ms the Curator updates the plate estimate and the valve duty. -/
  | valveLoop
  /-- LEAK_DETECTED (R390). An active LEAK input switches the regulators off, closes the valve, asserts FLT_N and raises THM-10. -/
  | leakDetected
  /-- HOLD_CHANGE (R396). A change of the filtered HOLD level holds step openings or lets Stopped become Closed. -/
  | holdChange (level : Bool)
  /-- INPUT_CHATTER (R395). More than 8 transitions of an input within one filter time hold its filtered level and raise PLT-02. -/
  | inputChatter (pin : PinIn)
  /-- INPUT_STUCK_TIMEOUT (R395). An input active, or FLOW without an edge, for longer than its timeout is masked as stuck with PLT-01. -/
  | inputStuckTimeout (pin : PinIn)
  /-- PLT_UNMASK (R395). Writing 1 to a PLT_MASK bit unmasks the input and restarts its timeout if it is still active. -/
  | pltUnmask (value : Word)
  /-- FLT_CLR (R394). Writing PLT_CTRL.FLT_CLR releases FLT_N held for a Fenced fault. -/
  | fltClr
  /-- CATALOGUE_EVENT_TAKE (R402). Curator core 2 takes the oldest queued event and collapses it into its open record or opens a new record. -/
  | catalogueEventTake
  /-- FENCED_EVENT_RECORD (R403). The Curator forms the record of a Fenced or Fatal event ahead of the queue, seals it, asserts FLT_N and starts a copy to flash. -/
  | fencedEventRecord
  /-- EPOCH_SEAL (R407). In the first tick of a new epoch the open Noted and Recovered records are sealed. -/
  | epochSeal
  /-- CATALOGUE_PERSIST_FLUSH (R406). Once each millisecond of hall time the persist path writes sealed records not yet in the DRAM ring. -/
  | cataloguePersistFlush
  /-- FLASH_COPY_COMPLETE (R412). A Catalogue copy to flash finishes its directory entry, and a pending copy then starts. -/
  | flashCopyComplete
  /-- CATALOGUE_FREEZE (R414). Writing CAT_CTRL.FREEZE = 1 seals every open record and discards later events until the freeze ends. -/
  | catalogueFreeze
  /-- CATALOGUE_UNFREEZE (R414). Writing CAT_CTRL.FREEZE = 0 ends the freeze. -/
  | catalogueUnfreeze
  /-- FREEZE_LAPSE (R414). A freeze that reaches CAT_FREEZE_MAX ms ends, clearing FREEZE and setting LAPSED. -/
  | freezeLapse
  /-- CAT_WINDOW_CAPTURE (R413). A read of CAT_WINDOW0 captures the whole record of the slot that CAT_CURSOR selects. -/
  | catWindowCapture
  /-- CAT_WINDOW_ADVANCE (R413). A read of CAT_WINDOW15 with AUTOINC set advances CAT_CURSOR by 1. -/
  | catWindowAdvance
  /-- SCORE_DECAY (R416). Once per second every condition score decays by score >> S. -/
  | scoreDecay
  /-- CAT_COND_CLR (R417). Writing CAT_COND_CLR sets one unit's score to 0 and clears its WATCH and MOVE bits. -/
  | catCondClr (value : Word)
  /-- BAR2_READ (R427). A BAR2 read request reads DRAM at the aperture offset as Porter requester 9. -/
  | bar2Read (off len : Nat) (tlp : Tlp)
  /-- BAR2_READ_COMPLETE (R427). The DRAM data of a BAR2 read return as completions in ascending address, or as Completer Abort. -/
  | bar2ReadComplete
  /-- BAR2_WRITE (R427). A BAR2 write request writes DRAM, as a locked read-modify-write for a partial word. -/
  | bar2Write (off : Nat) (bytes : List Byte) (tlp : Tlp)
  /-- BAR2_FETCHADD (R428). A BAR2 FetchAdd AtomicOp is completed as a locked sequence on its word; one that addresses
  BAR0 or BAR4 is unsupported. -/
  | bar2Fetchadd (off : AtomicAt) (w : AtomicWidth) (v : DWord)
  /-- BAR2_SWAP (R428). A BAR2 Swap AtomicOp is completed as a locked sequence on its word. -/
  | bar2Swap (off : AtomicAt) (w : AtomicWidth) (v : DWord)
  /-- BAR2_CAS (R428). A BAR2 CAS AtomicOp on 32 or 64 bits is completed as a locked sequence on its word. -/
  | bar2Cas (off : AtomicAt) (w : AtomicWidth) (cmp v : DWord)
  /-- BAR4_READ (R429). A BAR4 read returns Vitrine bytes of the selected station as they stand, or Completer Abort. -/
  | bar4Read (off len : Nat) (tlp : Tlp)
  /-- BAR4_WRITE (R429). A BAR4 write to a program region is merged into Vitrine, and one to the Cloakroom region is discarded. -/
  | bar4Write (off : Nat) (bytes : List Byte) (tlp : Tlp)
  /-- HTWAIT_COMPLETE (R83). An AS waiting in htwait retires in the first tick in which HT is at or beyond GD, and the AS goes on to its next instruction. -/
  | htwaitComplete (n : StnId)
  /-- IMG_LOAD_BUSY_CLEAR (R364). When the piece appended by GLB_IMG_PUSH has been taken into the target slot, GLB_IMG_LOADST.BUSY returns to 0 so that the host may push the next piece. -/
  | imgLoadBusyClear
  /-- PHASE_C_INPUTS_READ (R394). 1 ms after phase C begins, the device starts reading its phase C inputs, which until then read inactive, and PLT_PHASE.TURN clears. -/
  | phaseCInputsRead
  /-- EXACT_SUM_LOSS_REPORT (R273). After the Closing, the Curator reads the exact-sum records and raises NUM-05 for a record whose LOSS is set. -/
  | exactSumLossReport (loss : Bool)
  /-- BAR0_MALFORMED_READ (R426). A BAR0 read TLP with a byte enable clear or longer than 16 DW returns 0x0000_0000 in every DW, acts on no register and sets GLB_STATUS.BAR0_PARTIAL. -/
  | bar0MalformedRead (dws : Nat)
  deriving DecidableEq, Repr

end Sys2Proof
end

