-- ==== Sys2Proof/Decode.lean ====
section
/-! DEFINITION. The command a word spells by the opcode table's bits. The table gives no row any bits (the block takes
commands, not encoded instructions), so no word spells a command. -/

namespace Sys2Proof

/-- The command that `nbits` bits `w` spell: none, since no row of the opcode table has bits. -/
def decodeTableWord (_nbits _w : Nat) : Option Instr := none

end Sys2Proof
end

