-- ==== Sys2Proof/Config.lean ====
section
/-! DEFINITION. What an implementation fixes and the manual does not state, and the free values. None of these has a
body: nothing can be proved from a value of them. -/

namespace Sys2Proof

/-- A free value: what a result holds that the manual does not state. The argument is the counter State.free, which
the step advances with each use (log entry 4). -/
opaque Config.freeValue (w : Nat) : Nat → BitVec w

/-- The device's serial number, GLB_SERIAL_LO and _HI (R434): fused, a different one in each device. -/
opaque Config.serial : DWord

/-- The fused owner identity of Table 14.6 (R360). -/
opaque Config.ownerId : Word

/-- The version of the Curator's firmware (R380, INFO). -/
opaque Config.firmwareVersion : Nat → Word

/-- Entries that the Curator's mirror ring holds (R294): the manual speaks of its room and gives no size. -/
opaque Config.mirrorRing : Nat

/-- The signature of the attestation report with the device's identity key (R367, log entry 7). -/
opaque Config.sign : List Byte → List Byte

/-- The Huforam root public key, whose hash the boot ROM holds (R360). -/
opaque Config.rootKey : List Byte

/-- Whether an image marks a station to run (R383, Table 2.12): the manual does not say how an image does it. -/
opaque Config.imageMark : List Byte → Nat → Bool

/-- Whether the firmware copy `k` in this device's flash passes the boot ROM's check (R362). -/
opaque Config.firmwareOk : Nat → List Byte → Bool

/-- The flash bytes of the firmware region as they were manufactured (Table 14.1): two copies of the Curator's firmware and the
device identity certificate (R367), by flash offset. -/
opaque Config.firmwareFlash : Nat → Byte

/-- u0 of the valve loop (R389): the manual uses it and states no value. -/
opaque Config.valveU0 : Rat

end Sys2Proof
end

