-- ==== Sys2Proof/Machine/Bits.lean ====
section
/-! DEFINITION. Bit fields of words, little-endian byte strings, sign extension, the CRC-32 of R307 and R316. -/

namespace Sys2Proof.Machine

open Sys2Proof

/-- The `n` bits of `w` from bit `lo` up, as a number. -/
def fld (w : Word) (lo n : Nat) : Nat := (w.toNat >>> lo) % 2 ^ n

/-- `w` with the `n` bits from bit `lo` up replaced by those of `v`. -/
def setFld (w : Word) (lo n v : Nat) : Word :=
  BitVec.ofNat 32 (w.toNat - (fld w lo n <<< lo) + ((v % 2 ^ n) <<< lo))

/-- Bit `i` of `w`. -/
def bitOf (w : Word) (i : Nat) : Bool := w.getLsbD i

/-- `w` with bit `i` set to `b`. -/
def setBit (w : Word) (i : Nat) (b : Bool) : Word := setFld w i 1 (if b then 1 else 0)

/-- The word of a number. -/
def word (n : Nat) : Word := BitVec.ofNat 32 n

/-- The 64-bit value of a number. -/
def dword (n : Nat) : DWord := BitVec.ofNat 64 n

/-- One bit as a number. -/
def b2n (b : Bool) : Nat := if b then 1 else 0

/-- An `n`-bit two's complement number as an integer. -/
def signed (n v : Nat) : Int := if v % 2 ^ n < 2 ^ (n - 1) then (v % 2 ^ n : Nat) else (v % 2 ^ n : Nat) - (2 ^ n : Nat)

/-- An integer modulo 2^n as a number. -/
def wrap (n : Nat) (v : Int) : Nat := (v % (2 ^ n : Nat)).toNat

/-- The number that little-endian bytes hold (R7). -/
def ofLE : List Byte → Nat
  | [] => 0
  | b :: r => b.toNat + 256 * ofLE r

/-- `n` little-endian bytes of a number. -/
def toLE : Nat → Nat → List Byte
  | 0, _ => []
  | n + 1, v => BitVec.ofNat 8 v :: toLE n (v / 256)

/-- The bytes of 32-bit words, little-endian. -/
def wordsToBytes : List Word → List Byte
  | [] => []
  | w :: r => toLE 4 w.toNat ++ wordsToBytes r

/-- `n` words from little-endian bytes; missing bytes read 0. -/
def bytesToWords : Nat → List Byte → List Word
  | 0, _ => []
  | n + 1, bs => word (ofLE (bs.take 4)) :: bytesToWords n (bs.drop 4)

/-- `n` zero bytes. -/
def zeros (n : Nat) : List Byte := List.replicate n 0

/-- Bytes cut or padded with zeros to `n`. -/
def fit (n : Nat) (bs : List Byte) : List Byte := bs.take n ++ zeros (n - bs.length)

/-- `n` bytes from offset `o`, padded with zeros. -/
def slice (bs : List Byte) (o n : Nat) : List Byte := fit n (bs.drop o)

/-- The number of the little-endian field of `n` bytes at offset `o`. -/
def leAt (bs : List Byte) (o n : Nat) : Nat := ofLE (slice bs o n)

/-- The number that big-endian bytes hold. -/
def ofBE (bs : List Byte) : Nat := ofLE bs.reverse

/-- The bytes with those from offset `o` on replaced by `v`. -/
def patch (bs : List Byte) (o : Nat) (v : List Byte) : List Byte :=
  bs.take o ++ v ++ bs.drop (o + v.length)

/-- One bit step of the CRC-32 of IEEE 802.3, reflected. -/
def crcBit (c : Nat) : Nat := if c % 2 = 1 then (c / 2) ^^^ 0xEDB88320 else c / 2

/-- One byte of the CRC-32. -/
def crcByte (c : Nat) (b : Byte) : Nat :=
  crcBit (crcBit (crcBit (crcBit (crcBit (crcBit (crcBit (crcBit (c ^^^ b.toNat))))))))

/-- The CRC-32 of IEEE 802.3 over bytes. -/
def crc32 (bs : List Byte) : Nat := (bs.foldl crcByte 0xFFFFFFFF) ^^^ 0xFFFFFFFF

/-- The number of a rising list that comes first after `last` in round-robin order. -/
def firstAfter (last : Nat) (l : List Nat) : Option Nat :=
  match l.filter (fun n => decide (last < n)) with
  | n :: _ => some n
  | [] => l.head?

/-- Ceiling division. -/
def cdiv (a b : Nat) : Nat := (a + b - 1) / b

/-- The first index below `n` for which `p` holds. -/
def firstBelow (n : Nat) (p : Nat → Bool) : Option Nat := (List.range n).find? p

/-- The value clamped between two bounds. -/
def clamp (lo hi v : Nat) : Nat := if v < lo then lo else if hi < v then hi else v

/-- The element at a place of a list, or a default. -/
def nth {α : Type} (l : List α) (i : Nat) (d : α) : α := l.getD i d

end Sys2Proof.Machine
end

