-- ==== Sys2Proof/Machine/RegMap.lean ====
section
/-! DEFINITION. The register map of BAR0 (R436 and the register tables of the chapters): the address of every register by name, and for
every register its fields by access code (R10) with its reset value (R12). A register whose reset is `img` or `strap`
reads 0 until the image or the pins set it. -/

namespace Sys2Proof.Machine

/-- How a register takes part in a pair (R451): no pair, the halves of a value pair, the halves of a map pair. -/
inductive Half where
  | single | valLo | valHi | mapLo | mapHi
  deriving DecidableEq, Repr

/-- `n` consecutive registers from offset `lo`: the bits of each access code, the reset value, the bits whose
reset the image gives (R359), the part in a pair. -/
structure RegRow where
  lo    : Nat
  n     : Nat
  rw    : Word
  rws   : Word
  w1c   : Word
  rc    : Word
  wo    : Word
  reset : Word
  img   : Word
  half  : Half
  deriving DecidableEq, Repr

/-! ### Addresses of GLB -/

/-- GLB_ID (R434). -/
abbrev Reg.glbId : Nat := 0

/-- GLB_REV (R434). -/
abbrev Reg.glbRev : Nat := 0 + 0x4

/-- GLB_SERIAL_LO (R434). -/
abbrev Reg.glbSerialLo : Nat := 0 + 0x8

/-- GLB_SERIAL_HI (R434). -/
abbrev Reg.glbSerialHi : Nat := 0 + 0xC

/-- GLB_STATUS (R434). -/
abbrev Reg.glbStatus : Nat := 0 + 0x10

/-- GLB_CTRL (R434). -/
abbrev Reg.glbCtrl : Nat := 0 + 0x14

/-- GLB_APERTURE (R434). -/
abbrev Reg.glbAperture : Nat := 0 + 0x18

/-- GLB_VIT_SEL (R434). -/
abbrev Reg.glbVitSel : Nat := 0 + 0x1C

/-- GLB_PCIE (R434). -/
abbrev Reg.glbPcie : Nat := 0 + 0x20

/-- GLB_PCIE_ERR (R434). -/
abbrev Reg.glbPcieErr : Nat := 0 + 0x24

/-- GLB_IRQ_EN0–7 (R434). -/
abbrev Reg.glbIrqEn (i : Nat) : Nat := 0 + 0x40 + 4 * i

/-- GLB_IRQ_PEND0–7 (R434). -/
abbrev Reg.glbIrqPend (i : Nat) : Nat := 0 + 0x60 + 4 * i

/-- GLB_IMG_STATUS (R375). -/
abbrev Reg.glbImgStatus : Nat := 0 + 0x100

/-- GLB_IMG_ID (R375). -/
abbrev Reg.glbImgId : Nat := 0 + 0x104

/-- GLB_IMG_VER (R375). -/
abbrev Reg.glbImgVer : Nat := 0 + 0x108

/-- GLB_IMG_SECVER (R375). -/
abbrev Reg.glbImgSecver : Nat := 0 + 0x10C

/-- GLB_IMG_MEAS0–11 (R375). -/
abbrev Reg.glbImgMeas (i : Nat) : Nat := 0 + 0x110 + 4 * i

/-- GLB_IMG_CTRL (R375). -/
abbrev Reg.glbImgCtrl : Nat := 0 + 0x140

/-- GLB_IMG_PUSH (R375). -/
abbrev Reg.glbImgPush : Nat := 0 + 0x144

/-- GLB_IMG_LOADST (R375). -/
abbrev Reg.glbImgLoadst : Nat := 0 + 0x148

/-- GLB_SLOT (R375). -/
abbrev Reg.glbSlot : Nat := 0 + 0x14C

/-- MSI-X table (R434). -/
abbrev Reg.glbMsix (i : Nat) : Nat := 0 + 0x4000 + 4 * i

/-- MSI-X pending bit array (R434). -/
abbrev Reg.glbPba (i : Nat) : Nat := 0 + 0x5000 + 4 * i

/-! ### Addresses of HT -/

/-- HT_NOW_LO (R43). -/
abbrev Reg.htNowLo : Nat := 0x10000

/-- HT_NOW_HI (R43). -/
abbrev Reg.htNowHi : Nat := 0x10000 + 0x4

/-- HT_CTRL (R43). -/
abbrev Reg.htCtrl : Nat := 0x10000 + 0x8

/-- HT_STATUS (R43). -/
abbrev Reg.htStatus : Nat := 0x10000 + 0xC

/-- HT_OFFSET (R43). -/
abbrev Reg.htOffset : Nat := 0x10000 + 0x10

/-- HT_PARENT (R43). -/
abbrev Reg.htParent : Nat := 0x10000 + 0x14

/-- HT_HOLDOVER (R43). -/
abbrev Reg.htHoldover : Nat := 0x10000 + 0x18

/-- HT_TSYNC_PERIOD (R43). -/
abbrev Reg.htTsyncPeriod : Nat := 0x10000 + 0x1C

/-- HT_EPOCH_LO (R43). -/
abbrev Reg.htEpochLo : Nat := 0x10000 + 0x20

/-- HT_EPOCH_HI (R43). -/
abbrev Reg.htEpochHi : Nat := 0x10000 + 0x24

/-- HT_TAI_BASE_LO (R43). -/
abbrev Reg.htTaiBaseLo : Nat := 0x10000 + 0x28

/-- HT_TAI_BASE_HI (R43). -/
abbrev Reg.htTaiBaseHi : Nat := 0x10000 + 0x2C

/-- HT_PARADE_LO (R43). -/
abbrev Reg.htParadeLo : Nat := 0x10000 + 0x30

/-- HT_PARADE_HI (R43). -/
abbrev Reg.htParadeHi : Nat := 0x10000 + 0x34

/-- HT_STEP_OPEN_LO (R43). -/
abbrev Reg.htStepOpenLo : Nat := 0x10000 + 0x40

/-- HT_STEP_OPEN_HI (R43). -/
abbrev Reg.htStepOpenHi : Nat := 0x10000 + 0x44

/-- HT_STEP_CLOSE_LO (R43). -/
abbrev Reg.htStepCloseLo : Nat := 0x10000 + 0x48

/-- HT_STEP_CLOSE_HI (R43). -/
abbrev Reg.htStepCloseHi : Nat := 0x10000 + 0x4C

/-- HT_STEP_NUM (R43). -/
abbrev Reg.htStepNum : Nat := 0x10000 + 0x50

/-- HT_STEP_PERIOD (R43). -/
abbrev Reg.htStepPeriod : Nat := 0x10000 + 0x54

/-- HT_CLOSE_LIMIT (R43). -/
abbrev Reg.htCloseLimit : Nat := 0x10000 + 0x58

/-- HT_STEP_CUR (R43). -/
abbrev Reg.htStepCur : Nat := 0x10000 + 0x5C

/-- HT_STEP_FLAGS (R43). -/
abbrev Reg.htStepFlags : Nat := 0x10000 + 0x60

/-- HT_LATE_CNT (R43). -/
abbrev Reg.htLateCnt : Nat := 0x10000 + 0x64

/-- HT_DRAIN_MAP_LO (R43). -/
abbrev Reg.htDrainMapLo : Nat := 0x10000 + 0x68

/-- HT_DRAIN_MAP_HI (R43). -/
abbrev Reg.htDrainMapHi : Nat := 0x10000 + 0x6C

/-- HT_OPEN_ACTUAL_LO (R43). -/
abbrev Reg.htOpenActualLo : Nat := 0x10000 + 0x70

/-- HT_OPEN_ACTUAL_HI (R43). -/
abbrev Reg.htOpenActualHi : Nat := 0x10000 + 0x74

/-! ### Addresses of TXN -/

/-- TXN_BEGIN (R376). -/
abbrev Reg.txnBegin : Nat := 0x20000

/-- TXN_COMMIT (R376). -/
abbrev Reg.txnCommit : Nat := 0x20000 + 0x4

/-- TXN_ROLLBACK (R376). -/
abbrev Reg.txnRollback : Nat := 0x20000 + 0x8

/-- TXN_AT_LO (R376). -/
abbrev Reg.txnAtLo : Nat := 0x20000 + 0xC

/-- TXN_AT_HI (R376). -/
abbrev Reg.txnAtHi : Nat := 0x20000 + 0x10

/-- TXN_STATUS (R376). -/
abbrev Reg.txnStatus : Nat := 0x20000 + 0x14

/-- TXN_OTHER (R376). -/
abbrev Reg.txnOther : Nat := 0x20000 + 0x18

/-- TXN_LAST_LO (R376). -/
abbrev Reg.txnLastLo : Nat := 0x20000 + 0x1C

/-- TXN_LAST_HI (R376). -/
abbrev Reg.txnLastHi : Nat := 0x20000 + 0x20

/-- TXN_COMMITS (R376). -/
abbrev Reg.txnCommits : Nat := 0x20000 + 0x24

/-- TXN_REFUSED (R376). -/
abbrev Reg.txnRefused : Nat := 0x20000 + 0x28

/-! ### Addresses of CAT -/

/-- CAT_CTRL (R422). -/
abbrev Reg.catCtrl : Nat := 0x30000

/-- CAT_STATUS (R422). -/
abbrev Reg.catStatus : Nat := 0x30000 + 0x4

/-- CAT_CURSOR (R422). -/
abbrev Reg.catCursor : Nat := 0x30000 + 0x8

/-- CAT_HEAD (R422). -/
abbrev Reg.catHead : Nat := 0x30000 + 0xC

/-- CAT_FROZEN_CNT (R422). -/
abbrev Reg.catFrozenCnt : Nat := 0x30000 + 0x10

/-- CAT_LOST (R422). -/
abbrev Reg.catLost : Nat := 0x30000 + 0x14

/-- CAT_FREEZE_MAX (R422). -/
abbrev Reg.catFreezeMax : Nat := 0x30000 + 0x18

/-- CAT_RING_LO (R422). -/
abbrev Reg.catRingLo : Nat := 0x30000 + 0x1C

/-- CAT_RING_HI (R422). -/
abbrev Reg.catRingHi : Nat := 0x30000 + 0x20

/-- CAT_ESC (R422). -/
abbrev Reg.catEsc : Nat := 0x30000 + 0x24

/-- CAT_COPY_LAST (R422). -/
abbrev Reg.catCopyLast : Nat := 0x30000 + 0x28

/-- CAT_WINDOW0–15 (R422). -/
abbrev Reg.catWindow (i : Nat) : Nat := 0x30000 + 0x100 + 4 * i

/-- CAT_COND_CTRL (R422). -/
abbrev Reg.catCondCtrl : Nat := 0x30000 + 0x200

/-- CAT_COND_WATCH (R422). -/
abbrev Reg.catCondWatch : Nat := 0x30000 + 0x204

/-- CAT_COND_MOVE (R422). -/
abbrev Reg.catCondMove : Nat := 0x30000 + 0x208

/-- CAT_COND_CLR (R422). -/
abbrev Reg.catCondClr : Nat := 0x30000 + 0x20C

/-- CAT_COND_STN0–63 (R422). -/
abbrev Reg.catCondStn (i : Nat) : Nat := 0x30000 + 0x400 + 4 * i

/-- CAT_COND_PRT0–127 (R422). -/
abbrev Reg.catCondPrt (i : Nat) : Nat := 0x30000 + 0x500 + 4 * i

/-- CAT_COND_MEM0–7 (R422). -/
abbrev Reg.catCondMem (i : Nat) : Nat := 0x30000 + 0x700 + 4 * i

/-- CAT_COND_OPT0–15 (R422). -/
abbrev Reg.catCondOpt (i : Nat) : Nat := 0x30000 + 0x720 + 4 * i

/-! ### Addresses of CUR -/

/-- CUR_INFO (R397). -/
abbrev Reg.curInfo : Nat := 0x40000

/-- CUR_STATUS (R397). -/
abbrev Reg.curStatus : Nat := 0x40000 + 0x4

/-- CUR_CMD (R397). -/
abbrev Reg.curCmd : Nat := 0x40000 + 0x8

/-- CUR_DOORBELL (R397). -/
abbrev Reg.curDoorbell : Nat := 0x40000 + 0xC

/-- CUR_RSP (R397). -/
abbrev Reg.curRsp : Nat := 0x40000 + 0x10

/-- CUR_EVENT (R397). -/
abbrev Reg.curEvent : Nat := 0x40000 + 0x14

/-- CUR_RX_DROP (R397). -/
abbrev Reg.curRxDrop : Nat := 0x40000 + 0x18

/-- CUR_ARG0–63 (R397). -/
abbrev Reg.curArg (i : Nat) : Nat := 0x40000 + 0x100 + 4 * i

/-- CUR_RSP0–63 (R397). -/
abbrev Reg.curRspWord (i : Nat) : Nat := 0x40000 + 0x200 + 4 * i

/-! ### Addresses of PWR -/

/-- PWR_STATUS (R398). -/
abbrev Reg.pwrStatus : Nat := 0x50000

/-- PWR_VIN (R398). -/
abbrev Reg.pwrVin : Nat := 0x50000 + 0x4

/-- PWR_PIN (R398). -/
abbrev Reg.pwrPin : Nat := 0x50000 + 0x8

/-- PWR_PEAK_USED (R398). -/
abbrev Reg.pwrPeakUsed : Nat := 0x50000 + 0xC

/-- PWR_CAP (R398). -/
abbrev Reg.pwrCap : Nat := 0x50000 + 0x10

/-- PWR_LADDER_MIN (R398). -/
abbrev Reg.pwrLadderMin : Nat := 0x50000 + 0x14

/-- PWR_TEMP_MAX (R398). -/
abbrev Reg.pwrTempMax : Nat := 0x50000 + 0x18

/-- PWR_FLOW (R398). -/
abbrev Reg.pwrFlow : Nat := 0x50000 + 0x1C

/-- PWR_FLOW_K (R398). -/
abbrev Reg.pwrFlowK : Nat := 0x50000 + 0x20

/-- PWR_FLOW_ASSUME (R398). -/
abbrev Reg.pwrFlowAssume : Nat := 0x50000 + 0x24

/-- PWR_VALVE (R398). -/
abbrev Reg.pwrValve : Nat := 0x50000 + 0x28

/-- PWR_THM_SET (R398). -/
abbrev Reg.pwrThmSet : Nat := 0x50000 + 0x2C

/-- PWR_TAU (R398). -/
abbrev Reg.pwrTau : Nat := 0x50000 + 0x30

/-- PWR_LOOP (R398). -/
abbrev Reg.pwrLoop : Nat := 0x50000 + 0x34

/-- PWR_TSTN0–15 (R398). -/
abbrev Reg.pwrTstn (i : Nat) : Nat := 0x50000 + 0x40 + 4 * i

/-- PWR_TMEM0–1 (R398). -/
abbrev Reg.pwrTmem (i : Nat) : Nat := 0x50000 + 0x80 + 4 * i

/-- PWR_TOPT0–3 (R398). -/
abbrev Reg.pwrTopt (i : Nat) : Nat := 0x50000 + 0x88 + 4 * i

/-! ### Addresses of PLT -/

/-- PLT_STRAP (R399). -/
abbrev Reg.pltStrap : Nat := 0x60000

/-- PLT_PHASE (R399). -/
abbrev Reg.pltPhase : Nat := 0x60000 + 0x4

/-- PLT_IN (R399). -/
abbrev Reg.pltIn : Nat := 0x60000 + 0x8

/-- PLT_MASK (R399). -/
abbrev Reg.pltMask : Nat := 0x60000 + 0xC

/-- PLT_CHATTER (R399). -/
abbrev Reg.pltChatter : Nat := 0x60000 + 0x10

/-- PLT_CTRL (R399). -/
abbrev Reg.pltCtrl : Nat := 0x60000 + 0x14

/-- PLT_ATTN_MASK (R399). -/
abbrev Reg.pltAttnMask : Nat := 0x60000 + 0x18

/-- PLT_FILT1 (R399). -/
abbrev Reg.pltFilt1 : Nat := 0x60000 + 0x20

/-- PLT_FILT3 (R399). -/
abbrev Reg.pltFilt3 : Nat := 0x60000 + 0x24

/-- PLT_FILT5 (R399). -/
abbrev Reg.pltFilt5 : Nat := 0x60000 + 0x28

/-! ### Addresses of ACC -/

/-- ACC_CTRL (R332). -/
abbrev Reg.accCtrl : Nat := 0x70000

/-- ACC_LLDP (R332). -/
abbrev Reg.accLldp : Nat := 0x70000 + 0x4

/-- ACC_PTP (R332). -/
abbrev Reg.accPtp : Nat := 0x70000 + 0x8

/-- ACC_OUI (R332). -/
abbrev Reg.accOui : Nat := 0x70000 + 0xC

/-- ACC_STATE0–15 (R332). -/
abbrev Reg.accState (i : Nat) : Nat := 0x70000 + 0x10 + 4 * i

/-- ACC_EVENT (R332). -/
abbrev Reg.accEvent : Nat := 0x70000 + 0x50

/-- ACC_SEL (R332). -/
abbrev Reg.accSel : Nat := 0x70000 + 0x54

/-- ACC_PEER0 (R332). -/
abbrev Reg.accPeer0 : Nat := 0x70000 + 0x58

/-- ACC_PEER1 (R332). -/
abbrev Reg.accPeer1 : Nat := 0x70000 + 0x5C

/-! ### Addresses of CRS -/

/-- CRS_XCTRL (R301). -/
abbrev Reg.crsXctrl : Nat := 0x100000

/-- CRS_AGE_LIMIT (R301). -/
abbrev Reg.crsAgeLimit : Nat := 0x100000 + 0x4

/-- CRS_XSTATUS (R301). -/
abbrev Reg.crsXstatus : Nat := 0x100000 + 0x8

/-- CRS_AGED0–4 (R301). -/
abbrev Reg.crsAged (i : Nat) : Nat := 0x100000 + 0x10 + 4 * i

/-- CRS_LAPSED (R301). -/
abbrev Reg.crsLapsed : Nat := 0x100000 + 0x24

/-- CRS_ESC_BAD (R301). -/
abbrev Reg.crsEscBad : Nat := 0x100000 + 0x28

/-- CRS_MIR_CTRL (R301). -/
abbrev Reg.crsMirCtrl : Nat := 0x100000 + 0x40

/-- CRS_MIR_SEED_LO (R301). -/
abbrev Reg.crsMirSeedLo : Nat := 0x100000 + 0x44

/-- CRS_MIR_SEED_HI (R301). -/
abbrev Reg.crsMirSeedHi : Nat := 0x100000 + 0x48

/-- CRS_MIR_STN_LO (R301). -/
abbrev Reg.crsMirStnLo : Nat := 0x100000 + 0x4C

/-- CRS_MIR_STN_HI (R301). -/
abbrev Reg.crsMirStnHi : Nat := 0x100000 + 0x50

/-- CRS_MIR_COPIED (R301). -/
abbrev Reg.crsMirCopied : Nat := 0x100000 + 0x54

/-- CRS_MIR_DROPPED (R301). -/
abbrev Reg.crsMirDropped : Nat := 0x100000 + 0x58

/-- CRS_RED_DEADLINE (R173). -/
abbrev Reg.crsRedDeadline : Nat := 0x100000 + 0x40000

/-- CRS_RED_RSTN_LO (R173). -/
abbrev Reg.crsRedRstnLo : Nat := 0x100000 + 0x40004

/-- CRS_RED_RSTN_HI (R173). -/
abbrev Reg.crsRedRstnHi : Nat := 0x100000 + 0x40008

/-- CRS_RED_EPSTN0–3 (R173). -/
abbrev Reg.crsRedEpstn (i : Nat) : Nat := 0x100000 + 0x40010 + 4 * i

/-- CRS_RED_STAGE_LO (R173). -/
abbrev Reg.crsRedStageLo : Nat := 0x100000 + 0x40020

/-- CRS_RED_STAGE_HI (R173). -/
abbrev Reg.crsRedStageHi : Nat := 0x100000 + 0x40024

/-- CRS_RED_STAGE_SIZE (R173). -/
abbrev Reg.crsRedStageSize : Nat := 0x100000 + 0x40028

/-- CRS_RED_STATUS (R173). -/
abbrev Reg.crsRedStatus : Nat := 0x100000 + 0x40030

/-- CRS_RED_ABANDON (R173). -/
abbrev Reg.crsRedAbandon : Nat := 0x100000 + 0x40034

/-- CRS_RED_LATE (R173). -/
abbrev Reg.crsRedLate : Nat := 0x100000 + 0x40040

/-- CRS_RED_STRAY (R173). -/
abbrev Reg.crsRedStray : Nat := 0x100000 + 0x40044

/-- CRS_RED_NF_CNT (R173). -/
abbrev Reg.crsRedNfCnt : Nat := 0x100000 + 0x40048

/-- CRS_RED_NF_EXCL (R173). -/
abbrev Reg.crsRedNfExcl : Nat := 0x100000 + 0x4004C

/-- CRS_RED_BAD (R173). -/
abbrev Reg.crsRedBad : Nat := 0x100000 + 0x40050

/-- CRS_RED_DONE (R173). -/
abbrev Reg.crsRedDone : Nat := 0x100000 + 0x40054

/-- CRS_RED_GROUP0–63 (R173). -/
abbrev Reg.crsRedGroup (i : Nat) : Nat := 0x100000 + 0x40100 + 4 * i

/-- CRS_RED_ENT (R173). -/
abbrev Reg.crsRedEnt (i w : Nat) : Nat := 0x100000 + 0x48000 + 8 * i + 4 * w

/-- CRS_OPT_ROOT_LO (R199). -/
abbrev Reg.crsOptRootLo : Nat := 0x100000 + 0x50000

/-- CRS_OPT_ROOT_HI (R199). -/
abbrev Reg.crsOptRootHi : Nat := 0x100000 + 0x50004

/-- CRS_OPT_REFILL (R199). -/
abbrev Reg.crsOptRefill : Nat := 0x100000 + 0x50008

/-- CRS_TAL_CTRL (R199). -/
abbrev Reg.crsTalCtrl : Nat := 0x100000 + 0x50100

/-- CRS_TAL_SEED_LO (R199). -/
abbrev Reg.crsTalSeedLo : Nat := 0x100000 + 0x50104

/-- CRS_TAL_SEED_HI (R199). -/
abbrev Reg.crsTalSeedHi : Nat := 0x100000 + 0x50108

/-- CRS_TAL_RING_LO (R199). -/
abbrev Reg.crsTalRingLo : Nat := 0x100000 + 0x5010C

/-- CRS_TAL_RING_HI (R199). -/
abbrev Reg.crsTalRingHi : Nat := 0x100000 + 0x50110

/-- CRS_TAL_RING_SIZE (R199). -/
abbrev Reg.crsTalRingSize : Nat := 0x100000 + 0x50114

/-- CRS_TAL_SAMPLED (R199). -/
abbrev Reg.crsTalSampled : Nat := 0x100000 + 0x50118

/-- CRS_TAL_MISMATCH (R199). -/
abbrev Reg.crsTalMismatch : Nat := 0x100000 + 0x5011C

/-- CRS_TAL_SKIPPED (R199). -/
abbrev Reg.crsTalSkipped : Nat := 0x100000 + 0x50120

/-- CRS_TAL_DROPPED (R199). -/
abbrev Reg.crsTalDropped : Nat := 0x100000 + 0x50124

/-- CRS_TAL_LAST (R199). -/
abbrev Reg.crsTalLast : Nat := 0x100000 + 0x50128

/-- CRS_TAL_TAP0–15 (R199). -/
abbrev Reg.crsTalTap (i : Nat) : Nat := 0x100000 + 0x50140 + 4 * i

/-- CRS_EXP_ROOT_LO (R232). -/
abbrev Reg.crsExpRootLo : Nat := 0x100000 + 0x60000

/-- CRS_EXP_ROOT_HI (R232). -/
abbrev Reg.crsExpRootHi : Nat := 0x100000 + 0x60004

/-- CRS_EXP_CENSUS_LO (R232). -/
abbrev Reg.crsExpCensusLo : Nat := 0x100000 + 0x60008

/-- CRS_EXP_CENSUS_HI (R232). -/
abbrev Reg.crsExpCensusHi : Nat := 0x100000 + 0x6000C

/-- CRS_EXP_STATUS (R232). -/
abbrev Reg.crsExpStatus : Nat := 0x100000 + 0x60010

/-- CRS_EXP_BAD (R232). -/
abbrev Reg.crsExpBad : Nat := 0x100000 + 0x60014

/-- CRS_EXP_STRAY (R232). -/
abbrev Reg.crsExpStray : Nat := 0x100000 + 0x60018

/-- CRS_EXP_MAP0–1023 (R232). -/
abbrev Reg.crsExpMap (i : Nat) : Nat := 0x100000 + 0x61000 + 4 * i

/-- CRS_PRD_ROOT_LO (R258). -/
abbrev Reg.crsPrdRootLo : Nat := 0x100000 + 0x70000

/-- CRS_PRD_ROOT_HI (R258). -/
abbrev Reg.crsPrdRootHi : Nat := 0x100000 + 0x70004

/-- itinerary table (R70). -/
abbrev Reg.crsItin (i h : Nat) : Nat := 0x100000 + 0x80000 + 64 * i + 4 * h

/-- CRS_SLIP (R333). -/
abbrev Reg.crsSlip : Nat := 0x100000 + 0xC0000

/-- CRS_TEL_CTRL (R333). -/
abbrev Reg.crsTelCtrl : Nat := 0x100000 + 0xC0004

/-- CRS_TEL_RING_LO (R333). -/
abbrev Reg.crsTelRingLo : Nat := 0x100000 + 0xC0008

/-- CRS_TEL_RING_HI (R333). -/
abbrev Reg.crsTelRingHi : Nat := 0x100000 + 0xC000C

/-- CRS_TEL_RING_SIZE (R333). -/
abbrev Reg.crsTelRingSize : Nat := 0x100000 + 0xC0010

/-- CRS_TEL_DROPPED (R333). -/
abbrev Reg.crsTelDropped : Nat := 0x100000 + 0xC0014

/-- CRS_ROW_LINK0–15 (R333). -/
abbrev Reg.crsRowLink (i : Nat) : Nat := 0x100000 + 0xC0100 + 4 * i

/-- CRS_COL_LINK0–31 (R333). -/
abbrev Reg.crsColLink (i : Nat) : Nat := 0x100000 + 0xC0140 + 4 * i

/-- CRS_MCG0–127 (R333). -/
abbrev Reg.crsMcg (m w : Nat) : Nat := 0x100000 + 0xC1000 + 16 * m + 4 * w

/-- CRS_ITIN_DST0–4095 (R333). -/
abbrev Reg.crsItinDst (i : Nat) : Nat := 0x100000 + 0xC4000 + 4 * i

/-! ### Addresses of MEM -/

/-- MEM_INFO (R353). -/
abbrev Reg.memInfo (n : Nat) : Nat := 0x200000 + 0x20000 * n

/-- MEM_MAP (R353). -/
abbrev Reg.memMap (n : Nat) : Nat := 0x200000 + 0x20000 * n + 0x4

/-- MEM_STATUS (R353). -/
abbrev Reg.memStatus (n : Nat) : Nat := 0x200000 + 0x20000 * n + 0x8

/-- MEM_PRIO_LO (R353). -/
abbrev Reg.memPrioLo (n : Nat) : Nat := 0x200000 + 0x20000 * n + 0xC

/-- MEM_PRIO_HI (R353). -/
abbrev Reg.memPrioHi (n : Nat) : Nat := 0x200000 + 0x20000 * n + 0x10

/-- MEM_HOLD_MAX (R353). -/
abbrev Reg.memHoldMax (n : Nat) : Nat := 0x200000 + 0x20000 * n + 0x14

/-- MEM_SCRUB_CTRL (R353). -/
abbrev Reg.memScrubCtrl (n : Nat) : Nat := 0x200000 + 0x20000 * n + 0x18

/-- MEM_SCRUB_PASS (R353). -/
abbrev Reg.memScrubPass (n : Nat) : Nat := 0x200000 + 0x20000 * n + 0x1C

/-- MEM_CE_CNT (R353). -/
abbrev Reg.memCeCnt (n : Nat) : Nat := 0x200000 + 0x20000 * n + 0x20

/-- MEM_UE_CNT (R353). -/
abbrev Reg.memUeCnt (n : Nat) : Nat := 0x200000 + 0x20000 * n + 0x24

/-- MEM_UE_ADDR_LO (R353). -/
abbrev Reg.memUeAddrLo (n : Nat) : Nat := 0x200000 + 0x20000 * n + 0x28

/-- MEM_UE_ADDR_HI (R353). -/
abbrev Reg.memUeAddrHi (n : Nat) : Nat := 0x200000 + 0x20000 * n + 0x2C

/-- MEM_HOLD_CUTS (R353). -/
abbrev Reg.memHoldCuts (n : Nat) : Nat := 0x200000 + 0x20000 * n + 0x30

/-- MEM_HOLD_WHO (R353). -/
abbrev Reg.memHoldWho (n : Nat) : Nat := 0x200000 + 0x20000 * n + 0x34

/-- MEM_WAIT_MAX0–10 (R353). -/
abbrev Reg.memWaitMax (n i : Nat) : Nat := 0x200000 + 0x20000 * n + 0x40 + 4 * i

/-- MEM_GRANTS0–10 (R353). -/
abbrev Reg.memGrants (n i : Nat) : Nat := 0x200000 + 0x20000 * n + 0x80 + 4 * i

/-! ### Addresses of STN -/

/-- STN_INFO (R69). -/
abbrev Reg.stnInfo (n : Nat) : Nat := 0x1000000 + 0x40000 * n

/-- STN_ROLE (R69). -/
abbrev Reg.stnRole (n : Nat) : Nat := 0x1000000 + 0x40000 * n + 0x4

/-- STN_CTRL (R69). -/
abbrev Reg.stnCtrl (n : Nat) : Nat := 0x1000000 + 0x40000 * n + 0x8

/-- STN_STATUS (R69). -/
abbrev Reg.stnStatus (n : Nat) : Nat := 0x1000000 + 0x40000 * n + 0xC

/-- STN_HALT (R69). -/
abbrev Reg.stnHalt (n : Nat) : Nat := 0x1000000 + 0x40000 * n + 0x10

/-- STN_BAD_TH (R69). -/
abbrev Reg.stnBadTh (n : Nat) : Nat := 0x1000000 + 0x40000 * n + 0x14

/-- STN_NO_ITIN (R69). -/
abbrev Reg.stnNoItin (n : Nat) : Nat := 0x1000000 + 0x40000 * n + 0x18

/-- STN_DISCARDED (R69). -/
abbrev Reg.stnDiscarded (n : Nat) : Nat := 0x1000000 + 0x40000 * n + 0x1C

/-- STN_AS_ENTRY (R106). -/
abbrev Reg.stnAsEntry (n : Nat) : Nat := 0x1000000 + 0x40000 * n + 0x20

/-- STN_XS_ENTRY (R106). -/
abbrev Reg.stnXsEntry (n : Nat) : Nat := 0x1000000 + 0x40000 * n + 0x24

/-- STN_WATCHDOG (R106). -/
abbrev Reg.stnWatchdog (n : Nat) : Nat := 0x1000000 + 0x40000 * n + 0x28

/-- STN_CHECK (R106). -/
abbrev Reg.stnCheck (n : Nat) : Nat := 0x1000000 + 0x40000 * n + 0x2C

/-- STN_OVERISSUE (R106). -/
abbrev Reg.stnOverissue (n : Nat) : Nat := 0x1000000 + 0x40000 * n + 0x30

/-- STN_TRAP (R106). -/
abbrev Reg.stnTrap (n : Nat) : Nat := 0x1000000 + 0x40000 * n + 0x34

/-- STN_WD_PC (R106). -/
abbrev Reg.stnWdPc (n : Nat) : Nat := 0x1000000 + 0x40000 * n + 0x38

/-- STN_WD_WAIT (R106). -/
abbrev Reg.stnWdWait (n : Nat) : Nat := 0x1000000 + 0x40000 * n + 0x3C

/-- STN_WD_QDEPTH (R106). -/
abbrev Reg.stnWdQdepth (n : Nat) : Nat := 0x1000000 + 0x40000 * n + 0x40

/-- STN_WD_FLAGS (R106). -/
abbrev Reg.stnWdFlags (n : Nat) : Nat := 0x1000000 + 0x40000 * n + 0x44

/-- STN_VIT_PROG (R106). -/
abbrev Reg.stnVitProg (n : Nat) : Nat := 0x1000000 + 0x40000 * n + 0x48

/-- STN_XS_PAGE (R106). -/
abbrev Reg.stnXsPage (n : Nat) : Nat := 0x1000000 + 0x40000 * n + 0x4C

/-- STN_NUM_CTRL (R144). -/
abbrev Reg.stnNumCtrl (n : Nat) : Nat := 0x1000000 + 0x40000 * n + 0x50

/-- STN_NUM_FLAGS (R144). -/
abbrev Reg.stnNumFlags (n : Nat) : Nat := 0x1000000 + 0x40000 * n + 0x54

/-- STN_LUP_STATUS (R257). -/
abbrev Reg.stnLupStatus (n : Nat) : Nat := 0x1000000 + 0x40000 * n + 0x60

/-- STN_SPA_LAST (R257). -/
abbrev Reg.stnSpaLast (n : Nat) : Nat := 0x1000000 + 0x40000 * n + 0x64

/-- STN_SPA_ELEM (R257). -/
abbrev Reg.stnSpaElem (n : Nat) : Nat := 0x1000000 + 0x40000 * n + 0x68

/-- STN_SPA_CNT (R257). -/
abbrev Reg.stnSpaCnt (n : Nat) : Nat := 0x1000000 + 0x40000 * n + 0x6C

/-- STN_LUP_TILES (R257). -/
abbrev Reg.stnLupTiles (n : Nat) : Nat := 0x1000000 + 0x40000 * n + 0x70

/-- STN_PHX_PRED (R275). -/
abbrev Reg.stnPhxPred (n : Nat) : Nat := 0x1000000 + 0x40000 * n + 0x74

/-- STN_PHX_RECS (R275). -/
abbrev Reg.stnPhxRecs (n : Nat) : Nat := 0x1000000 + 0x40000 * n + 0x78

/-- STN_PHX_KEPT (R275). -/
abbrev Reg.stnPhxKept (n : Nat) : Nat := 0x1000000 + 0x40000 * n + 0x7C

/-- STN_CLK_POOL0–4 (R302). -/
abbrev Reg.stnClkPool (n i : Nat) : Nat := 0x1000000 + 0x40000 * n + 0x80 + 4 * i

/-- STN_CLK_FREE0–4 (R302). -/
abbrev Reg.stnClkFree (n i : Nat) : Nat := 0x1000000 + 0x40000 * n + 0xA0 + 4 * i

/-- STN_CLK_LOW0–4 (R302). -/
abbrev Reg.stnClkLow (n i : Nat) : Nat := 0x1000000 + 0x40000 * n + 0xC0 + 4 * i

/-- STN_ING_POOL0–5 (R302). -/
abbrev Reg.stnIngPool (n i : Nat) : Nat := 0x1000000 + 0x40000 * n + 0xE0 + 4 * i

/-- STN_XQ_AS (R302). -/
abbrev Reg.stnXqAs (n : Nat) : Nat := 0x1000000 + 0x40000 * n + 0x100

/-- STN_RSP_RESV (R302). -/
abbrev Reg.stnRspResv (n : Nat) : Nat := 0x1000000 + 0x40000 * n + 0x104

/-- STN_XQ_DEPTH (R302). -/
abbrev Reg.stnXqDepth (n : Nat) : Nat := 0x1000000 + 0x40000 * n + 0x108

/-- STN_CLK_WAIT (R302). -/
abbrev Reg.stnClkWait (n : Nat) : Nat := 0x1000000 + 0x40000 * n + 0x10C

/-- STN_VIT_CE (R354). -/
abbrev Reg.stnVitCe (n : Nat) : Nat := 0x1000000 + 0x40000 * n + 0x110

/-- STN_VIT_UE (R354). -/
abbrev Reg.stnVitUe (n : Nat) : Nat := 0x1000000 + 0x40000 * n + 0x114

/-- STN_VIT_UE_ADDR (R354). -/
abbrev Reg.stnVitUeAddr (n : Nat) : Nat := 0x1000000 + 0x40000 * n + 0x118

/-- STN_VIT_SCRUB (R354). -/
abbrev Reg.stnVitScrub (n : Nat) : Nat := 0x1000000 + 0x40000 * n + 0x11C

/-- STN_QDEPTH (R106). -/
abbrev Reg.stnQdepth (n : Nat) : Nat := 0x1000000 + 0x40000 * n + 0x30000

/-- STN_FLAGS (R106). -/
abbrev Reg.stnFlags (n : Nat) : Nat := 0x1000000 + 0x40000 * n + 0x30004

/-- STN_FLAG_SET (R106). -/
abbrev Reg.stnFlagSet (n : Nat) : Nat := 0x1000000 + 0x40000 * n + 0x30008

/-- STN_FLAG_CLR (R106). -/
abbrev Reg.stnFlagClr (n : Nat) : Nat := 0x1000000 + 0x40000 * n + 0x3000C

/-- STN_AS_PC (R106). -/
abbrev Reg.stnAsPc (n : Nat) : Nat := 0x1000000 + 0x40000 * n + 0x30010

/-- STN_XS_PC (R106). -/
abbrev Reg.stnXsPc (n : Nat) : Nat := 0x1000000 + 0x40000 * n + 0x30014

/-- STN_CUT_CTRL (R115). -/
abbrev Reg.stnCutCtrl (n : Nat) : Nat := 0x1000000 + 0x40000 * n + 0x30100

/-- STN_CUT_STAT (R115). -/
abbrev Reg.stnCutStat (n : Nat) : Nat := 0x1000000 + 0x40000 * n + 0x30104

/-- STN_CUT_AT_LO (R115). -/
abbrev Reg.stnCutAtLo (n : Nat) : Nat := 0x1000000 + 0x40000 * n + 0x30108

/-- STN_CUT_AT_HI (R115). -/
abbrev Reg.stnCutAtHi (n : Nat) : Nat := 0x1000000 + 0x40000 * n + 0x3010C

/-- STN_CUT_NB_LO (R115). -/
abbrev Reg.stnCutNbLo (n : Nat) : Nat := 0x1000000 + 0x40000 * n + 0x30110

/-- STN_CUT_NB_HI (R115). -/
abbrev Reg.stnCutNbHi (n : Nat) : Nat := 0x1000000 + 0x40000 * n + 0x30114

/-- STN_CUT_NT_LO (R115). -/
abbrev Reg.stnCutNtLo (n : Nat) : Nat := 0x1000000 + 0x40000 * n + 0x30118

/-- STN_CUT_NT_HI (R115). -/
abbrev Reg.stnCutNtHi (n : Nat) : Nat := 0x1000000 + 0x40000 * n + 0x3011C

/-- STN_CUT_PEND (R115). -/
abbrev Reg.stnCutPend (n : Nat) : Nat := 0x1000000 + 0x40000 * n + 0x30120

/-- STN_CUT_HT_LO (R115). -/
abbrev Reg.stnCutHtLo (n : Nat) : Nat := 0x1000000 + 0x40000 * n + 0x30124

/-- STN_CUT_HT_HI (R115). -/
abbrev Reg.stnCutHtHi (n : Nat) : Nat := 0x1000000 + 0x40000 * n + 0x30128

/-- STN_CUT_SEL (R115). -/
abbrev Reg.stnCutSel (n : Nat) : Nat := 0x1000000 + 0x40000 * n + 0x3012C

/-- STN_CUT_DATA (R115). -/
abbrev Reg.stnCutData (n : Nat) : Nat := 0x1000000 + 0x40000 * n + 0x30130

/-- STN_CUT_LOC (R115). -/
abbrev Reg.stnCutLoc (n : Nat) : Nat := 0x1000000 + 0x40000 * n + 0x30134

/-- STN_CUT_X0–X31 (R115). -/
abbrev Reg.stnCutX (n i : Nat) : Nat := 0x1000000 + 0x40000 * n + 0x30180 + 4 * i

/-! ### Addresses of PRT -/

/-- PRT_CFG (R331). -/
abbrev Reg.prtCfg (n : Nat) : Nat := 0x2000000 + 0x10000 * n

/-- PRT_STATUS (R331). -/
abbrev Reg.prtStatus (n : Nat) : Nat := 0x2000000 + 0x10000 * n + 0x4

/-- PRT_ETYPE (R331). -/
abbrev Reg.prtEtype (n : Nat) : Nat := 0x2000000 + 0x10000 * n + 0x8

/-- PRT_MAC_LO (R331). -/
abbrev Reg.prtMacLo (n : Nat) : Nat := 0x2000000 + 0x10000 * n + 0xC

/-- PRT_MAC_HI (R331). -/
abbrev Reg.prtMacHi (n : Nat) : Nat := 0x2000000 + 0x10000 * n + 0x10

/-- PRT_VLAN (R331). -/
abbrev Reg.prtVlan (n : Nat) : Nat := 0x2000000 + 0x10000 * n + 0x14

/-- PRT_PCP (R331). -/
abbrev Reg.prtPcp (n : Nat) : Nat := 0x2000000 + 0x10000 * n + 0x18

/-- PRT_ASYM (R331). -/
abbrev Reg.prtAsym (n : Nat) : Nat := 0x2000000 + 0x10000 * n + 0x1C

/-- PRT_OVERHEAD (R331). -/
abbrev Reg.prtOverhead (n : Nat) : Nat := 0x2000000 + 0x10000 * n + 0x20

/-- PRT_SHAPE0–4 (R331). -/
abbrev Reg.prtShape (n i : Nat) : Nat := 0x2000000 + 0x10000 * n + 0x24 + 4 * i

/-- PRT_GATE_BANK (R331). -/
abbrev Reg.prtGateBank (n : Nat) : Nat := 0x2000000 + 0x10000 * n + 0x40

/-- PRT_GATE_LEN (R331). -/
abbrev Reg.prtGateLen (n : Nat) : Nat := 0x2000000 + 0x10000 * n + 0x44

/-- PRT_GATE_TAKE_LO (R331). -/
abbrev Reg.prtGateTakeLo (n : Nat) : Nat := 0x2000000 + 0x10000 * n + 0x48

/-- PRT_GATE_TAKE_HI (R331). -/
abbrev Reg.prtGateTakeHi (n : Nat) : Nat := 0x2000000 + 0x10000 * n + 0x4C

/-- PRT_GATE_CTRL (R331). -/
abbrev Reg.prtGateCtrl (n : Nat) : Nat := 0x2000000 + 0x10000 * n + 0x50

/-- PRT_SLIP0–4 (R331). -/
abbrev Reg.prtSlip (n i : Nat) : Nat := 0x2000000 + 0x10000 * n + 0x60 + 4 * i

/-- PRT_RETRY (R331). -/
abbrev Reg.prtRetry (n : Nat) : Nat := 0x2000000 + 0x10000 * n + 0x80

/-- PRT_FEC_CORR (R331). -/
abbrev Reg.prtFecCorr (n : Nat) : Nat := 0x2000000 + 0x10000 * n + 0x84

/-- PRT_FEC_UNCORR (R331). -/
abbrev Reg.prtFecUncorr (n : Nat) : Nat := 0x2000000 + 0x10000 * n + 0x88

/-- PRT_CRC_ERR (R331). -/
abbrev Reg.prtCrcErr (n : Nat) : Nat := 0x2000000 + 0x10000 * n + 0x8C

/-- PRT_RX_OTHER (R331). -/
abbrev Reg.prtRxOther (n : Nat) : Nat := 0x2000000 + 0x10000 * n + 0x90

/-- PRT_GATE_OVR (R331). -/
abbrev Reg.prtGateOvr (n : Nat) : Nat := 0x2000000 + 0x10000 * n + 0x94

/-- PRT_TEL (R331). -/
abbrev Reg.prtTel (n : Nat) : Nat := 0x2000000 + 0x10000 * n + 0x98

/-- PRT_GATE0_0–255 (R331). -/
abbrev Reg.prtGateA (n i : Nat) : Nat := 0x2000000 + 0x10000 * n + 0x1000 + 4 * i

/-- PRT_GATE1_0–255 (R331). -/
abbrev Reg.prtGateB (n i : Nat) : Nat := 0x2000000 + 0x10000 * n + 0x1800 + 4 * i

/-- The registers of GLB. GLB_IMG_STATUS starts with RECORD 0xFFFF, as Table 14.12 gives it; Table 14.11 gives the register 0
(log entry 141). -/
def glbRows : List RegRow := [
  ⟨0, 1, 0, 0, 0, 0, 0, 0xCD901F3B, 0, .single⟩,
  ⟨0x4, 1, 0, 0, 0, 0, 0, 0x111, 0, .single⟩,
  ⟨0x8, 1, 0, 0, 0, 0, 0, 0, 0, .valLo⟩,
  ⟨0xC, 1, 0, 0, 0, 0, 0, 0, 0, .valHi⟩,
  ⟨0x10, 1, 0, 0, 0x80, 0, 0, 0, 0, .single⟩,
  ⟨0x14, 1, 0, 0, 0, 0, 0x1FFFF, 0, 0, .single⟩,
  ⟨0x18, 1, 0x3FF, 0, 0, 0, 0, 0, 0, .single⟩,
  ⟨0x1C, 1, 0x3F3F, 0, 0, 0, 0, 0x100, 0, .single⟩,
  ⟨0x20, 1, 0, 0, 0, 0, 0, 0, 0, .single⟩,
  ⟨0x24, 1, 0, 0, 0, 0xFFFFFFFF, 0, 0, 0, .single⟩,
  ⟨0x40, 8, 0xFFFFFFFF, 0, 0, 0, 0, 0, 0, .single⟩,
  ⟨0x60, 8, 0, 0, 0xFFFFFFFF, 0, 0, 0, 0, .single⟩,
  ⟨0x100, 1, 0, 0, 0, 0, 0, 0xFFFF0000, 0, .single⟩,
  ⟨0x104, 1, 0, 0, 0, 0, 0, 0, 0, .single⟩,
  ⟨0x108, 1, 0, 0, 0, 0, 0, 0, 0, .single⟩,
  ⟨0x10C, 1, 0, 0, 0, 0, 0, 0, 0, .single⟩,
  ⟨0x110, 12, 0, 0, 0, 0, 0, 0, 0, .single⟩,
  ⟨0x140, 1, 0, 0, 0, 0, 0xF, 0, 0, .single⟩,
  ⟨0x144, 1, 0, 0, 0, 0, 0xFFFF, 0, 0, .single⟩,
  ⟨0x148, 1, 0, 0, 0, 0, 0, 0, 0, .single⟩,
  ⟨0x14C, 1, 0, 0, 0, 0, 0, 0, 0, .single⟩,
  ⟨0x4000, 1024, 0xFFFFFFFF, 0, 0, 0, 0, 0, 0, .single⟩,
  ⟨0x5000, 8, 0, 0, 0, 0, 0, 0, 0, .single⟩]

/-- The registers of HT, part 1. -/
def htRowsA : List RegRow := [
  ⟨0, 1, 0, 0, 0, 0, 0, 0, 0, .valLo⟩,
  ⟨0x4, 1, 0, 0, 0, 0, 0, 0, 0, .valHi⟩,
  ⟨0x8, 1, 0x6, 0x1, 0, 0, 0, 0, 0, .single⟩,
  ⟨0xC, 1, 0, 0, 0, 0, 0, 0x30, 0, .single⟩,
  ⟨0x10, 1, 0, 0, 0, 0, 0, 0, 0, .single⟩,
  ⟨0x14, 1, 0x7F7F, 0, 0, 0, 0, 0, 0x7F7F, .single⟩,
  ⟨0x18, 1, 0xFFFFFFFF, 0, 0, 0, 0, 0x1E848, 0, .single⟩,
  ⟨0x1C, 1, 0xFFFFFFFF, 0, 0, 0, 0, 0x4A817C80, 0, .single⟩,
  ⟨0x20, 1, 0xFFFFFFFF, 0, 0, 0, 0, 0, 0, .valLo⟩,
  ⟨0x24, 1, 0xFFFFFFFF, 0, 0, 0, 0, 0, 0, .valHi⟩,
  ⟨0x28, 1, 0xFFFFFFFF, 0, 0, 0, 0, 0, 0, .valLo⟩,
  ⟨0x2C, 1, 0xFFFFFFFF, 0, 0, 0, 0, 0, 0, .valHi⟩,
  ⟨0x30, 1, 0, 0, 0, 0, 0, 0, 0, .valLo⟩,
  ⟨0x34, 1, 0, 0, 0, 0, 0, 0, 0, .valHi⟩,
  ⟨0x40, 1, 0, 0xFFFFFFFF, 0, 0, 0, 0xFFFFFFFF, 0, .valLo⟩,
  ⟨0x44, 1, 0, 0xFFFFFFFF, 0, 0, 0, 0xFFFFFFFF, 0, .valHi⟩,
  ⟨0x48, 1, 0, 0xFFFFFFFF, 0, 0, 0, 0xFFFFFFFF, 0, .valLo⟩,
  ⟨0x4C, 1, 0, 0xFFFFFFFF, 0, 0, 0, 0xFFFFFFFF, 0, .valHi⟩,
  ⟨0x50, 1, 0, 0xFFFFFFFF, 0, 0, 0, 0, 0, .single⟩,
  ⟨0x54, 1, 0, 0xFFFFFFFF, 0, 0, 0, 0, 0, .single⟩,
  ⟨0x58, 1, 0xFFFFFFFF, 0, 0, 0, 0, 0x1E848, 0, .single⟩,
  ⟨0x5C, 1, 0, 0, 0, 0, 0, 0, 0, .single⟩,
  ⟨0x60, 1, 0, 0, 0xF, 0, 0, 0, 0, .single⟩,
  ⟨0x64, 1, 0, 0, 0, 0xFFFFFFFF, 0, 0, 0, .single⟩]

/-- The registers of HT, part 2. -/
def htRowsB : List RegRow := [
  ⟨0x68, 1, 0, 0, 0, 0, 0, 0, 0, .mapLo⟩,
  ⟨0x6C, 1, 0, 0, 0, 0, 0, 0, 0, .mapHi⟩,
  ⟨0x70, 1, 0, 0, 0, 0, 0, 0, 0, .valLo⟩,
  ⟨0x74, 1, 0, 0, 0, 0, 0, 0, 0, .valHi⟩]

/-- The registers of HT. -/
def htRows : List RegRow := htRowsA ++ htRowsB

/-- The registers of TXN. -/
def txnRows : List RegRow := [
  ⟨0, 1, 0, 0, 0, 0, 0x1, 0, 0, .single⟩,
  ⟨0x4, 1, 0, 0, 0, 0, 0x3, 0, 0, .single⟩,
  ⟨0x8, 1, 0, 0, 0, 0, 0x1, 0, 0, .single⟩,
  ⟨0xC, 1, 0xFFFFFFFF, 0, 0, 0, 0, 0, 0, .valLo⟩,
  ⟨0x10, 1, 0xFFFFFFFF, 0, 0, 0, 0, 0, 0, .valHi⟩,
  ⟨0x14, 1, 0, 0, 0, 0, 0, 0, 0, .single⟩,
  ⟨0x18, 1, 0, 0, 0, 0, 0, 0, 0, .single⟩,
  ⟨0x1C, 1, 0, 0, 0, 0, 0, 0, 0, .valLo⟩,
  ⟨0x20, 1, 0, 0, 0, 0, 0, 0, 0, .valHi⟩,
  ⟨0x24, 1, 0, 0, 0, 0xFFFFFFFF, 0, 0, 0, .single⟩,
  ⟨0x28, 1, 0, 0, 0, 0xFFFFFFFF, 0, 0, 0, .single⟩]

/-- The registers of CAT. -/
def catRows : List RegRow := [
  ⟨0, 1, 0x1F03, 0, 0, 0, 0, 0x1002, 0, .single⟩,
  ⟨0x4, 1, 0, 0, 0x18, 0, 0, 0, 0, .single⟩,
  ⟨0x8, 1, 0xFFFF, 0, 0, 0, 0, 0, 0, .single⟩,
  ⟨0xC, 1, 0, 0, 0, 0, 0, 0, 0, .single⟩,
  ⟨0x10, 1, 0, 0, 0, 0xFFFFFFFF, 0, 0, 0, .single⟩,
  ⟨0x14, 1, 0, 0, 0, 0xFFFFFFFF, 0, 0, 0, .single⟩,
  ⟨0x18, 1, 0xFFFF, 0, 0, 0, 0, 0x64, 0, .single⟩,
  ⟨0x1C, 1, 0, 0xFFFFFFFF, 0, 0, 0, 0, 0xFFFFFFFF, .valLo⟩,
  ⟨0x20, 1, 0, 0xFF, 0, 0, 0, 0, 0xFF, .valHi⟩,
  ⟨0x24, 1, 0xF, 0, 0, 0, 0, 0x4, 0, .single⟩,
  ⟨0x28, 1, 0, 0, 0, 0, 0, 0, 0, .single⟩,
  ⟨0x100, 16, 0, 0, 0, 0, 0, 0, 0, .single⟩,
  ⟨0x200, 1, 0xF, 0, 0, 0, 0, 0xC, 0, .single⟩,
  ⟨0x204, 1, 0xFFFF, 0, 0, 0, 0, 0x2000, 0, .single⟩,
  ⟨0x208, 1, 0xFFFF, 0, 0, 0, 0, 0x8000, 0, .single⟩,
  ⟨0x20C, 1, 0, 0, 0, 0, 0x7FF, 0, 0, .single⟩,
  ⟨0x400, 64, 0, 0, 0, 0, 0, 0, 0, .single⟩,
  ⟨0x500, 128, 0, 0, 0, 0, 0, 0, 0, .single⟩,
  ⟨0x700, 8, 0, 0, 0, 0, 0, 0, 0, .single⟩,
  ⟨0x720, 16, 0, 0, 0, 0, 0, 0, 0, .single⟩]

/-- The registers of CUR. -/
def curRows : List RegRow := [
  ⟨0, 1, 0, 0, 0, 0, 0, 0, 0, .single⟩,
  ⟨0x4, 1, 0, 0, 0, 0, 0, 0, 0, .single⟩,
  ⟨0x8, 1, 0x7FFFFF, 0, 0, 0, 0, 0, 0, .single⟩,
  ⟨0xC, 1, 0, 0, 0, 0, 0x1, 0, 0, .single⟩,
  ⟨0x10, 1, 0, 0, 0, 0, 0, 0, 0, .single⟩,
  ⟨0x14, 1, 0, 0, 0xF, 0, 0, 0, 0, .single⟩,
  ⟨0x18, 1, 0, 0, 0, 0xFFFFFFFF, 0, 0, 0, .single⟩,
  ⟨0x100, 64, 0xFFFFFFFF, 0, 0, 0, 0, 0, 0, .single⟩,
  ⟨0x200, 64, 0, 0, 0, 0, 0, 0, 0, .single⟩]

/-- The registers of PWR. -/
def pwrRows : List RegRow := [
  ⟨0, 1, 0, 0, 0, 0, 0, 0, 0, .single⟩,
  ⟨0x4, 1, 0, 0, 0, 0, 0, 0, 0, .single⟩,
  ⟨0x8, 1, 0, 0, 0, 0, 0, 0, 0, .single⟩,
  ⟨0xC, 1, 0, 0, 0, 0, 0, 0, 0, .single⟩,
  ⟨0x10, 1, 0xFFF, 0, 0, 0, 0, 0xD48, 0, .single⟩,
  ⟨0x14, 1, 0x7, 0, 0, 0, 0, 0, 0, .single⟩,
  ⟨0x18, 1, 0, 0, 0, 0, 0, 0, 0, .single⟩,
  ⟨0x1C, 1, 0, 0, 0, 0, 0, 0, 0, .single⟩,
  ⟨0x20, 1, 0xFFFF, 0, 0, 0, 0, 0x4B0, 0, .single⟩,
  ⟨0x24, 1, 0xFFFF, 0, 0, 0, 0, 0xFA0, 0, .single⟩,
  ⟨0x28, 1, 0x1FF, 0, 0, 0, 0, 0xFF, 0, .single⟩,
  ⟨0x2C, 1, 0xFF, 0, 0, 0, 0, 0x55, 0, .single⟩,
  ⟨0x30, 1, 0xFFFF, 0, 0, 0, 0, 0x1770, 0, .single⟩,
  ⟨0x34, 1, 0xFFFFFFFF, 0, 0, 0, 0, 0x8100420, 0, .single⟩,
  ⟨0x40, 16, 0, 0, 0, 0, 0, 0, 0, .single⟩,
  ⟨0x80, 2, 0, 0, 0, 0, 0, 0, 0, .single⟩,
  ⟨0x88, 4, 0, 0, 0, 0, 0, 0, 0, .single⟩]

/-- The registers of PLT. -/
def pltRows : List RegRow := [
  ⟨0, 1, 0, 0, 0, 0, 0, 0, 0, .single⟩,
  ⟨0x4, 1, 0, 0, 0, 0, 0, 0, 0, .single⟩,
  ⟨0x8, 1, 0, 0, 0, 0, 0, 0, 0, .single⟩,
  ⟨0xC, 1, 0, 0, 0x2A, 0, 0, 0, 0, .single⟩,
  ⟨0x10, 1, 0, 0, 0x2A, 0, 0, 0, 0, .single⟩,
  ⟨0x14, 1, 0x1, 0, 0, 0, 0x2, 0x1, 0, .single⟩,
  ⟨0x18, 1, 0xFFFFFFFF, 0, 0, 0, 0, 0xE, 0, .single⟩,
  ⟨0x20, 1, 0xFFFFFFFF, 0, 0, 0, 0, 0x2710000A, 0, .single⟩,
  ⟨0x24, 1, 0xFFFFFFFF, 0, 0, 0, 0, 0x3E8, 0, .single⟩,
  ⟨0x28, 1, 0xFFFFFFFF, 0, 0, 0, 0, 0x3E80014, 0, .single⟩]

/-- The registers of ACC. -/
def accRows : List RegRow := [
  ⟨0, 1, 0x1, 0, 0, 0, 0x2, 0x1, 0, .single⟩,
  ⟨0x4, 1, 0xFFFF, 0, 0, 0, 0, 0x401, 0, .single⟩,
  ⟨0x8, 1, 0xFF0FFF, 0, 0, 0, 0, 0xF80400, 0, .single⟩,
  ⟨0xC, 1, 0xFFFFFF, 0, 0, 0, 0, 0, 0xFFFFFF, .single⟩,
  ⟨0x10, 16, 0, 0, 0, 0, 0, 0, 0, .single⟩,
  ⟨0x50, 1, 0, 0, 0x7, 0, 0, 0, 0, .single⟩,
  ⟨0x54, 1, 0x7F, 0, 0, 0, 0, 0, 0, .single⟩,
  ⟨0x58, 1, 0, 0, 0, 0, 0, 0, 0, .single⟩,
  ⟨0x5C, 1, 0, 0, 0, 0, 0, 0, 0, .single⟩]

/-- The registers of CRS, part 1. -/
def crsRowsA : List RegRow := [
  ⟨0, 1, 0, 0xFFFF, 0, 0, 0, 0x8241, 0, .single⟩,
  ⟨0x4, 1, 0, 0x7FFFFFF, 0, 0, 0, 0x2625A0, 0, .single⟩,
  ⟨0x8, 1, 0, 0, 0xF, 0, 0, 0, 0, .single⟩,
  ⟨0x10, 5, 0, 0, 0, 0xFFFFFFFF, 0, 0, 0, .single⟩,
  ⟨0x24, 1, 0, 0, 0, 0xFFFFFFFF, 0, 0, 0, .single⟩,
  ⟨0x28, 1, 0, 0, 0, 0xFFFFFFFF, 0, 0, 0, .single⟩,
  ⟨0x40, 1, 0, 0xFFF, 0, 0, 0, 0, 0xFFF, .single⟩,
  ⟨0x44, 1, 0, 0xFFFFFFFF, 0, 0, 0, 0, 0xFFFFFFFF, .valLo⟩,
  ⟨0x48, 1, 0, 0xFFFFFFFF, 0, 0, 0, 0, 0xFFFFFFFF, .valHi⟩,
  ⟨0x4C, 1, 0, 0xFFFFFFFF, 0, 0, 0, 0, 0xFFFFFFFF, .mapLo⟩,
  ⟨0x50, 1, 0, 0xFFFFFFFF, 0, 0, 0, 0, 0xFFFFFFFF, .mapHi⟩,
  ⟨0x54, 1, 0, 0, 0, 0xFFFFFFFF, 0, 0, 0, .single⟩,
  ⟨0x58, 1, 0, 0, 0, 0xFFFFFFFF, 0, 0, 0, .single⟩,
  ⟨0x40000, 1, 0, 0xFFFFFF, 0, 0, 0, 0x3D090, 0, .single⟩,
  ⟨0x40004, 1, 0, 0xFFFFFFFF, 0, 0, 0, 0, 0xFFFFFFFF, .mapLo⟩,
  ⟨0x40008, 1, 0, 0xFFFFFFFF, 0, 0, 0, 0, 0xFFFFFFFF, .mapHi⟩,
  ⟨0x40010, 4, 0, 0xBFBFBFBF, 0, 0, 0, 0, 0xBFBFBFBF, .single⟩,
  ⟨0x40020, 1, 0, 0xFFFFFFFF, 0, 0, 0, 0, 0xFFFFFFFF, .valLo⟩,
  ⟨0x40024, 1, 0, 0xFF, 0, 0, 0, 0, 0xFF, .valHi⟩,
  ⟨0x40028, 1, 0, 0xFFFF, 0, 0, 0, 0, 0xFFFF, .single⟩,
  ⟨0x40030, 1, 0, 0, 0x7F, 0, 0, 0, 0, .single⟩,
  ⟨0x40034, 1, 0, 0, 0, 0, 0xFFFFF, 0, 0, .single⟩,
  ⟨0x40040, 1, 0, 0, 0, 0xFFFFFFFF, 0, 0, 0, .single⟩,
  ⟨0x40044, 1, 0, 0, 0, 0xFFFFFFFF, 0, 0, 0, .single⟩]

/-- The registers of CRS, part 2. -/
def crsRowsB : List RegRow := [
  ⟨0x40048, 1, 0, 0, 0, 0xFFFFFFFF, 0, 0, 0, .single⟩,
  ⟨0x4004C, 1, 0, 0, 0, 0xFFFFFFFF, 0, 0, 0, .single⟩,
  ⟨0x40050, 1, 0, 0, 0, 0xFFFFFFFF, 0, 0, 0, .single⟩,
  ⟨0x40054, 1, 0, 0, 0, 0xFFFFFFFF, 0, 0, 0, .single⟩,
  ⟨0x40100, 64, 0, 0xFFFF, 0, 0, 0, 0, 0xFFFF, .single⟩,
  ⟨0x48000, 8192, 0, 0, 0, 0, 0, 0, 0, .single⟩,
  ⟨0x50000, 1, 0, 0xFFFFFFFF, 0, 0, 0, 0, 0xFFFFFFFF, .valLo⟩,
  ⟨0x50004, 1, 0, 0xFF, 0, 0, 0, 0, 0xFF, .valHi⟩,
  ⟨0x50008, 1, 0, 0, 0, 0xFFFFFFFF, 0, 0, 0, .single⟩,
  ⟨0x50100, 1, 0, 0x7F, 0, 0, 0, 0, 0x7F, .single⟩,
  ⟨0x50104, 1, 0, 0xFFFFFFFF, 0, 0, 0, 0, 0xFFFFFFFF, .valLo⟩,
  ⟨0x50108, 1, 0, 0xFFFFFFFF, 0, 0, 0, 0, 0xFFFFFFFF, .valHi⟩,
  ⟨0x5010C, 1, 0, 0xFFFFFFFF, 0, 0, 0, 0, 0xFFFFFFFF, .valLo⟩,
  ⟨0x50110, 1, 0, 0xFF, 0, 0, 0, 0, 0xFF, .valHi⟩,
  ⟨0x50114, 1, 0, 0xFFFF, 0, 0, 0, 0, 0xFFFF, .single⟩,
  ⟨0x50118, 1, 0, 0, 0, 0xFFFFFFFF, 0, 0, 0, .single⟩,
  ⟨0x5011C, 1, 0, 0, 0, 0xFFFFFFFF, 0, 0, 0, .single⟩,
  ⟨0x50120, 1, 0, 0, 0, 0xFFFFFFFF, 0, 0, 0, .single⟩,
  ⟨0x50124, 1, 0, 0, 0, 0xFFFFFFFF, 0, 0, 0, .single⟩,
  ⟨0x50128, 1, 0, 0, 0, 0, 0, 0, 0, .single⟩,
  ⟨0x50140, 16, 0, 0x7FFFFF, 0, 0, 0, 0, 0x7FFFFF, .single⟩,
  ⟨0x60000, 1, 0, 0xFFFFFFFF, 0, 0, 0, 0, 0xFFFFFFFF, .valLo⟩,
  ⟨0x60004, 1, 0, 0xFF, 0, 0, 0, 0, 0xFF, .valHi⟩,
  ⟨0x60008, 1, 0, 0xFFFFFFFF, 0, 0, 0, 0, 0xFFFFFFFF, .valLo⟩]

/-- The registers of CRS, part 3. -/
def crsRowsC : List RegRow := [
  ⟨0x6000C, 1, 0, 0xFF, 0, 0, 0, 0, 0xFF, .valHi⟩,
  ⟨0x60010, 1, 0, 0, 0x1F, 0, 0, 0, 0, .single⟩,
  ⟨0x60014, 1, 0, 0, 0, 0xFFFFFFFF, 0, 0, 0, .single⟩,
  ⟨0x60018, 1, 0, 0, 0, 0xFFFFFFFF, 0, 0, 0, .single⟩,
  ⟨0x61000, 1024, 0, 0x80003FFF, 0, 0, 0, 0, 0x80003FFF, .single⟩,
  ⟨0x70000, 1, 0, 0xFFFFFFFF, 0, 0, 0, 0, 0xFFFFFFFF, .valLo⟩,
  ⟨0x70004, 1, 0, 0xFF, 0, 0, 0, 0, 0xFF, .valHi⟩,
  ⟨0x80000, 65536, 0, 0x7FFB, 0, 0, 0, 0, 0x7FFB, .single⟩,
  ⟨0xC0000, 1, 0, 0, 0, 0xFFFFFFFF, 0, 0, 0, .single⟩,
  ⟨0xC0004, 1, 0, 0x3F, 0, 0, 0, 0, 0x3F, .single⟩,
  ⟨0xC0008, 1, 0, 0xFFFFFFFF, 0, 0, 0, 0, 0xFFFFFFFF, .valLo⟩,
  ⟨0xC000C, 1, 0, 0xFF, 0, 0, 0, 0, 0xFF, .valHi⟩,
  ⟨0xC0010, 1, 0, 0xFFFFFF, 0, 0, 0, 0, 0xFFFFFF, .single⟩,
  ⟨0xC0014, 1, 0, 0, 0, 0xFFFFFFFF, 0, 0, 0, .single⟩,
  ⟨0xC0100, 16, 0, 0xFBF, 0, 0, 0, 0, 0xFBF, .single⟩,
  ⟨0xC0140, 32, 0, 0x1FBF, 0, 0, 0, 0, 0x1FBF, .single⟩,
  ⟨0xC1000, 512, 0, 0xFFFFFFFF, 0, 0, 0, 0, 0xFFFFFFFF, .single⟩,
  ⟨0xC4000, 4096, 0, 0x3FF, 0, 0, 0, 0, 0x3FF, .single⟩]

/-- The registers of CRS. -/
def crsRows : List RegRow := crsRowsA ++ crsRowsB ++ crsRowsC

/-- The registers of MEM. -/
def memRows : List RegRow := [
  ⟨0, 1, 0, 0, 0, 0, 0, 0x4800, 0, .single⟩,
  ⟨0x4, 1, 0, 0, 0, 0, 0, 0, 0x7F, .single⟩,
  ⟨0x8, 1, 0, 0, 0xF, 0, 0, 0, 0, .single⟩,
  ⟨0xC, 1, 0, 0x77777777, 0, 0, 0, 0x44444444, 0, .valLo⟩,
  ⟨0x10, 1, 0, 0x777, 0, 0, 0, 0x162, 0, .valHi⟩,
  ⟨0x14, 1, 0xFFFF, 0, 0, 0, 0, 0x40, 0, .single⟩,
  ⟨0x18, 1, 0xFFFF0001, 0, 0, 0, 0, 0xDA40001, 0, .single⟩,
  ⟨0x1C, 1, 0, 0, 0, 0, 0, 0, 0, .single⟩,
  ⟨0x20, 1, 0, 0, 0, 0xFFFFFFFF, 0, 0, 0, .single⟩,
  ⟨0x24, 1, 0, 0, 0, 0xFFFFFFFF, 0, 0, 0, .single⟩,
  ⟨0x28, 1, 0, 0, 0, 0, 0, 0, 0, .valLo⟩,
  ⟨0x2C, 1, 0, 0, 0, 0, 0, 0, 0, .valHi⟩,
  ⟨0x30, 1, 0, 0, 0, 0xFFFFFFFF, 0, 0, 0, .single⟩,
  ⟨0x34, 1, 0, 0, 0, 0, 0, 0, 0, .single⟩,
  ⟨0x40, 11, 0, 0, 0, 0xFFFFFFFF, 0, 0, 0, .single⟩,
  ⟨0x80, 11, 0, 0, 0, 0xFFFFFFFF, 0, 0, 0, .single⟩]

/-- The registers of STN, part 1. -/
def stnRowsA : List RegRow := [
  ⟨0, 1, 0, 0, 0, 0, 0, 0, 0, .single⟩,
  ⟨0x4, 1, 0, 0x3, 0, 0, 0, 0, 0x3, .single⟩,
  ⟨0x8, 1, 0x1, 0, 0, 0, 0x6, 0, 0, .single⟩,
  ⟨0xC, 1, 0, 0, 0, 0, 0, 0x4, 0, .single⟩,
  ⟨0x10, 1, 0, 0, 0, 0, 0, 0, 0, .single⟩,
  ⟨0x14, 1, 0, 0, 0, 0xFFFFFFFF, 0, 0, 0, .single⟩,
  ⟨0x18, 1, 0, 0, 0, 0xFFFFFFFF, 0, 0, 0, .single⟩,
  ⟨0x1C, 1, 0, 0, 0, 0xFFFFFFFF, 0, 0, 0, .single⟩,
  ⟨0x20, 1, 0, 0x1FFF, 0, 0, 0, 0, 0x1FFF, .single⟩,
  ⟨0x24, 1, 0, 0x7FF, 0, 0, 0, 0, 0x7FF, .single⟩,
  ⟨0x28, 1, 0xFFFFFFFF, 0, 0, 0, 0, 0x10000, 0, .single⟩,
  ⟨0x2C, 1, 0x1, 0, 0, 0, 0, 0, 0, .single⟩,
  ⟨0x30, 1, 0, 0, 0, 0xFFFFFFFF, 0, 0, 0, .single⟩,
  ⟨0x34, 1, 0, 0, 0, 0, 0, 0, 0, .single⟩,
  ⟨0x38, 1, 0, 0, 0, 0, 0, 0, 0, .single⟩,
  ⟨0x3C, 1, 0, 0, 0, 0, 0, 0, 0, .single⟩,
  ⟨0x40, 1, 0, 0, 0, 0, 0, 0, 0, .single⟩,
  ⟨0x44, 1, 0, 0, 0, 0, 0, 0, 0, .single⟩,
  ⟨0x48, 1, 0, 0xFF, 0, 0, 0, 0, 0xFF, .single⟩,
  ⟨0x4C, 1, 0x1, 0, 0, 0, 0, 0, 0, .single⟩,
  ⟨0x50, 1, 0x1F00, 0x1, 0, 0, 0, 0, 0x1, .single⟩,
  ⟨0x54, 1, 0, 0, 0x1F, 0, 0, 0, 0, .single⟩,
  ⟨0x60, 1, 0, 0, 0, 0, 0, 0, 0, .single⟩,
  ⟨0x64, 1, 0, 0, 0, 0, 0, 0, 0, .single⟩]

/-- The registers of STN, part 2. -/
def stnRowsB : List RegRow := [
  ⟨0x68, 1, 0, 0, 0, 0, 0, 0, 0, .single⟩,
  ⟨0x6C, 1, 0, 0, 0, 0xFFFFFFFF, 0, 0, 0, .single⟩,
  ⟨0x70, 1, 0, 0, 0, 0xFFFFFFFF, 0, 0, 0, .single⟩,
  ⟨0x74, 1, 0, 0x7FF000, 0, 0, 0, 0, 0x7FF000, .single⟩,
  ⟨0x78, 1, 0, 0, 0, 0xFFFFFFFF, 0, 0, 0, .single⟩,
  ⟨0x7C, 1, 0, 0, 0, 0xFFFFFFFF, 0, 0, 0, .single⟩,
  ⟨0x80, 5, 0, 0xFFFF, 0, 0, 0, 0, 0xFFFF, .single⟩,
  ⟨0xA0, 5, 0, 0, 0, 0, 0, 0, 0, .single⟩,
  ⟨0xC0, 5, 0xFFFF, 0, 0, 0, 0, 0xFFFF, 0, .single⟩,
  ⟨0xE0, 6, 0, 0x3FF03FF, 0, 0, 0, 0, 0x3FF03FF, .single⟩,
  ⟨0x100, 1, 0, 0xFF, 0, 0, 0, 0, 0xFF, .single⟩,
  ⟨0x104, 1, 0, 0xFF, 0, 0, 0, 0, 0xFF, .single⟩,
  ⟨0x108, 1, 0, 0, 0, 0, 0, 0, 0, .single⟩,
  ⟨0x10C, 1, 0, 0, 0, 0xFFFFFFFF, 0, 0, 0, .single⟩,
  ⟨0x110, 1, 0, 0, 0, 0xFFFFFFFF, 0, 0, 0, .single⟩,
  ⟨0x114, 1, 0, 0, 0, 0xFFFFFFFF, 0, 0, 0, .single⟩,
  ⟨0x118, 1, 0, 0, 0, 0, 0, 0, 0, .single⟩,
  ⟨0x11C, 1, 0x1, 0, 0, 0, 0, 0x1, 0, .single⟩,
  ⟨0x30000, 1, 0, 0, 0, 0, 0, 0, 0, .single⟩,
  ⟨0x30004, 1, 0, 0, 0, 0, 0, 0, 0, .single⟩,
  ⟨0x30008, 1, 0, 0, 0, 0, 0xFFFFFFFF, 0, 0, .single⟩,
  ⟨0x3000C, 1, 0, 0, 0, 0, 0xFFFFFFFF, 0, 0, .single⟩,
  ⟨0x30010, 1, 0, 0, 0, 0, 0, 0, 0, .single⟩,
  ⟨0x30014, 1, 0, 0, 0, 0, 0, 0, 0, .single⟩]

/-- The registers of STN, part 3. -/
def stnRowsC : List RegRow := [
  ⟨0x30100, 1, 0x1F, 0, 0, 0, 0x100, 0, 0, .single⟩,
  ⟨0x30104, 1, 0, 0, 0, 0, 0, 0, 0, .single⟩,
  ⟨0x30108, 1, 0xFFFFFFFF, 0, 0, 0, 0, 0, 0, .valLo⟩,
  ⟨0x3010C, 1, 0xFFFFFFFF, 0, 0, 0, 0, 0, 0, .valHi⟩,
  ⟨0x30110, 1, 0, 0, 0, 0, 0, 0, 0, .valLo⟩,
  ⟨0x30114, 1, 0, 0, 0, 0, 0, 0, 0, .valHi⟩,
  ⟨0x30118, 1, 0, 0, 0, 0, 0, 0, 0, .valLo⟩,
  ⟨0x3011C, 1, 0, 0, 0, 0, 0, 0, 0, .valHi⟩,
  ⟨0x30120, 1, 0, 0, 0, 0, 0, 0, 0, .single⟩,
  ⟨0x30124, 1, 0, 0, 0, 0, 0, 0, 0, .valLo⟩,
  ⟨0x30128, 1, 0, 0, 0, 0, 0, 0, 0, .valHi⟩,
  ⟨0x3012C, 1, 0x1FFF3FF, 0, 0, 0, 0, 0, 0, .single⟩,
  ⟨0x30130, 1, 0, 0, 0, 0, 0, 0, 0, .single⟩,
  ⟨0x30134, 1, 0, 0, 0, 0, 0, 0, 0, .single⟩,
  ⟨0x30180, 32, 0, 0, 0, 0, 0, 0, 0, .single⟩]

/-- The registers of STN. -/
def stnRows : List RegRow := stnRowsA ++ stnRowsB ++ stnRowsC

/-- The registers of PRT, part 1. -/
def prtRowsA : List RegRow := [
  ⟨0, 1, 0, 0x13, 0, 0, 0, 0, 0x1F, .single⟩,
  ⟨0x4, 1, 0, 0, 0, 0, 0, 0, 0, .single⟩,
  ⟨0x8, 1, 0, 0xFFFF, 0, 0, 0, 0, 0xFFFF, .single⟩,
  ⟨0xC, 1, 0, 0xFFFFFFFF, 0, 0, 0, 0, 0xFFFFFFFF, .valLo⟩,
  ⟨0x10, 1, 0, 0xFFFF, 0, 0, 0, 0, 0xFFFF, .valHi⟩,
  ⟨0x14, 1, 0, 0xFFF, 0, 0, 0, 0, 0xFFF, .single⟩,
  ⟨0x18, 1, 0, 0xFFFFFF, 0, 0, 0, 0, 0xFFFFFF, .single⟩,
  ⟨0x1C, 1, 0xFFFF, 0, 0, 0, 0, 0, 0, .single⟩,
  ⟨0x20, 1, 0, 0xFF, 0, 0, 0, 0x14, 0, .single⟩,
  ⟨0x24, 5, 0, 0xFFFFFFFF, 0, 0, 0, 0, 0, .single⟩,
  ⟨0x40, 1, 0, 0, 0, 0, 0, 0, 0, .single⟩,
  ⟨0x44, 1, 0x1FF01FF, 0, 0, 0, 0, 0, 0, .single⟩,
  ⟨0x48, 1, 0, 0xFFFFFFFF, 0, 0, 0, 0, 0, .valLo⟩,
  ⟨0x4C, 1, 0, 0xFFFFFFFF, 0, 0, 0, 0, 0, .valHi⟩,
  ⟨0x50, 1, 0, 0x1, 0, 0, 0, 0, 0, .single⟩,
  ⟨0x60, 5, 0, 0, 0, 0xFFFFFFFF, 0, 0, 0, .single⟩,
  ⟨0x80, 1, 0, 0, 0, 0xFFFFFFFF, 0, 0, 0, .single⟩,
  ⟨0x84, 1, 0, 0, 0, 0xFFFFFFFF, 0, 0, 0, .single⟩,
  ⟨0x88, 1, 0, 0, 0, 0xFFFFFFFF, 0, 0, 0, .single⟩,
  ⟨0x8C, 1, 0, 0, 0, 0xFFFFFFFF, 0, 0, 0, .single⟩,
  ⟨0x90, 1, 0, 0, 0, 0xFFFFFFFF, 0, 0, 0, .single⟩,
  ⟨0x94, 1, 0, 0, 0, 0xFFFFFFFF, 0, 0, 0, .single⟩,
  ⟨0x98, 1, 0x1, 0, 0, 0, 0, 0, 0, .single⟩,
  ⟨0x1000, 256, 0x3FFFFFFF, 0, 0, 0, 0, 0, 0, .single⟩]

/-- The registers of PRT, part 2. -/
def prtRowsB : List RegRow := [
  ⟨0x1800, 256, 0x3FFFFFFF, 0, 0, 0, 0, 0, 0, .single⟩]

/-- The registers of PRT. -/
def prtRows : List RegRow := prtRowsA ++ prtRowsB

/-! ### Lookup -/

/-- The row of a block's table that holds offset `off`. -/
def findRow (rows : List RegRow) (off : Nat) : Option RegRow :=
  rows.find? (fun r => decide (r.lo ≤ off ∧ off < r.lo + 4 * r.n))

/-- The row of the register at a BAR0 address, with the index within a repeated block and the offset within the
instance (R8, R436); none where no register lies (R9). -/
def regRow (a : Nat) : Option RegRow :=
  if a % 4 ≠ 0 then none
  else if a < 0x10000 then findRow glbRows a
  else if a < 0x20000 then findRow htRows (a - 0x10000)
  else if a < 0x30000 then findRow txnRows (a - 0x20000)
  else if a < 0x40000 then findRow catRows (a - 0x30000)
  else if a < 0x50000 then findRow curRows (a - 0x40000)
  else if a < 0x60000 then findRow pwrRows (a - 0x50000)
  else if a < 0x70000 then findRow pltRows (a - 0x60000)
  else if a < 0x80000 then findRow accRows (a - 0x70000)
  else if a < 0x100000 then none
  else if a < 0x200000 then findRow crsRows (a - 0x100000)
  else if a < 0x300000 then findRow memRows ((a - 0x200000) % 0x20000)
  else if a < 0x1000000 then none
  else if a < 0x2000000 then findRow stnRows ((a - 0x1000000) % 0x40000)
  else if a < 0x2800000 then findRow prtRows ((a - 0x2000000) % 0x10000)
  else none

/-- The value of a stored register that nothing has written: its reset value (R12); each Vector Control word of the
MSI-X table resets to 1 (R434). -/
@[irreducible] def regReset (a : Nat) : Word :=
  if 0x4000 ≤ a ∧ a < 0x5000 then (if a % 16 = 12 then 1 else 0)
  else match regRow a with
    | some r => r.reset
    | none => 0

end Sys2Proof.Machine
end

