-- ==== Sys2Proof/Machine/Cells.lean ====
section
/-! DEFINITION. Sparse data by address: a list of (address, value) pairs in one canonical form, addresses strictly
rising and no entry equal to what an unlisted address reads as. Memories hold bytes this way, the register file
32-bit words, the accumulators their elements. What an unlisted address reads as is an argument, never state. -/

namespace Sys2Proof.Machine

/-- Sparse data: (address, value) pairs. -/
abbrev Cells (α : Type) := List (Nat × α)

/-- The value at address `k`, where an unlisted address reads as `d k`. -/
def Cells.get {α : Type} (d : Nat → α) : Cells α → Nat → α
  | [], k => d k
  | (a, v) :: r, k => if a = k then v else Cells.get d r k

/-- The pairs without any entry for `k`. -/
def Cells.erase {α : Type} : Cells α → Nat → Cells α
  | [], _ => []
  | (a, v) :: r, k => if a = k then Cells.erase r k else (a, v) :: Cells.erase r k

/-- `(k, v)` put before the first larger address. -/
def Cells.put {α : Type} : Cells α → Nat → α → Cells α
  | [], k, v => [(k, v)]
  | (a, w) :: r, k, v => if k < a then (k, v) :: (a, w) :: r else (a, w) :: Cells.put r k v

/-- The data with `v` at `k`; writing what an unlisted address reads as removes the entry. -/
@[irreducible] def Cells.set {α : Type} [DecidableEq α] (d : Nat → α) (m : Cells α) (k : Nat) (v : α) : Cells α :=
  if v = d k then Cells.erase m k else Cells.put (Cells.erase m k) k v

/-- The entry at address `k`, if any. -/
def Cells.look {α : Type} : Cells α → Nat → Option α
  | [], _ => none
  | (a, v) :: r, k => if a = k then some v else Cells.look r k

/-- The data with the entry `(k, v)` in place of any at `k`. -/
def Cells.ins {α : Type} (m : Cells α) (k : Nat) (v : α) : Cells α := Cells.put (Cells.erase m k) k v

/-- The canonical form: addresses strictly rising above `lo` and no default entry. -/
def Cells.wfFrom {α : Type} [DecidableEq α] (d : Nat → α) : Option Nat → Cells α → Bool
  | _, [] => true
  | lo, (a, v) :: r => (match lo with | none => true | some l => decide (l < a)) && decide (v ≠ d a) &&
      Cells.wfFrom d (some a) r

/-- The canonical form of sparse data. -/
def Cells.wf {α : Type} [DecidableEq α] (d : Nat → α) (m : Cells α) : Bool := Cells.wfFrom d none m

/-- `n` consecutive values from `k`. -/
def Cells.read {α : Type} (d : Nat → α) (m : Cells α) : Nat → Nat → List α
  | _, 0 => []
  | k, n + 1 => Cells.get d m k :: Cells.read d m (k + 1) n

/-- Consecutive values written from `k` on. -/
def Cells.write {α : Type} [DecidableEq α] (d : Nat → α) : Cells α → Nat → List α → Cells α
  | m, _, [] => m
  | m, k, v :: vs => Cells.write d (Cells.set d m k v) (k + 1) vs

end Sys2Proof.Machine
end

