-- ==== Sys2Proof/Machine/State.lean ====
section
/-! DEFINITION. The state of the block as plain data: every register, FIFO, buffer, counter, mode and pin the spec
gives the CD9, the queue of waiting commands, the log of what the device has sent, and State.reset. -/

namespace Sys2Proof.Machine

open Sys2Proof

/-- Why the machine stops with a fault: the spec gives every command an effect, so that there is no such reason and
no command of the table ends in a fault. -/
inductive Fault where
  deriving DecidableEq, Repr

/-- Why a command has no meaning. -/
inductive Refusal where
  /-- Answered by the dispatch for a command that has no meaning yet. Safe. -/
  | notModelled (mnemonic : String)
  deriving DecidableEq, Repr

/-! ### Frames -/

/-- A tile header: eight 32-bit words (R51). -/
structure TH where
  w0 : Word
  w1 : Word
  w2 : Word
  w3 : Word
  w4 : Word
  w5 : Word
  w6 : Word
  w7 : Word
  deriving DecidableEq, Repr

/-- The header of eight zero words. -/
def TH.zero : TH := ⟨0, 0, 0, 0, 0, 0, 0, 0⟩

/-- The header that follows the Carade header of a frame (R310). -/
inductive XHdr where
  | none
  | bh (words : List Word)
  | sh (words : List Word)
  deriving DecidableEq, Repr

/-- A frame as it travels whole (R48, R310): class, escape hop, multicast mark, destination rank, header, tile
header and payload with sidecar. -/
structure Wire where
  tc   : TClass
  esc  : Nat
  mc   : Bool
  dst  : Nat
  xh   : XHdr
  th   : Option TH
  data : List Byte
  deriving DecidableEq, Repr

/-- A frame inside a station (R48): its header, and the block of Cloakroom pool 2 that holds payload and sidecar;
none for a header-only frame. -/
structure Tile where
  th  : TH
  blk : Option Nat
  deriving DecidableEq, Repr

/-! ### Faults and the Catalogue -/

/-- The error classes (Table 16.1). -/
inductive Cls where
  | noted
  | recovered
  | fenced
  | fatal
  deriving DecidableEq, Repr

/-- The fault families (Table 16.4). -/
inductive Fam where
  | lnk | stn | mem | num | spa | exp | red | tim | pwr | thm | cfg | sec | plt | crs
  deriving DecidableEq, Repr

/-- A fault code FAM-nn. -/
structure Code where
  fam : Fam
  num : Nat
  deriving DecidableEq, Repr

/-- The unit kinds (Table 16.5). -/
inductive UnitKind where
  | device | station | port | link | stack | engine | curator | pin
  deriving DecidableEq, Repr

/-- A unit: its kind, its index and, when it belongs to another device, that device's hall rank (R404). -/
structure UnitId where
  kind   : UnitKind
  index  : Nat
  remote : Option Nat
  deriving DecidableEq, Repr

/-- An event (R402): what the device captures at the raise. `eid` numbers the events; `parent` is the event that
opened the handling window open at the raise (R408) with its class. -/
structure Event where
  eid     : Nat
  ht      : DWord
  code    : Code
  cls     : Cls
  unit    : UnitId
  step    : Word
  temp    : Byte
  tempMax : Byte
  load    : BitVec 16
  detail  : List Word
  parent  : Option (Nat × Cls)
  deriving DecidableEq, Repr

/-- A Catalogue record of the tail (R404, R406, R407): its sixteen words, its collapse key, whether it is open, and
whether the DRAM ring holds it. -/
structure CatRec where
  seq    : Word
  words  : List Word
  code   : Code
  cls    : Cls
  unit   : UnitId
  epoch  : Nat
  parent : Option Nat
  opener : Nat
  isOpen : Bool
  follow : Bool
  inRing : Bool
  deriving DecidableEq, Repr

/-- A handling window (R408): the unit, the event that opened it, its class, the tick, the code. -/
structure Window where
  unit : UnitId
  eid  : Nat
  cls  : Cls
  code : Code
  deriving DecidableEq, Repr

/-- A copy to flash under way or pending (R412): its trigger, whether it came in a freeze, its code word, whether
CAT_FLUSH asked for it; HT, CAT_FROZEN_CNT and CAT_HEAD at its start. -/
structure CatCopy where
  trigger  : Word
  frozen   : Bool
  codeword : Word
  flush    : Bool
  ht       : DWord
  count    : Word
  head     : Word
  deriving DecidableEq, Repr

/-- The Catalogue (R402 to R419): the event queue and the Fenced and Fatal events ahead of it, the tail, the next SEQ,
the event count, the SEQ of the record of each recent event, the handling windows, what has been raised in the step,
CAT_WINDOW, the start of a freeze, whether the next record carries FROZEN_GAP, the copies to flash and the next slot,
corrected codewords not yet scored, each station's last NUM-03 events, FLT_N for Fenced and Fatal faults. -/
structure Cat where
  queue     : List Event
  urgent    : List Event
  recs      : List CatRec
  next      : Word
  eid       : Nat
  eidSeq    : Cells Word
  windows   : List Window
  raised    : List (Code × UnitId × Nat)
  window    : List Word
  freezeAt  : Option DWord
  gap       : Bool
  copying   : Option CatCopy
  waiting   : Option CatCopy
  slot      : Nat
  fecRest   : Cells Nat
  fecNow    : Cells Nat
  num03     : Cells (List (Byte × Nat))
  fltFenced : Bool
  fltFatal  : Bool
  deriving DecidableEq, Repr

/-! ### Stations -/

/-- STN_STATUS.STATE (Table 2.13). -/
inductive StnState where
  | idle
  | running
  | halted
  | fenced
  deriving DecidableEq, Repr

/-- What a stream waits on (Table 3.16); the object is a queue or flag number. -/
inductive WaitKind where
  | none | queueEmpty | queueFull | flag | crossing | bcopySlot | tileBlock | stepEnd | lupinQueue | htwait
  deriving DecidableEq, Repr

/-- The access stream (R80): pc, G and H registers, its wait with its object, the step recorded at its step-end
point (R103). -/
structure AsState where
  pc      : Nat
  g       : Vector DWord 16
  h       : Vector TH 8
  wait    : WaitKind
  obj     : Nat
  stepRec : Option Word
  deriving DecidableEq, Repr

/-- The mode of a Dahlia accumulator between two dclr (R130). -/
inductive AccMode where
  | free
  | fp32
  | int32
  deriving DecidableEq, Repr

/-- A Dahlia accumulator: mode and 64 x 64 elements of 32 bits by 64 x row + column (R93). -/
structure Acc where
  mode : AccMode
  v    : Cells Word
  deriving DecidableEq, Repr

/-- One column of an exact-sum accumulator (R137): A and the special bits PI, NI, NN. -/
structure EaCol where
  a  : Int
  pi : Bool
  ni : Bool
  nn : Bool
  deriving DecidableEq, Repr

/-- What a result does when it lands (R97): a tile into a T register with the running maximum of cvt, a scalar, an
accumulator, an exact-sum accumulator, one TH word, the frame a pop took, an emptied register; nothing, where a later op
on the same accumulator has landed before it. -/
inductive Result where
  | tile (td : Fin 16) (th : TH) (blk : Nat) (bytes : List Byte) (x31 : Option Word)
  | tile2 (td : Fin 16) (th : TH) (blk : Nat) (bytes : List Byte) (th2 : TH) (blk2 : Nat) (bytes2 : List Byte)
  | x (xd : Fin 32) (v : Word)
  | acc (i : Fin 4) (a : Acc)
  | ea (i : Fin 4) (c : List EaCol)
  | thWord (td : Fin 16) (w : Fin 8) (v : Word)
  | frame (td : Fin 16) (t : Tile)
  | empty (td : Fin 16)
  | superseded
  deriving DecidableEq, Repr

/-- A pending result: the issue cycle at whose end it lands, its order of issue, the slot, what it does, the flags
it sets in STN_NUM_FLAGS (R125), the header named by a NUM-01 (R145), and the records it adds to STN_PHX_RECS and
STN_PHX_KEPT (R275). -/
structure Pend where
  land  : Nat
  order : Nat
  slot  : Nat
  res   : Result
  flags : BitVec 5
  th    : TH
  recs  : Nat
  kept  : Nat
  deriving DecidableEq, Repr

/-- The execute stream (R93, R97, R98): pc, registers as landed, `accNext` and `eaNext` with every issued op applied (R96), its
wait, recorded step, the next issue cycle, the cycles left of a c.idle that runs and whether RUN = 0 waits for its end (R73),
the tile blocks at hand of a bundle that waits for more (R93, R297), pending results, per engine D, A, Z, P the first cycle
that accepts an op and whether an op is held (D, A). -/
structure XsState where
  pc      : Nat
  x       : Vector Word 32
  t       : Vector (Option Tile) 16
  acc     : Vector Acc 4
  accNext : Vector Acc 4
  ea      : Vector (List EaCol) 4
  eaNext  : Vector (List EaCol) 4
  wait    : WaitKind
  obj     : Nat
  stepRec : Option Word
  ic      : Nat
  idle    : Nat
  stop    : Bool
  got     : List Nat
  order   : Nat
  pend    : List Pend
  freeAt  : Vector Nat 4
  heldTil : Vector Nat 4
  mmTil   : Vector (Option (Fin 4 × Nat)) 4
  deriving DecidableEq, Repr

/-- What an entry of a queue waits for (R77): nothing, the data of a tld or tldp, a frame that is crossing. -/
inductive QFill where
  | ready
  | load (id : Nat)
  | frame (id : Nat)
  deriving DecidableEq, Repr

/-- An entry of Q0 to Q7 (R74, R77): the tile, whose block is reserved at once, and what the entry waits for. -/
structure QEntry where
  tile : Tile
  fill : QFill
  deriving DecidableEq, Repr

/-- An outstanding tld or tldp (R84, R87): its number, the bytes its read took in issue order (none where the read
met an uncorrectable word, whose stack or Vitrine address is kept), and what the instruction gives the header. -/
structure Load where
  id      : Nat
  q       : Fin 8
  payload : Bool
  addr    : DWord
  th      : TH
  blk     : Nat
  head    : List Byte
  body    : List Byte
  extOk   : Bool
  bad     : Option Nat
  deriving DecidableEq, Repr

/-- An outstanding bcopy (R86); `live` is false once the streams have started again. -/
structure Bcopy where
  src  : DWord
  dst  : DWord
  len  : Nat
  fl   : Fin 32
  live : Bool
  deriving DecidableEq, Repr

/-- The cut of a station (R107 to R113): NB, NT, whether it is armed, and whether a write arms it from the next cycle; `due`
is a count reached, so that the station freezes at the end of the freeze cycle: the cycle of the counted event, or with
`toIdle` the last one of the c.idle of the counted bundle. -/
structure Cut where
  nb     : DWord
  nt     : DWord
  armed  : Bool
  arming : Bool
  due    : Bool
  toIdle : Bool
  deriving DecidableEq, Repr

/-- A Lupin job: its queues, mode and descriptor (R233, R235). -/
structure LupJob where
  qi   : Fin 4
  qo   : Fin 8
  mode : Nat
  desc : List Word
  deriving DecidableEq, Repr

/-- A tile that Lupin holds (R234), with its index within the job and its bytes' block. -/
structure LupHeld where
  idx  : Nat
  tile : Tile
  deriving DecidableEq, Repr

/-- A slot of a sparse stream: row, column, value (R241), with NF and FZ of the tile it came from. -/
structure Slot where
  row : Nat
  col : Nat
  val : Nat
  nf  : Bool
  fz  : Bool
  deriving DecidableEq, Repr

/-- A gathered row (R246): its elements' bytes, its scale bytes, NF and FZ of the index tile. -/
structure GRow where
  data : List Byte
  side : List Byte
  nf   : Bool
  fz   : Bool
  deriving DecidableEq, Repr

/-- Lupin (R233 to R249): the job queue, the running job, the input it works on and whether that one faulted, the tiles
it holds, how many inputs and outputs it has seen and given, the first input's header, whether the last input is in, the
position reached in the stream or matrix, slots and rows gathered for output, permute's next output tile with the lowest
input the tile before it named and the newest input named; outputs that wait for their block, with the inputs that stay
held once the last of them is formed; outputs formed and not yet pushed, each with its block. -/
structure Lupin where
  jobs    : List LupJob
  cur     : Option LupJob
  hand    : Option Tile
  stuck   : Bool
  held    : List LupHeld
  nIn     : Nat
  nOut    : Nat
  first   : Option TH
  ended   : Bool
  lastPos : Option (Nat × Nat)
  slots   : List Slot
  rows    : List GRow
  nextU   : Nat
  lowest  : Nat
  newest  : Nat
  todo    : List (TH × List Byte)
  keep    : Option (List Nat)
  outs    : List Tile
  deriving DecidableEq, Repr

/-- What a frame in a VOQ holds at its source station: a block of the ingress region or a header of a pool (R292), or a
Vitrine block. -/
inductive Hold where
  | none
  | ingress (pool : Nat) (hdr : Bool) (port : PortId) (blk : Option Nat)
  | vitrine (blk : Nat)
  deriving DecidableEq, Repr

/-- A frame in a VOQ (R278 to R286): number in order of entry, class, destination station, landing, the frame, what
it holds, entry tick, whether its landing credit is reserved, the block and the ports whose link credit that reservation
took, whether a slot end has counted it, whether the AS sent it, whether it goes elsewhere than to its hop (transit, a
Tally copy), the tick of its diversion (R323). -/
structure VoqFrame where
  id      : Nat
  tc      : TClass
  dst     : StnId
  land    : Landing
  wire    : Wire
  hold    : Hold
  entry   : DWord
  credit  : Bool
  landBlk : Option Nat
  paid    : List PortId
  slipped : Bool
  fromAs  : Bool
  aside   : Bool
  since   : Option DWord
  deriving DecidableEq, Repr

/-- The Cloakroom layout in force (R295): program region in 64 KiB units and the five pool counts. -/
structure Layout where
  prog : Nat
  cnt  : List Nat
  deriving DecidableEq, Repr

/-- Who asks the Cloakroom for a block, in the order in which requests of one tick are served (R297). -/
inductive Asker where
  | xs | lupin | as | landing | reply | wicket | curator
  deriving DecidableEq, Repr

/-- The place of a requester in the order of R297. -/
def Asker.rank : Asker → Nat
  | .xs => 0
  | .lupin => 1
  | .as => 2
  | .landing => 3
  | .reply => 4
  | .wicket => 5
  | .curator => 6

/-- A request for a block that waits (R297): the pool, who asks and for which frame or tile of its, the tick in which the
request was made, the tick in which it was made anew last. -/
structure BlkReq where
  pool : Nat
  who  : Asker
  key  : Nat
  made : DWord
  last : DWord
  deriving DecidableEq, Repr

/-- What has happened at a station in the current cycle: the flags as they stood at its start and those set in it, and
whether the streams started in it (R78, R79, R73); the queues that have accepted a push or allowed a pop (R75); which of
the streams and Lupin have tried to act; the pools that have made an allocation and the blocks freed (R297). -/
structure Cyc where
  flags  : Word
  sets   : Word
  start  : Bool
  pushed : List (Fin 8)
  popped : List (Fin 8)
  didAs  : Bool
  didXs  : Bool
  didLup : Bool
  failed : Bool
  given  : List Nat
  freed  : List (Nat × Nat)
  deriving DecidableEq, Repr

/-- The start of a cycle in which the flags read `f`. -/
def Cyc.of (f : Word) : Cyc :=
  { flags := f, sets := 0, start := false, pushed := [], popped := [], didAs := false, didXs := false, didLup := false, failed := false,
    given := [], freed := [] }

/-- A station: power and release (R383), the release tick of a role change (R452), STATE, the Cloakroom's layout in force and
the blocks in use by pool, Vitrine with its words that have bad bits, the scrub's next line and the lines that it has yet to
write back (R348), ingress blocks in use with the words of the region that have bad bits, program memories, streams, queues,
flags, outstanding loads and bcopies, the watchdog count, the cut, the flags NUM-01 has reported in the step, the halts of the
step, Lupin, the VOQs in order of entry, the reply reservations by tick and block, issue cycles since the last 10 us sample and
the fraction of the last one (R418), what has happened in the current cycle (R75, R79, R297), the requests for blocks that wait
(R297). -/
structure Stn where
  powered  : Bool
  released : Bool
  offTick  : Option DWord
  st       : StnState
  lay      : Layout
  used     : List (List Nat)
  vit      : Cells Byte
  vitBad   : Cells Nat
  scrubAt  : Nat
  vitBack  : List Nat
  ingUsed  : List Nat
  ingBad   : Cells Nat
  asMem    : Cells Byte
  xsMem    : Cells Byte
  as       : AsState
  xs       : XsState
  q        : Vector (List QEntry) 8
  flags    : Word
  loads    : List Load
  loadId   : Nat
  bcopies  : List Bcopy
  wd       : Nat
  cut      : Cut
  numDone  : BitVec 5
  halts    : Nat
  lup      : Lupin
  voq      : List VoqFrame
  resv     : List (DWord × Nat)
  issCnt   : Nat
  issFrac  : Nat
  cyc      : Cyc
  reqs     : List BlkReq
  deriving DecidableEq, Repr

/-! ### Ports -/

/-- Accession states (Table 12.5). -/
inductive AccState where
  | down | training | discovered | admitted | refused | failed
  deriving DecidableEq, Repr

/-- The LLDP neighbour of a port (R317): its data unit and the tick at which its time to live ends. -/
structure Neighbour where
  du    : Lldpdu
  until_ : DWord
  deriving DecidableEq, Repr

/-- A frame that waits at a port for its start: whether its link credit is taken, the tick in which it was diverted or
resent, since a diverted frame leaves from the next gate boundary (R323), and the tick in which it began to wait (R286). -/
structure Egress where
  wire  : Wire
  paid  : Bool
  since : Option DWord
  entry : DWord
  deriving DecidableEq, Repr

/-- A port's Wicket: Accession state, PCS lock, partner identity and LLDP neighbour; the link sequence numbers of both
directions, the outstanding NAK, the ACK that is due, the replay buffer and the replays of each LSEQ (R307); the frames that
wait to start; the frame being assembled from cells, frames ahead of a gap with whether they end in ABORT, and when the gap
began (R306); per ingress pool the link credit at hand, the blocks and headers that frames of the partner hold, the credit that
the partner holds, whether the partner's data credit has started (R312, R320); the epitaph awaited (R309); the tick at which
the active gate bank took over, the tick of an armed takeover, the shapers' buckets, the cycle until which a frame is on the
lanes and its class; what the next TSTAMP echoes, the round trip (R313); the class bits that the bank before the last takeover
held open (R329); when and with which content the last LLDPDU went (R317), when the last Sync went, and the Delay_Resp messages
that wait for their gate: sequence number, time (R318). -/
structure Prt where
  acc      : AccState
  locked   : Bool
  ident    : Option (Word × Word)
  nbr      : Option Neighbour
  txSeq    : BitVec 16
  rxSeq    : BitVec 16
  lastAcc  : Option (BitVec 16)
  nakOut   : Bool
  ackDue   : Bool
  replay   : List (BitVec 16 × Wire)
  replays  : Cells Nat
  egress   : List Egress
  cellBuf  : List Byte
  early    : List (BitVec 16 × Wire × Bool)
  gapAt    : Option DWord
  crBlk    : Vector Nat 6
  crHdr    : Vector Nat 6
  creditOn : Bool
  useBlk   : Vector Nat 6
  useHdr   : Vector Nat 6
  hasBlk   : Vector Nat 6
  hasHdr   : Vector Nat 6
  epitaph  : Bool
  epiAt    : Option DWord
  gateAt   : DWord
  gateDue  : DWord
  tokens   : Vector Int 5
  tokensAt : DWord
  txUntil  : Nat
  txTc     : TClass
  stT3     : DWord
  stT4     : DWord
  rtt      : DWord
  ptpSeq   : BitVec 16
  gateWas  : Nat
  lldpSent : Option (DWord × List Word)
  ptpSent  : Option DWord
  ptpWait  : List (Nat × Nat)
  deriving DecidableEq, Repr

/-! ### The bucket path -/

/-- Bucket entry states (Table 6.3). -/
inductive BState where
  | free | open_ | members | rounds | done | abandoned
  deriving DecidableEq, Repr

/-- A bucket tile that the device holds (R157, R165): its Cloakroom block at the reducing station, or its place in the
staging region, where its payload stands; NF and FZ. -/
structure BTile where
  blk : Option Nat
  stg : Option Nat
  nf  : Bool
  fz  : Bool
  deriving DecidableEq, Repr

/-- One endpoint contribution of a bucket (R151, R158 to R166): its slot, its TILES, the tiles that have arrived by SEQ,
whether one holds a non-finite value, whether R165 excluded it. -/
structure Contr where
  slot   : Nat
  tiles  : Nat
  data   : Cells BTile
  nf     : Bool
  excl   : Bool
  deriving DecidableEq, Repr

/-- One stream from a fabric partner (R155): the round, the sender's rank, its count (0 for ABSENT and for differing
settings), its TILES, the tiles that have arrived by tile index. -/
structure FabStream where
  round  : Nat
  sender : Nat
  count  : Nat
  tiles  : Nat
  data   : Cells BTile
  deriving DecidableEq, Repr

/-- A bucket table entry (R158 to R171): the tag, its state, the settings, D_b and M, the members and the slots that were
discarded, EXCL, NF and the indices at which a member tile held NF (R165), whether the members are settled (M, and the EXCLUDE
scan), the entry count and cnt, the size exchange (count, hmax, next round, rounds sent, notices received), the last stage
done, chunks past the entry stage, per round the next tile to send and the chunks done, the partials held, the streams from
partners, whether RED-06 was raised. -/
structure Bucket where
  step     : Word
  bucket   : Nat
  st       : BState
  wfmt     : Nat
  mean     : Bool
  nfpol    : Bool
  dyn      : Bool
  group    : Nat
  dline    : Nat
  outItin  : Nat
  tiles    : Nat
  deadline : DWord
  m        : Option DWord
  contrs   : List Contr
  disc     : List Nat
  excl     : Bool
  nf       : Bool
  nfTiles  : List Nat
  settled  : Bool
  entryCnt : Nat
  count    : Nat
  sizeCnt  : Nat
  hmax     : Nat
  sizeNext : Nat
  sizeSent : List Nat
  sizes    : List (Nat × Nat × Nat)
  stage    : Nat
  entryCh  : Nat
  bhSent   : List Nat
  sent     : Cells Nat
  roundCh  : Cells Nat
  own      : Cells BTile
  fabs     : List FabStream
  collide  : Bool
  deriving DecidableEq, Repr

/-- A stream of bucket frames that counts no more: its port and tag; `bad` for one discarded under R151 or R166, else a
stray stream for which RED-02 has been raised (R161). -/
structure RedStream where
  port   : PortId
  step   : Word
  bucket : Nat
  bad    : Bool
  deriving DecidableEq, Repr

/-- A partner's stream whose header was discarded as stray (R161, R166): its tag, round, sender and TILES. -/
structure StrayStream where
  step   : Word
  bucket : Nat
  round  : Nat
  sender : Nat
  tiles  : Nat
  deriving DecidableEq, Repr

/-- A sitting segment whose header was discarded (R216): its port, step, tag and origin, and how many of its tiles are
still to be discarded; none where the header does not say. -/
structure BadSeg where
  port   : PortId
  step   : Word
  tag    : Word
  origin : Nat
  left   : Option Nat
  deriving DecidableEq, Repr

/-- What the headers that came here say of a segment (R211, R215): of this device's own, from the grants of its home, or of one
that origin `party` sends to this home; its valid rows and its token tiles for each slice. -/
structure SitSeg where
  step  : Word
  tag   : Word
  own   : Bool
  party : Nat
  count : Nat
  tiles : Nat
  deriving DecidableEq, Repr

/-- What the device knows of the step's sittings: the segments whose header has gone out, by port, destination, step, tag and
origin; the requests that it has sent; and the segments of which it knows the size. -/
structure Sittings where
  sent : List (PortId × Nat × Word × Word × Nat)
  reqs : List (Word × Word)
  segs : List SitSeg
  deriving DecidableEq, Repr

/-- Nothing of a step's sittings is known. -/
def Sittings.zero : Sittings := ⟨[], [], []⟩

/-- A bucket frame that waits in its port's ingress room (R157, R166, R292): the port, the station whose region holds it, its
frame, and what returns. -/
structure RedIn where
  port : PortId
  stn  : StnId
  wire : Wire
  hold : Hold
  deriving DecidableEq, Repr

/-! ### Device-wide parts -/

/-- A register transaction (R368, Table 14.9). -/
inductive TxnState where
  | none | open_ | armed | failed
  deriving DecidableEq, Repr

/-- A requester's transaction: state, shadow entries in order of writing, tick of effect, place in the order of
TXN_COMMIT writes, last error (Table 14.14), TXN_AT with a held _HI half (each requester has its own, R376). -/
structure Txn where
  st      : TxnState
  entries : List (Nat × Word)
  at_     : DWord
  place   : Nat
  err     : Nat
  want    : DWord
  wantHi  : Word
  deriving DecidableEq, Repr

/-- Hall time and the step, beyond their registers (R21 to R40): the TSYNC reference, the slew still to make and the cycle of
the last one, the parents available, the start of a timed holdover, whether and when ALIGNED first became 1, HT in the tick
before this one (R26), the value that an edge of TSYNC gives the next tick (R21), TIM-03 raised, the parade, a warm reset, the
close tick and its overrun, a Stopped wanted by R28, W0 and the tick of stage 4 (R383). -/
structure Clock where
  tsyncRef   : Option DWord
  slewBy     : Int
  lastSlew   : Option Nat
  hasPrimary : Bool
  hasStandby : Bool
  holdSince  : Option DWord
  alignedYet : Bool
  alignedAt  : DWord
  prev       : Option DWord
  load       : Option DWord
  holdDone   : Bool
  parade     : Bool
  warm       : Bool
  closeAt    : Option DWord
  overrun    : Bool
  stopWanted : Bool
  w0         : Option DWord
  stage4At   : Option DWord
  deriving DecidableEq, Repr

/-- A transfer under way (R276, R277): the source, the frame, the last tick in which it occupies its input and output, the
tick in which its last bytes land, and whether it has been delivered: a frame that cuts through to a port is, at its first
bytes. -/
structure Xfer where
  src   : StnId
  fr    : VoqFrame
  until_ : Nat
  lands : Nat
  out : Bool
  deriving DecidableEq, Repr

/-- The Crossing (R276 to R288): transfers under way, the class turn and source pointer of each output, the output
pointer of each input, the source pointer of each landing (of a port, of each class), the number of the next frame, the Tally
copies that wait for their block (R195). -/
structure Xbar where
  xfers   : List Xfer
  outTurn : Cells (Nat × Nat)
  outSrc  : Cells Nat
  inOut   : Cells Nat
  landSrc : List ((Landing × Option TClass) × Nat)
  nextId  : Nat
  taps    : List (StnId × Nat × TH × List Byte)
  deriving DecidableEq, Repr

/-- An entry of the Curator's mirror ring (R294): sixteen header words and the copied bytes. -/
structure Mirror where
  words : List Word
  bytes : List Byte
  deriving DecidableEq, Repr

/-- The mailbox command in progress (R380). -/
structure Mail where
  op   : Nat
  tag  : Nat
  argw : Nat
  done : Option (Nat × List Word)
  deriving DecidableEq, Repr

/-- The Curator (R377 to R390): mailbox, boot, receive and mirror rings, the Cloakroom blocks in which mirror copies of this
tick are staged and the copies that wait for one (R294), the stations' temperatures of the samples taken, the newest first
(R198), the last sample and what the limits, the ladder, the thermal actions and the valve loop remember between samples, the
guard, the supplies and clocks. `quiet` and `fallHold` are the samples of low draw and of waiting of R385; `hotHold` keeps the
ladder up until 97 degrees. -/
structure Cur where
  mail      : Option Mail
  bootAt    : Nat
  relAt     : Nat
  fwCopy    : Nat
  rx        : List Wire
  mirrors   : List Mirror
  mirDrops  : Nat
  staged    : List (StnId × Nat × Nat)
  mirWait   : List (StnId × Nat × Mirror)
  smps      : List (DWord × List Byte)
  smp       : Sample
  sampled   : Bool
  vinGood   : Nat
  peakBins  : List Nat
  peakPart  : Nat
  quiet     : Nat
  fallHold  : Nat
  hotHold   : Bool
  cool      : Vector Nat 8
  throttle  : Vector Nat 8
  hot98     : Vector Nat 8
  hot105    : Nat
  hot110    : Nat
  optDue    : List Word
  moeDue    : List Word
  closed    : Option Word
  talSeen   : Nat
  tp        : Rat
  sumE      : Rat
  drawSum   : Nat
  drawCnt   : Nat
  flowSaid  : Bool
  guard     : Bool
  aux       : Bool
  regOn     : Bool
  clocksOn  : Bool
  engOff    : Vector Bool 16
  trained   : Bool
  deriving DecidableEq, Repr

/-- The source of an image load (Table 14.12). -/
inductive LoadSrc where
  | pcie
  | plinth
  deriving DecidableEq, Repr

/-- An image load in progress (R364): its source, target slot, bytes so far, whether LOAD_END or FRAME low has come
and with which TRY. -/
structure ImgLoad where
  src   : LoadSrc
  slot  : Nat
  bytes : Nat
  ended : Bool
  try_  : Bool
  deriving DecidableEq, Repr

/-- A record of an image that this device's coordinates select (R358): its type, target and payload. -/
structure ImgRec where
  type   : Nat
  target : Nat
  body   : List Byte
  deriving DecidableEq, Repr

/-- Image control: the load in progress, the slot table with the security floor (R356), the running image's G, P,
FLOOR_UP and whether it was tried, the stations the image marks to run, the records still to be applied (R363). -/
structure Img where
  load     : Option ImgLoad
  busy     : Bool
  floor    : Nat
  booted   : Option Nat
  tried    : Bool
  g        : Nat
  p        : Nat
  rootG    : Nat
  rootP    : Nat
  floorUp  : Bool
  secver   : Nat
  ids      : List Word
  marks    : List Nat
  records  : List ImgRec
  window   : Cells Byte
  deriving DecidableEq, Repr

/-- A phase C input (R395): its raw level and the cycle since which it stands, its filtered level, the cycle of that level's
last rise, and the cycle until which chatter holds it. -/
structure Pin where
  raw   : Bool
  since : Nat
  level : Bool
  rise  : Nat
  hush  : Nat
  deriving DecidableEq, Repr

/-- The Plinth and its pins (R390 to R396, R440): the cycle in which phase C began, whether outputs are driven and inputs
read, the three inputs, whether a leak has been acted on, ACK, ERR, the cycle since which a Plinth load signals its pass
(R393), PLT_PHB and PLT_PHC, the ends of the pulses on BEAT and TSYNC. -/
structure Plt where
  phaseC  : Option Nat
  driven  : Bool
  reading : Bool
  hold    : Pin
  leak    : Pin
  flow    : Pin
  leaked  : Bool
  ack     : Bool
  err     : Bool
  passAt  : Option Nat
  phb     : Bool
  phc     : Bool
  beatTil : DWord
  syncTil : DWord
  deriving DecidableEq, Repr

/-- A requester of the Porters (Table 13.4): a station through its station port, the Curator, the PCIe aperture, the
Catalogue persist path. -/
inductive MemUser where
  | station (n : StnId)
  | curator
  | aperture
  | persist
  deriving DecidableEq, Repr

/-- A request for one 64-byte transfer that waits (R338, R339): who made it, a station's number at a station port and a
requester's index at the Porter; its pseudo-channel; the controller cycle in which it was made. -/
structure MemReq where
  by_  : Nat
  chan : Nat
  made : Nat
  deriving DecidableEq, Repr

/-- A lock that is held (R342, R343): the requester, the pseudo-channel, the controller cycle of the first grant. -/
structure MemLock where
  who   : MemUser
  chan  : Nat
  since : Nat
  deriving DecidableEq, Repr

/-- Controller cycles of a pseudo-channel that are taken: those from `start` below `stop`, by a locked sequence or a grant of
the scrub (R339, R342, R347). -/
structure Span where
  chan  : Nat
  start : Nat
  stop  : Nat
  deriving DecidableEq, Repr

/-- A stack (R336 to R348): the scrub's next unit, the stack addresses of the units whose scrub waits behind a lock and of
those that it has yet to write back, the requests at the station ports and at the Porter, the station that each port took
last and the requester that each pseudo-channel granted last, the locks held, the cycles taken, loss of training. -/
structure Stk where
  scrub    : Nat
  late     : List Nat
  back     : List Nat
  merge    : List MemReq
  wait     : List MemReq
  portLast : Cells Nat
  chanLast : Cells Nat
  locks    : List MemLock
  spans  : List Span
  lost     : Bool
  deriving DecidableEq, Repr

/-- The status of a PCI Express completion (Table 17.2). -/
inductive CplStatus where
  | success
  | completerAbort
  | unsupported
  deriving DecidableEq, Repr

/-- What comes before the Carade header of a frame on an Ethernet port (R314, R315): destination and source address, the
VID and PCP of its tag, EtherType. -/
structure EthHdr where
  dst  : BitVec 48
  src  : BitVec 48
  tag  : Option (Nat × Nat)
  type : Nat
  deriving DecidableEq, Repr

/-- What the device sends or shows outside; what it sends on an Ethernet port has what precedes it there (R314, R315). An
EPITAPH with a hall rank `mgt` goes to that device in TC_MGT along the fallback route (R309). -/
inductive Out where
  | read (r : Requester) (addr : Nat) (v : Word)
  | completion (bar : Nat) (status : CplStatus) (bytes : List Byte)
  | msix (v : Nat)
  | ack (p : PortId) (lseq : BitVec 16) (eth : Option EthHdr)
  | nak (p : PortId) (lseq : BitVec 16) (eth : Option EthHdr)
  | credit (p : PortId) (words : List Word) (eth : Option EthHdr)
  | tstamp (p : PortId) (t3 t1 t2 : DWord)
  | identity (p : PortId) (w1 w2 : Word)
  | epitaph (p : PortId) (failed : PortId) (lseq : BitVec 16) (mgt : Option Nat) (eth : Option EthHdr)
  | frame (p : PortId) (lseq : BitVec 16) (w : Wire) (eth : Option EthHdr)
  | lldp (p : PortId) (serial : DWord) (ttl : Nat) (content : List Word) (eth : EthHdr)
  | ptpSync (p : PortId) (domain seq : Nat) (time : Nat) (eth : EthHdr)
  | ptpAnnounce (p : PortId) (domain clockClass : Nat) (eth : EthHdr)
  | ptpDelayResp (p : PortId) (seq : Nat) (time : Nat) (eth : EthHdr)
  | beat
  | tsync
  | poisonedTlp
  | switchedOff
  deriving DecidableEq, Repr

/-- A BAR2 read that awaits its DRAM data (R427): what its read met in its order (R340), none at an uncorrectable word. -/
structure Bar2Rd where
  data : Option (List Byte)
  deriving DecidableEq, Repr

/-- The PCI Express side (R423 to R425): what the link has trained to, the MSI-X enable and function mask, and of Advanced
Error Reporting the uncorrectable error status and mask and the control of the end-to-end CRC. -/
structure Pcie where
  link  : PcieLink
  msix  : Bool
  fmask : Bool
  aer   : Word
  amask : Word
  actl  : Word
  deriving DecidableEq, Repr

/-- What the device did to a register in this tick (R11): its value at the start of the tick, and what a field that was
cleared at the start of the tick would hold now. -/
structure RegEvt where
  was   : Word
  since : Word
  deriving DecidableEq, Repr

/-- The machine: the commands that wait, what has been sent, the free values used (log entry 4), hall time, the cycles
since power, whether HT counts; registers, held halves and captures of pairs (R451), what happened to registers in this
tick (R11); and the units. -/
structure State where
  pending : List Instr
  out     : List Out
  free    : Nat
  ht      : DWord
  cycle   : Nat
  counting : Bool
  regs    : Cells Word
  heldHi  : Cells Word
  capHi   : Cells Word
  evts    : Cells RegEvt
  clk     : Clock
  txnHost : Txn
  txnCur  : Txn
  stn     : Vector Stn 64
  prt     : Vector Prt 128
  stk     : Vector Stk 8
  dram    : Cells Byte
  dramBad : Cells Nat
  bar2    : List Bar2Rd
  pcie    : Pcie
  flash   : Cells Byte
  xbar    : Xbar
  buckets : List (Nat × Bucket)
  redDisc : List RedStream
  redWait : List RedIn
  redStray : List StrayStream
  notices : List ((Word × Nat) × List Word)
  stgUsed : List Nat
  expDisc : List BadSeg
  sit     : Sittings
  cat     : Cat
  cur     : Cur
  img     : Img
  plt     : Plt
  deriving DecidableEq, Repr

/-! ### Reset -/

/-- An exact-sum accumulator after xclr (R137). -/
def eaZero : List EaCol := List.replicate 64 ⟨0, false, false, false⟩

/-- Lupin with no job. -/
def Lupin.reset : Lupin :=
  { jobs := [], cur := none, hand := none, stuck := false, held := [], nIn := 0, nOut := 0, first := none, ended := false,
    lastPos := none, slots := [], rows := [], nextU := 0, lowest := 0, newest := 0, todo := [], keep := none, outs := [] }

/-- The access stream before any start. -/
def AsState.reset : AsState :=
  { pc := 0, g := Vector.replicate 16 0, h := Vector.replicate 8 TH.zero, wait := .none, obj := 0, stepRec := none }

/-- The execute stream before any start. -/
def XsState.reset : XsState :=
  { pc := 0, x := Vector.replicate 32 0, t := Vector.replicate 16 none, acc := Vector.replicate 4 ⟨.free, []⟩,
    accNext := Vector.replicate 4 ⟨.free, []⟩, ea := Vector.replicate 4 eaZero, eaNext := Vector.replicate 4 eaZero,
    wait := .none, obj := 0, stepRec := none, ic := 0, idle := 0, stop := false, got := [], order := 0, pend := [],
    freeAt := Vector.replicate 4 0,
    heldTil := Vector.replicate 4 0, mmTil := Vector.replicate 4 none }

/-- An unpowered station. -/
def Stn.reset : Stn :=
  { powered := false, released := false, offTick := none, st := .idle, lay := ⟨0, [0, 0, 0, 0, 0]⟩,
    used := [[], [], [], [], []], vit := [], vitBad := [], scrubAt := 0, vitBack := [], ingUsed := [], ingBad := [],
    asMem := [], xsMem := [],
    as := AsState.reset, xs := XsState.reset, q := Vector.replicate 8 [], flags := 0, loads := [], loadId := 0,
    bcopies := [], wd := 0, cut := ⟨0, 0, false, false, false, false⟩, numDone := 0, halts := 0, lup := Lupin.reset, voq := [],
    resv := [], issCnt := 0, issFrac := 0, cyc := Cyc.of 0, reqs := [] }

/-- A port in state DOWN. -/
def Prt.reset : Prt :=
  { acc := .down, locked := false, ident := none, nbr := none, txSeq := 0, rxSeq := 0, lastAcc := none,
    nakOut := false, ackDue := false, replay := [], replays := [], egress := [], cellBuf := [], early := [], gapAt := none,
    crBlk := Vector.replicate 6 0, crHdr := Vector.replicate 6 0, creditOn := false, useBlk := Vector.replicate 6 0,
    useHdr := Vector.replicate 6 0, hasBlk := Vector.replicate 6 0, hasHdr := Vector.replicate 6 0, epitaph := false,
    epiAt := none, gateAt := 0, gateDue := 0, tokens := Vector.replicate 5 0,
    tokensAt := 0, txUntil := 0, txTc := 0, stT3 := 0, stT4 := 0, rtt := 0, ptpSeq := 0, gateWas := 0, lldpSent := none,
    ptpSent := none, ptpWait := [] }

/-- No transaction. -/
def Txn.reset : Txn := { st := .none, entries := [], at_ := 0, place := 0, err := 0, want := 0, wantHi := 0 }

/-- Hall time's parts after a power-on reset. -/
def Clock.reset : Clock :=
  { tsyncRef := none, slewBy := 0, lastSlew := none, hasPrimary := false, hasStandby := false, holdSince := none,
    alignedYet := false, alignedAt := 0, prev := none, load := none, holdDone := false, parade := false, warm := false,
    closeAt := none, overrun := false,
    stopWanted := false, w0 := none, stage4At := none }

/-- The empty Catalogue. -/
def Cat.reset : Cat :=
  { queue := [], urgent := [], recs := [], next := 0, eid := 0, eidSeq := [], windows := [], raised := [],
    window := [], freezeAt := none, gap := false, copying := none, waiting := none, slot := 0, fecRest := [],
    fecNow := [], num03 := [], fltFenced := false, fltFatal := false }

/-- The Curator before its reset is released. -/
def Cur.reset : Cur :=
  { mail := none, bootAt := 0, relAt := 0, fwCopy := 0, rx := [], mirrors := [], mirDrops := 0, staged := [], mirWait := [], smps := [],
    smp := ⟨[], [], [], 0, 0, 0, 0, 0, false, false, false, false⟩, sampled := false, vinGood := 0, peakBins := [],
    peakPart := 0, quiet := 0, fallHold := 0, hotHold := false,
    cool := Vector.replicate 8 0, throttle := Vector.replicate 8 0, hot98 := Vector.replicate 8 0, hot105 := 0,
    hot110 := 0, optDue := [], moeDue := [], closed := none, talSeen := 0, tp := 0, sumE := 0, drawSum := 0,
    drawCnt := 0, flowSaid := false, guard := false, aux := true, regOn := false,
    clocksOn := false, engOff := Vector.replicate 16 false, trained := false }

/-- No image. -/
def Img.reset : Img :=
  { load := none, busy := false, floor := 0, booted := none, tried := false, g := 0, p := 0, rootG := 0, rootP := 0,
    floorUp := false, secver := 0, ids := [0, 0, 0], marks := [], records := [], window := [] }

/-- An input that has been low. -/
def Pin.low : Pin := { raw := false, since := 0, level := false, rise := 0, hush := 0 }

/-- Phase A: no output driven, no input read (R391, R394). -/
def Plt.reset : Plt :=
  { phaseC := none, driven := false, reading := false, hold := Pin.low, leak := Pin.low, flow := Pin.low, leaked := false,
    ack := false, err := false, passAt := none, phb := false, phc := false, beatTil := 0, syncTil := 0 }

/-- A stack with nothing under way. -/
def Stk.reset : Stk :=
  { scrub := 0, late := [], back := [], merge := [], wait := [], portLast := [], chanLast := [], locks := [], spans := [], lost := false }

/-- The Crossing with nothing under way. -/
def Xbar.reset : Xbar :=
  { xfers := [], outTurn := [], outSrc := [], inOut := [], landSrc := [], nextId := 0, taps := [] }

/-- The PCI Express side before its link has trained. -/
def Pcie.reset : Pcie := { link := ⟨0, 0, false⟩, msix := false, fmask := false, aer := 0, amask := 0, actl := 0 }

/-- The machine right after a power-on reset (R391, R12): phase A, stage 0, every register at its reset value. -/
def State.reset : State :=
  { pending := [], out := [], free := 0, ht := 0, cycle := 0, counting := false, regs := [], heldHi := [],
    capHi := [], evts := [], clk := Clock.reset, txnHost := Txn.reset, txnCur := Txn.reset,
    stn := Vector.replicate 64 Stn.reset, prt := Vector.replicate 128 Prt.reset,
    stk := Vector.replicate 8 Stk.reset, dram := [], dramBad := [], bar2 := [], pcie := Pcie.reset, flash := [],
    xbar := Xbar.reset, buckets := [], redDisc := [], redWait := [], redStray := [], notices := [],
    stgUsed := [], expDisc := [], sit := Sittings.zero,
    cat := Cat.reset, cur := Cur.reset, img := Img.reset, plt := Plt.reset }

end Sys2Proof.Machine
end

