-- ==== Sys2Proof/Machine/Ops.lean ====
section
/-! DEFINITION. The named operations over the state: registers, stations, ports, stacks, what the device sends, the
interrupt vectors (R433), free values. -/

namespace Sys2Proof.Machine

open Sys2Proof

/-! ### Registers -/

/-- The stored value of the register at a BAR0 address. -/
def State.rg (s : State) (a : Nat) : Word := Cells.get regReset s.regs a

/-- The state with a register's stored value set. -/
def State.setRg (s : State) (a : Nat) (v : Word) : State := { s with regs := Cells.set regReset s.regs a v }

/-- A field of a register. -/
def State.rf (s : State) (a lo n : Nat) : Nat := fld (s.rg a) lo n

/-- The state with a field of a register set. -/
def State.setRf (s : State) (a lo n v : Nat) : State := s.setRg a (setFld (s.rg a) lo n v)

/-- One bit of a register. -/
def State.rbit (s : State) (a i : Nat) : Bool := bitOf (s.rg a) i

/-- The 64-bit value of a register pair, by the address of its _LO half. -/
def State.rg64 (s : State) (a : Nat) : DWord := dword ((s.rg (a + 4)).toNat * 2 ^ 32 + (s.rg a).toNat)

/-- The state with a register pair set. -/
def State.setRg64 (s : State) (a : Nat) (v : DWord) : State :=
  (s.setRg a (word v.toNat)).setRg (a + 4) (word (v.toNat / 2 ^ 32))

/-- The device changes a counter or a status register by `f`, and what the change would leave of a field cleared at the
start of the tick is kept beside it, so that no event is lost to a read or a clear of the same tick (R11). -/
def State.event (s : State) (a : Nat) (f : Word → Word) : State :=
  let e := (Cells.look s.evts a).getD ⟨s.rg a, 0⟩
  { s.setRg a (f (s.rg a)) with evts := Cells.ins s.evts a ⟨e.was, f e.since⟩ }

/-- What the device has put into a register in this tick (R11). -/
def State.since (s : State) (a : Nat) : Word := match Cells.look s.evts a with | some e => e.since | none => 0

/-- Clearing W1C bits leaves those that the device has set in this tick (R11). -/
def State.clearBits (s : State) (a : Nat) (c : Word) : State := s.setRg a ((s.rg a &&& ~~~c) ||| (s.since a &&& c))

/-- The value of a register at the start of the tick (R11). -/
def State.wasRg (s : State) (a : Nat) : Word := match Cells.look s.evts a with | some e => e.was | none => s.rg a

/-- The device sets bit `i` of a register. -/
def State.setBitEvt (s : State) (a i : Nat) : State := s.event a (fun w => setFld w i 1 1)

/-- A count that saturates at 0xFFFF_FFFF, raised by `n`. -/
def satAdd (n : Nat) (w : Word) : Word := word (min 0xFFFFFFFF (w.toNat + n))

/-- A counter that saturates at 0xFFFF_FFFF, raised by `n`. -/
def State.addSat (s : State) (a n : Nat) : State := s.event a (satAdd n)

/-- A counter that saturates at 0xFFFF_FFFF, raised by one. -/
def State.inc (s : State) (a : Nat) : State := s.addSat a 1

/-- The step most recently opened, HT_STEP_CUR. -/
def State.stepCur (s : State) : Word := s.rg Reg.htStepCur

/-! ### Stations, ports, stacks -/

/-- Station `n`. -/
def State.st (s : State) (n : StnId) : Stn := s.stn[n.val]

/-- The state with station `n` replaced. -/
def State.setSt (s : State) (n : StnId) (x : Stn) : State := { s with stn := s.stn.set n.val x }

/-- The state with station `n` changed. -/
def State.modSt (s : State) (n : StnId) (f : Stn → Stn) : State := s.setSt n (f (s.st n))

/-- Port `p`. -/
def State.pt (s : State) (p : PortId) : Prt := s.prt[p.val]

/-- The state with port `p` replaced. -/
def State.setPt (s : State) (p : PortId) (x : Prt) : State := { s with prt := s.prt.set p.val x }

/-- The state with port `p` changed. -/
def State.modPt (s : State) (p : PortId) (f : Prt → Prt) : State := s.setPt p (f (s.pt p))

/-- Stack `k`. -/
def State.sk (s : State) (k : StackId) : Stk := s.stk[k.val]

/-- The state with stack `k` changed. -/
def State.modSk (s : State) (k : StackId) (f : Stk → Stk) : State := { s with stk := s.stk.set k.val (f s.stk[k.val]) }

/-- The station of a number, taken modulo 64. -/
def stnId (n : Nat) : StnId := Fin.ofNat 64 n

/-- The port of a number, taken modulo 128. -/
def portId (n : Nat) : PortId := Fin.ofNat 128 n

/-- The stack of a number, taken modulo 8. -/
def stackId (n : Nat) : StackId := Fin.ofNat 8 n

/-- The traffic class of a number (Table 2.7); 5 to 7 are reserved and read as 4 after the checks refuse them. -/
def tclass (n : Nat) : TClass := if h : n < 5 then ⟨n, h⟩ else 4

/-- The station that serves a port (R44). -/
def stnOf (p : PortId) : StnId := stnId (p.val / 2)

/-- The other port of a station: the twin (R308). -/
def twinOf (p : PortId) : PortId := portId (if p.val % 2 = 0 then p.val + 1 else p.val - 1)

/-- A wide station (R45). -/
def isWide (n : StnId) : Bool := decide (n.val % 16 < 4)

/-- All stations, ports, stacks. -/
def allStns : List StnId := List.finRange 64

/-- All ports. -/
def allPorts : List PortId := List.finRange 128

/-- All stacks. -/
def allStacks : List StackId := List.finRange 8

/-! ### Hall coordinates -/

/-- This device's hall rank, from the straps (R13, R392): g × 16 + p. -/
def State.rank (s : State) : Nat := s.rf Reg.pltStrap 0 5 * 16 + s.rf Reg.pltStrap 8 4

/-- This device is the root (R20, Table 1.6). -/
def State.isRoot (s : State) : Bool := s.rbit Reg.htCtrl 0

/-- The start-up stage (Table 15.4). -/
def State.stage (s : State) : Nat := s.rf Reg.pwrStatus 0 3

/-- The step state (Table 1.3): 0 Closed, 1 Open, 2 Closing, 3 Stopped. -/
def State.stepState (s : State) : Nat := s.rf Reg.htStatus 4 2

/-- The station's role (Table 2.2): 0 OFF, 1 FABRIC, 2 ENDPOINT, 3 SERVICE. -/
def State.role (s : State) (n : StnId) : Nat := s.rf (Reg.stnRole n.val) 0 2

/-- A tick at which HT mod n = 0 (R26): HT has come to such a value since the tick before, or has passed one, by a slew
or by the load of R21. -/
def State.atMultiple (s : State) (n : Nat) : Bool :=
  match s.clk.prev with
  | none => s.ht.toNat % n == 0
  | some p => s.ht.toNat / n != p.toNat / n

/-! ### Output, interrupts, free values -/

/-- Something the device sends. -/
def State.emit (s : State) (o : Out) : State := { s with out := o :: s.out }

/-- The message of vector `v` is withheld: MSI-X is not enabled, or the function or the vector is masked (R433). -/
def State.msiHeld (s : State) (v : Nat) : Bool :=
  !s.pcie.msix || s.pcie.fmask || bitOf (s.rg (Reg.glbMsix (4 * v + 3))) 0

/-- The message of vector `v`: sent, or held in the pending bit array while it is withheld (R433). -/
def State.sendMsi (s : State) (v : Nat) : State :=
  if s.msiHeld v then s.setRf (Reg.glbPba (v / 32)) (v % 32) 1 1
  else s.emit (.msix v)

/-- A source event of vector `v` (R433): its pending bit is set, and the message goes out when the bit rises while
the vector is enabled. -/
def State.vector (s : State) (v : Nat) : State :=
  let was := s.rbit (Reg.glbIrqPend (v / 32)) (v % 32)
  let s1 := s.setBitEvt (Reg.glbIrqPend (v / 32)) (v % 32)
  if !was && s1.rbit (Reg.glbIrqEn (v / 32)) (v % 32) then s1.sendMsi v else s1

/-- Bit `i` of a status register sets; when it was 0 the vector `v` is raised (Table 17.3). -/
def State.setStatus (s : State) (a i v : Nat) : State :=
  if s.rbit a i then s.setBitEvt a i else (s.setBitEvt a i).vector v

/-- A bit of CUR_EVENT sets: 0 DONE, 1 ACCESSION, 2 CONDITION, 3 CATALOGUE (vectors 64 to 67). -/
def State.curEvent (s : State) (i : Nat) : State := s.setStatus Reg.curEvent i (64 + i)

/-- A bit of HT_STEP_FLAGS sets (vector 69). -/
def State.stepFlag (s : State) (i : Nat) : State := s.setStatus Reg.htStepFlags i 69

/-- A bit of CRS_XSTATUS sets (vector 73). -/
def State.xstatus (s : State) (i : Nat) : State := s.setStatus Reg.crsXstatus i 73

/-- A bit of CRS_RED_STATUS sets (vector 74). -/
def State.redStatus (s : State) (i : Nat) : State := s.setStatus Reg.crsRedStatus i 74

/-- A bit of CRS_EXP_STATUS sets (vector 75). -/
def State.expStatus (s : State) (i : Nat) : State := s.setStatus Reg.crsExpStatus i 75

/-- A bit of a stack's MEM_STATUS sets (vector 76). -/
def State.memStatus (s : State) (k : StackId) (i : Nat) : State := s.setStatus (Reg.memStatus k.val) i 76

/-- A bit of PRT_STATUS takes a value; a change raises vector 128 + p. -/
def State.prtStatus (s : State) (p : PortId) (i : Nat) (b : Bool) : State :=
  if s.rbit (Reg.prtStatus p.val) i = b then s
  else (s.setRf (Reg.prtStatus p.val) i 1 (b2n b)).vector (128 + p.val)

/-- A free value of `w` bits, and the state in which the next one is another (log entry 4). -/
def State.fresh (s : State) (w : Nat) : BitVec w × State := (Config.freeValue w s.free, { s with free := s.free + 1 })

/-- The bit ADMIT, LEAVE or REFUSE of ACC_EVENT sets, with the Accession interrupt (R319). -/
def State.accEvent (s : State) (i : Nat) : State := (s.setBitEvt Reg.accEvent i).curEvent 1

/-- The bundling mode of the device (Table 12.1). -/
def State.bundle (s : State) : Nat := s.rf (Reg.prtCfg 0) 2 2

/-- The port that keeps the link's credit: one credit is shared by both ports of a link (R312). -/
def State.credPort (s : State) (p : PortId) : PortId :=
  if s.bundle = 2 then portId (p.val / 4 * 4) else portId (p.val / 2 * 2)

/-- A port of the link is admitted. -/
def State.linkAdmitted (s : State) (p : PortId) : Bool :=
  decide ((s.pt p).acc = .admitted) || (s.bundle == 0 && decide ((s.pt (twinOf p)).acc = .admitted))

/-- The ports of the link of port `p` (R303). -/
def State.linkPorts (s : State) (p : PortId) : List PortId := if s.bundle = 0 then [p, twinOf p] else [p]

/-- A frame in a VOQ no longer holds link credit of the ports of a list: what lands at one of them has its credit yet to get. -/
def VoqFrame.unpaid (f : VoqFrame) (l : List PortId) : VoqFrame :=
  { f with credit := f.credit && !l.any (fun q => f.land == .port q), paid := f.paid.filter (fun q => !l.contains q) }

/-- The credits of a port's link are cleared (R320): those of both ends, and those that frames for it hold. -/
def State.clearCredit (s : State) (p : PortId) : State :=
  let l := s.linkPorts p
  let s1 := l.foldl (fun t q => t.modPt q (fun x => { x with egress := x.egress.map (fun e => { e with paid := false }) })) s
  let s2 := s1.modPt (s.credPort p) (fun x => { x with
    crBlk := Vector.replicate 6 0, crHdr := Vector.replicate 6 0,
    hasBlk := Vector.replicate 6 0, hasHdr := Vector.replicate 6 0 })
  { s2 with stn := s2.stn.map (fun x => { x with voq := x.voq.map (fun f => f.unpaid l) }) }

/-- A partner has left: the credits of the link are cleared, which it shares with its twin while that one stays (R320, log entry
126). -/
def State.partnerGone (s : State) (p : PortId) : State := if s.linkAdmitted p then s else s.clearCredit p

/-- A port goes down: no lock, no partner's credit, PRT_STATUS.UP 0 (R68, R411, R452); a partner that was admitted
leaves (R319, R320). -/
def State.portDown (s : State) (p : PortId) : State :=
  let t := ((s.modPt p (fun x => { x with acc := .down, locked := false, creditOn := false })).prtStatus p 0 false).partnerGone p
  if (s.pt p).acc = .admitted then t.accEvent 1 else t

/-- The Curator runs: CUR_STATUS.READY. -/
def State.curReady (s : State) : Bool := s.rbit Reg.curStatus 0

/-- A byte that nothing has written reads 0 (log entry 3). -/
def zeroByte (_ : Nat) : Byte := 0

/-- A round-robin pointer before its first grant: the next is the lowest number (log entry 12). -/
def noPointer (_ : Nat) : Nat := 63

/-- A count that nothing has written is 0. -/
def zeroNat (_ : Nat) : Nat := 0

/-- A word that nothing has written is 0. -/
def zeroWord (_ : Nat) : Word := 0

end Sys2Proof.Machine
end

