-- ==== Sys2Proof/Machine/Tile.lean ====
section
/-! DEFINITION. Tile headers and formats (R48 to R60), hop words (R62), and the Cloakroom's blocks (R295 to R298). -/

namespace Sys2Proof.Machine

open Sys2Proof

/-! ### Tile header fields (Table 2.4) -/

/-- The eight words of a header. -/
def TH.words (t : TH) : List Word := [t.w0, t.w1, t.w2, t.w3, t.w4, t.w5, t.w6, t.w7]

/-- A header of eight words; missing words are 0. -/
def TH.ofWords (l : List Word) : TH :=
  ⟨nth l 0 0, nth l 1 0, nth l 2 0, nth l 3 0, nth l 4 0, nth l 5 0, nth l 6 0, nth l 7 0⟩

/-- The 32 bytes of a header. -/
def TH.bytes (t : TH) : List Byte := wordsToBytes t.words

/-- A header of 32 bytes. -/
def TH.ofBytes (bs : List Byte) : TH := TH.ofWords (bytesToWords 8 bs)

/-- One word of a header. -/
def TH.get (t : TH) (i : Nat) : Word := nth t.words i 0

/-- A header with one word replaced. -/
def TH.set (t : TH) (i : Nat) (v : Word) : TH := TH.ofWords (t.words.set i v)

/-- FMT. -/
def TH.fmt (t : TH) : Nat := fld t.w0 0 5
/-- The format code, FMT[3:0]. -/
def TH.code (t : TH) : Nat := fld t.w0 0 4
/-- The block-scale bit, FMT[4]. -/
def TH.bs (t : TH) : Bool := bitOf t.w0 4
/-- SBLK. -/
def TH.sblk (t : TH) : Nat := fld t.w0 5 3
/-- ROWS. -/
def TH.rows (t : TH) : Nat := fld t.w0 8 7
/-- COLS. -/
def TH.cols (t : TH) : Nat := fld t.w0 16 7
/-- VALID_ROWS. -/
def TH.valid (t : TH) : Nat := fld t.w0 24 7
/-- HDR_ONLY. -/
def TH.hdrOnly (t : TH) : Bool := bitOf t.w1 0
/-- LAST. -/
def TH.last (t : TH) : Bool := bitOf t.w1 1
/-- NF. -/
def TH.nf (t : TH) : Bool := bitOf t.w1 2
/-- FZ. -/
def TH.fz (t : TH) : Bool := bitOf t.w1 3
/-- TAG_KIND: 0 none, 1 bucket, 2 sitting, 3 run. -/
def TH.tagKind (t : TH) : Nat := fld t.w1 4 2
/-- CONTRIB. -/
def TH.contrib (t : TH) : Nat := fld t.w1 16 14
/-- SEQ. -/
def TH.seq (t : TH) : Word := t.w2
/-- STEP. -/
def TH.step (t : TH) : Word := t.w3
/-- TAG. -/
def TH.tag (t : TH) : Word := t.w4
/-- ORIGIN. -/
def TH.origin (t : TH) : Nat := fld t.w5 0 14
/-- TSCALE. -/
def TH.tscale (t : TH) : Nat := fld t.w6 0 8
/-- ITIN. -/
def TH.itin (t : TH) : Nat := fld t.w6 8 12
/-- HOP. -/
def TH.hop (t : TH) : Nat := fld t.w6 20 4

/-- The shape word: FMT, SBLK, ROWS, COLS, VALID_ROWS. -/
def TH.shape (fmt sblk rows cols valid : Nat) : Word :=
  word (fmt % 32 + (sblk % 8) * 2 ^ 5 + (rows % 128) * 2 ^ 8 + (cols % 128) * 2 ^ 16 + (valid % 128) * 2 ^ 24)

/-- The header with LAST set. -/
def TH.setLast (t : TH) (b : Bool) : TH := { t with w1 := setBit t.w1 1 b }
/-- The header with NF set. -/
def TH.setNf (t : TH) (b : Bool) : TH := { t with w1 := setBit t.w1 2 b }
/-- The header with FZ set. -/
def TH.setFz (t : TH) (b : Bool) : TH := { t with w1 := setBit t.w1 3 b }
/-- The header with CONTRIB set. -/
def TH.setContrib (t : TH) (n : Nat) : TH := { t with w1 := setFld t.w1 16 14 n }
/-- The header with TSCALE set. -/
def TH.setTscale (t : TH) (n : Nat) : TH := { t with w6 := setFld t.w6 0 8 n }
/-- The header with ITIN set. -/
def TH.setItin (t : TH) (n : Nat) : TH := { t with w6 := setFld t.w6 8 12 n }
/-- The header with HOP set. -/
def TH.setHop (t : TH) (n : Nat) : TH := { t with w6 := setFld t.w6 20 4 n }
/-- The header with SEQ set. -/
def TH.setSeq (t : TH) (w : Word) : TH := { t with w2 := w }

/-- The STN_HALT layout of a header (Table 2.10): ITIN, HOP, SEQ[15:0]. -/
def TH.haltWord (t : TH) : Word := word (t.itin + t.hop * 2 ^ 12 + (t.seq.toNat % 2 ^ 16) * 2 ^ 16)

/-! ### Formats (Table 2.3) -/

/-- A format code is defined. -/
def fmtOk (c : Nat) : Bool := decide (c ≤ 9)

/-- A code that permits block scaling and a tensor scale: 0x3, 0x4, 0x7 (R50, R55). -/
def bsCode (c : Nat) : Bool := c == 3 || c == 4 || c == 7

/-- Element size in bytes. -/
def elemSize (c : Nat) : Nat :=
  if c = 0 ∨ c = 6 ∨ c = 9 then 4 else if c = 1 ∨ c = 2 ∨ c = 8 then 2 else if c = 5 then 8 else 1

/-- Row capacity. -/
def rowCap (c : Nat) : Nat := 64 / elemSize c

/-- Elements in a scale block. -/
def sblkSize (k : Nat) : Nat := if k = 1 then 16 else if k = 2 then 32 else if k = 3 then 64 else 128

/-- Sidecar length in bytes for BS and SBLK (R54). -/
def sidecarLen (bs : Bool) (sblk : Nat) : Nat := if bs then 4096 / sblkSize sblk else 0

/-- Bytes of payload and sidecar of a frame (R48). -/
def TH.bodyLen (t : TH) : Nat := if t.hdrOnly then 0 else 4096 + sidecarLen t.bs t.sblk

/-- The whole frame's length (R48). -/
def TH.frameLen (t : TH) : Nat := 32 + t.bodyLen

/-- The payload-bearing checks of Table 2.6. -/
def TH.shapeOk (t : TH) : Bool :=
  fmtOk t.code && (!t.bs || bsCode t.code) &&
  (if t.bs then decide (1 ≤ t.sblk ∧ t.sblk ≤ 4) else t.sblk == 0) &&
  decide (1 ≤ t.rows ∧ t.rows ≤ rowCap t.code ∧ 1 ≤ t.cols ∧ t.cols ≤ 64 ∧ t.valid ≤ t.rows) &&
  (bsCode t.code || t.tscale == 0x7F)

/-- The checks of Table 2.6, apart from the length. -/
def TH.ok (t : TH) : Bool := (t.hdrOnly || t.shapeOk) && !(t.tagKind == 1 && t.contrib == 0)

/-- A header with its reserved bits cleared (R53, Tables 2.4 and 2.5). -/
def TH.clean (t : TH) : TH :=
  ⟨t.w0 &&& 0x7F7F7FFF, t.w1 &&& 0x3FFF003F, t.w2, t.w3,
   t.w4 &&& (if t.tagKind = 0 then 0 else if t.tagKind = 1 then 0x000FFFFF else if t.tagKind = 2 then 0x003FFFFF
     else 0x00FFFFFF),
   t.w5 &&& 0x003FFFFF, t.w6 &&& 0x00FFFFFF, 0⟩

/-! ### Hop words (Table 2.7) -/

/-- KIND of a hop word: 0 END, 1 STATION, 2 PORT, 3 GROUP. -/
def hopKind (w : Word) : Nat := fld w 0 2
/-- TARGET of a hop word. -/
def hopTarget (w : Word) : Nat := fld w 3 7
/-- QUEUE of a hop word. -/
def hopQueue (w : Word) : Fin 4 := Fin.ofNat 4 (fld w 10 2)
/-- TC of a hop word. -/
def hopTc (w : Word) : Nat := fld w 12 3

/-- A hop word given to tsend holds 0 in its reserved bits and in the fields its kind does not use, and no reserved
class (R62, R85). A STATION target of 64 or more and a class of 5 to 7 are taken as reserved values (log entry 146). -/
def hopLegal (w : Word) : Bool :=
  !bitOf w 2 && fld w 15 17 == 0 && decide (hopTc w < 5) &&
  (if hopKind w = 0 then fld w 3 7 == 0 && fld w 10 2 == 0
   else if hopKind w = 1 then decide (hopTarget w < 64) else fld w 10 2 == 0)

/-- The hop word of an itinerary at a hop (R61, R70); beyond hop 15 an END hop (R63). -/
def State.hopWord (s : State) (itin hop : Nat) : Word := if hop < 16 then s.rg (Reg.crsItin itin hop) else 0

/-! ### The Cloakroom (R295 to R298) -/

/-- Block size of a pool (Table 11.5). -/
def poolSize (i : Nat) : Nat := nth [256, 1024, 4352, 16384, 65536] i 65536

/-- Blocks of a pool in the layout in force. -/
def Layout.count (l : Layout) (i : Nat) : Nat := nth l.cnt i 0

/-- Vitrine offset at which a pool starts: pools lie in the order 4, 3, 2, 1, 0. -/
def Layout.start (l : Layout) (i : Nat) : Nat :=
  l.prog * 65536 + ((List.range 5).map (fun j => if i < j then l.count j * poolSize j else 0)).foldl (· + ·) 0

/-- The smallest existing pool whose block holds `size` bytes (R296). -/
def Layout.fitPool (l : Layout) (size : Nat) : Option Nat :=
  firstBelow 5 (fun i => decide (0 < l.count i ∧ size ≤ poolSize i))

/-- The pool that serves tile blocks. -/
def Layout.tilePool (l : Layout) : Option Nat := l.fitPool 4352

/-- Vitrine offset of tile block `b`. -/
def Layout.blkAddr (l : Layout) (b : Nat) : Nat :=
  match l.tilePool with
  | some i => l.start i + b * poolSize i
  | none => 0

/-- The blocks of pool `i` in use. -/
def Stn.usedOf (x : Stn) (i : Nat) : List Nat := nth x.used i []

/-- Free blocks of a pool. -/
def Stn.free (x : Stn) (i : Nat) : Nat := x.lay.count i - (x.usedOf i).length

/-- A station with a block of pool `i` freed; it can be allocated from the next tick on (R297). -/
def Stn.freeBlk (x : Stn) (i b : Nat) : Stn :=
  { x with used := x.used.set i ((x.usedOf i).erase b), cyc := { x.cyc with freed := (i, b) :: x.cyc.freed } }

/-- A station with a tile block freed; none where the frame holds no block. -/
def Stn.freeTile (x : Stn) : Option Nat → Stn
  | none => x
  | some b => match x.lay.tilePool with | some i => x.freeBlk i b | none => x

/-- STN_CLK_LOWi follows FREE down (Table 11.12). -/
def State.clkLow (s : State) (n : StnId) (i : Nat) : State :=
  let f := (s.st n).free i
  if f < s.rf (Reg.stnClkLow n.val i) 0 16 then s.setRf (Reg.stnClkLow n.val i) 0 16 f else s

/-- A request still waits at tick `t`: that of a stream while the stream waits for a tile block, any other while it is made
anew in each tick (log entry 28). -/
def Stn.reqLive (x : Stn) (t : DWord) (r : BlkReq) : Bool :=
  match r.who with
  | .xs => x.st = .running && x.xs.wait = .tileBlock
  | .as => x.st = .running && x.as.wait = .tileBlock
  | _ => decide (t.toNat ≤ r.last.toNat + 1)

/-- A request is that of a requester for one of its frames or tiles. -/
def BlkReq.of (r : BlkReq) (who : Asker) (key : Nat) : Bool := r.who = who && r.key = key

/-- The tick in which a request was made: now, or earlier if it waits. -/
def Stn.reqMade (x : Stn) (t : DWord) (i : Nat) (who : Asker) (key : Nat) : DWord :=
  match x.reqs.find? (fun r => r.pool = i && r.of who key && x.reqLive t r) with
  | some r => r.made
  | none => t

/-- A request that waits for a block of the pool is served before one of `who` (R297): one of an earlier tick, or of the same
tick by a requester that stands first. -/
def Stn.waitsAhead (x : Stn) (t : DWord) (i : Nat) (who : Asker) (key : Nat) : Bool :=
  let m := x.reqMade t i who key
  x.reqs.any (fun r => r.pool = i && !r.of who key && x.reqLive t r &&
    (decide (r.made.toNat < m.toNat) || (r.made == m && decide (r.who.rank < who.rank))))

/-- The lowest block of pool `i` that is free and was free at the start of the tick (R297). -/
def Stn.lowestFree (x : Stn) (i : Nat) : Option Nat :=
  firstBelow (x.lay.count i) (fun b => !(x.usedOf i).contains b && !x.cyc.freed.contains (i, b))

/-- A tile block is freed. -/
def State.freeTile (s : State) (n : StnId) (b : Option Nat) : State := s.modSt n (fun x => x.freeTile b)

/-- Bytes of a station's Vitrine, as they stand. -/
def Stn.vitBytes (x : Stn) (a len : Nat) : List Byte := Cells.read zeroByte x.vit a len

/-- The offsets of the 64-bit words that `len` bytes from `o` touch. -/
def wordsOf (o len : Nat) : List Nat := (List.range ((o + len + 7) / 8 - o / 8)).map (fun i => (o / 8 + i) * 8)

/-- The words `ws` lose their bad bits. -/
def clearBad (ws : List Nat) (m : Cells Nat) : Cells Nat :=
  ws.foldl (fun b w => if Cells.get zeroNat b (w / 8) = 0 then b else Cells.set zeroNat b (w / 8) 0) m

/-- The words that lie whole in `len` bytes from `a`. -/
def wholeWords (a len : Nat) : List Nat := (wordsOf a len).filter (fun w => decide (a ≤ w ∧ w + 8 ≤ a + len))

/-- A station with Vitrine bytes written: fresh check bits for the words covered whole (R352), and the write-back that the
scrub has yet to make of a line written is dropped (R348). -/
def Stn.vitPut (x : Stn) (a : Nat) (bs : List Byte) : Stn :=
  { x with
    vit := Cells.write zeroByte x.vit a bs
    vitBad := clearBad (wholeWords a bs.length) x.vitBad
    vitBack := x.vitBack.filter (fun l => !decide (a < 128 * (l + 1) ∧ 128 * l < a + bs.length)) }

/-- Bytes written at a tile block: payload and sidecar (R48). -/
def State.putBlk (s : State) (n : StnId) (b : Nat) (bs : List Byte) : State :=
  s.modSt n (fun x => x.vitPut (x.lay.blkAddr b) bs)

/-- The payload and sidecar of a frame in a station, as they stand. -/
def Stn.body (x : Stn) (t : Tile) : List Byte :=
  match t.blk with
  | none => []
  | some b => x.vitBytes (x.lay.blkAddr b) t.th.bodyLen

end Sys2Proof.Machine
end

