-- ==== Sys2Proof/Machine/Read.lean ====
section
/-! DEFINITION. The value in effect of every register: the stored value, or, for a field that shows other state, that
state (R10). The empty condition of R36. -/

namespace Sys2Proof.Machine

open Sys2Proof

/-! ### The empty condition (R36) -/

/-- The reducing stations in ascending order (R154). -/
def State.redStns (s : State) : List StnId :=
  allStns.filter (fun n => if n.val < 32 then s.rbit Reg.crsRedRstnLo n.val else s.rbit Reg.crsRedRstnHi (n.val - 32))

/-- A bucket entry that keeps its reducing stations from reporting empty (R167). -/
def Bucket.running (b : Bucket) : Bool := b.st = .open_ || b.st = .members || b.st = .rounds

/-- A header tagged to the step that closes (R36). -/
def State.tagged (s : State) (t : TH) : Bool := t.tagKind != 0 && t.step == s.stepCur

/-- A stream counts as at its step-end point (R36, R103). -/
def Stn.atStepEnd (x : Stn) : Bool := x.st = .idle || (x.as.wait = .stepEnd && x.xs.wait = .stepEnd)

/-- Transfers under way from a station. -/
def State.xfersFrom (s : State) (n : StnId) : List Xfer := s.xbar.xfers.filter (fun x => x.src = n)

/-- Bucket frames that wait in the ingress region of a station (R292). -/
def State.redHeld (s : State) (n : StnId) : List RedIn := s.redWait.filter (fun x => x.stn == n && x.hold != .none)

/-- Descriptors in use at a station (R281, R292). -/
def State.descriptors (s : State) (n : StnId) : Nat :=
  (s.st n).voq.length + (s.xfersFrom n).length + (s.redHeld n).length

/-- No frame waits to start at a port of station `n`: one that has crossed and one that the bucket path formed (R36, R328). -/
def State.portsEmpty (s : State) (n : StnId) : Bool :=
  (s.pt (portId (2 * n.val))).egress.isEmpty && (s.pt (portId (2 * n.val + 1))).egress.isEmpty

/-- Station `n` reports empty (R36, R66, R68): unpowered, OFF and fenced stations do, a halted one does not. A Phlox run has no
state of its own (log entry 144). -/
def State.stnEmpty (s : State) (n : StnId) : Bool :=
  let x := s.st n
  if !x.powered || s.role n = 0 || x.st = .fenced then true
  else if x.st = .halted then false
  else x.voq.isEmpty && (s.xfersFrom n).isEmpty && s.portsEmpty n && x.q.all (fun l => l.isEmpty) && x.atStepEnd &&
    !((s.redStns.contains n) && s.buckets.any (fun b => b.2.running)) &&
    !(x.lup.held.any (fun h => s.tagged h.tile.th)) && !(x.lup.hand.any (fun t => s.tagged t.th)) &&
    !(x.lup.todo.any (fun o => s.tagged o.1)) && !(x.lup.outs.any (fun t => s.tagged t.th))

/-- Half of HT_DRAIN_MAP: bit n is 1 for a station not yet empty, from station `base`. -/
def State.drainMap (s : State) (base : Nat) : Word :=
  word (((List.range 32).map (fun i => if s.stnEmpty (stnId (base + i)) then 0 else 2 ^ i)).foldl (· + ·) 0)

/-! ### Registers that show other state -/

/-- The code of STN_STATUS.STATE (Table 2.13). -/
def StnState.code : StnState → Nat
  | .idle => 0
  | .running => 1
  | .halted => 2
  | .fenced => 3

/-- The code of a wait (Table 3.16). -/
def WaitKind.code : WaitKind → Nat
  | .none => 0
  | .queueEmpty => 1
  | .queueFull => 2
  | .flag => 3
  | .crossing => 4
  | .bcopySlot => 5
  | .tileBlock => 6
  | .stepEnd => 7
  | .lupinQueue => 8
  | .htwait => 9

/-- The code of an Accession state (Table 12.5). -/
def AccState.code : AccState → Nat
  | .down => 0
  | .training => 1
  | .discovered => 2
  | .admitted => 3
  | .refused => 4
  | .failed => 5

/-- The code of a bucket state (Table 6.3). -/
def BState.code : BState → Nat
  | .free => 0
  | .open_ => 1
  | .members => 2
  | .rounds => 3
  | .done => 4
  | .abandoned => 5

/-- The code of a transaction state (Table 14.9). -/
def TxnState.code : TxnState → Nat
  | .none => 0
  | .open_ => 1
  | .armed => 2
  | .failed => 3

/-- TXN_STATUS of a transaction (Table 14.14). -/
def Txn.status (t : Txn) : Word := word (t.st.code + t.entries.length * 4 + t.err * 2 ^ 16)

/-- STN_QDEPTH: entries held or reserved in each queue. -/
def Stn.qdepth (x : Stn) : Word :=
  word (((List.range 8).map (fun q => (nth x.q.toList q []).length * 2 ^ (4 * q))).foldl (· + ·) 0)

/-- A register word that packs four bytes of a list from place 4 i. -/
def pack4 (l : List Byte) (i : Nat) : Word := word (leAt l (4 * i) 4)

/-- The object that STN_CUT_SEL selects: word `w` of it (Table 4.4). -/
def Stn.cutWord (x : Stn) (space index w : Nat) : Word :=
  match space with
  | 0 => if w < 8 ∧ index < 16 then (match nth x.xs.t.toList index none with | some t => t.th.get w | none => 0) else 0
  | 1 => if w < 8 then
      (match (nth x.q.toList (index / 8) []).drop (index % 8) with | e :: _ => e.tile.th.get w | [] => 0) else 0
  | 2 => if w < 4096 ∧ index < 4 then
      (match x.xs.acc.toList.drop index with | a :: _ => Cells.get zeroWord a.v w | [] => 0) else 0
  | 3 => if w < 76 * 64 ∧ index < 4 then
      (match (nth x.xs.ea.toList index []).drop (w / 76) with
       | c :: _ => word (wrap 2432 c.a >>> (32 * (w % 76))) | [] => 0) else 0
  | 4 => if w < 32 then
      (let g := nth x.as.g.toList (w / 2) 0; word (if w % 2 = 0 then g.toNat else g.toNat / 2 ^ 32)) else 0
  | 5 => if w < 8 ∧ index < 8 then (nth x.as.h.toList index TH.zero).get w else 0
  | _ => 0

/-- STN_CUT_LOC: the Vitrine offset of the selected T register's or queue entry's block. -/
def Stn.cutLoc (x : Stn) (space index : Nat) : Word :=
  let loc (t : Option Tile) : Word :=
    match t with
    | some ⟨_, some b⟩ => word (x.lay.blkAddr b)
    | _ => 0xFFFFFFFF
  match space with
  | 0 => loc (nth x.xs.t.toList index none)
  | 1 => loc (match (nth x.q.toList (index / 8) []).drop (index % 8) with | e :: _ => some e.tile | [] => none)
  | _ => 0xFFFFFFFF

/-- The value in effect of a register of station `n` at offset `o`. -/
def State.readStn (s : State) (n : StnId) (o a : Nat) : Word :=
  let x := s.st n
  let halted := decide (x.st = .halted)
  if o = 0x000 then word (n.val + (n.val / 16) * 2 ^ 6 + b2n (isWide n) * 2 ^ 8 + (2 * n.val) * 2 ^ 16)
  else if o = 0x00C then word (x.st.code + b2n (s.stnEmpty n) * 4)
  else if o = 0x060 then
    word (match x.lup.cur with
      | some j => 1 + x.lup.jobs.length * 2 + j.mode * 2 ^ 4 + (x.lup.held.length + x.lup.hand.toList.length) * 2 ^ 8
      | none => x.lup.jobs.length * 2)
  else if 0x0A0 ≤ o ∧ o ≤ 0x0B0 then word (x.free ((o - 0x0A0) / 4))
  else if o = 0x104 then setFld (s.rg a) 16 8 x.resv.length
  else if o = 0x108 then word (s.descriptors n)
  else if o = 0x30000 then x.qdepth
  else if o = 0x30004 then x.cyc.flags
  else if o = 0x30010 then word (x.as.pc % 2 ^ 13)
  else if o = 0x30014 then word (x.xs.pc / 2 % 2 ^ 16)
  else if o = 0x30110 then word x.cut.nb.toNat
  else if o = 0x30114 then word (x.cut.nb.toNat / 2 ^ 32)
  else if o = 0x30118 then word x.cut.nt.toNat
  else if o = 0x3011C then word (x.cut.nt.toNat / 2 ^ 32)
  else if o = 0x3012C then (if halted then s.rg a else 0)
  else if o = 0x30130 then
    (if halted then x.cutWord (s.rf (Reg.stnCutSel n.val) 0 4) (s.rf (Reg.stnCutSel n.val) 4 6)
        (s.rf (Reg.stnCutSel n.val) 12 13) else 0)
  else if o = 0x30134 then
    (if halted then x.cutLoc (s.rf (Reg.stnCutSel n.val) 0 4) (s.rf (Reg.stnCutSel n.val) 4 6) else 0)
  else if 0x30180 ≤ o ∧ o ≤ 0x301FC then (if halted then nth x.xs.x.toList ((o - 0x30180) / 4) 0 else 0)
  else if 0x10000 ≤ o ∧ o < 0x18000 then word (ofLE (Cells.read zeroByte x.asMem (o - 0x10000) 4))
  else if 0x20000 ≤ o ∧ o < 0x30000 then
    word (ofLE (Cells.read zeroByte x.xsMem (o - 0x20000 + s.rf (Reg.stnXsPage n.val) 0 1 * 65536) 4))
  else s.rg a

/-- A word of CRS_RED_ENT (Table 6.10). -/
def State.readEnt (s : State) (i w : Nat) : Word :=
  match s.buckets.find? (fun b => b.1 = i) with
  | none => 0
  | some (_, b) =>
    if w = 0 then word (b.bucket + b.st.code * 2 ^ 20 + b2n b.excl * 2 ^ 23 + b2n b.nf * 2 ^ 24)
    else word (b.count % 2 ^ 14 + b.stage * 2 ^ 14)

/-- ACC_PEER0 and ACC_PEER1 of the port that ACC_SEL names. -/
def State.accPeer (s : State) (i : Nat) : Word :=
  let p := portId (s.rf Reg.accSel 0 7)
  match (s.pt p).ident, (s.pt p).nbr with
  | some (a, b), _ => if i = 0 then a else b
  | none, some nb => if i = 0 then word nb.du.mac.toNat else word (nb.du.mac.toNat / 2 ^ 32)
  | none, none => 0

/-- Milliseconds that the Curator has run: CUR_STATUS.HEARTBEAT, incremented each ms. -/
def State.heartbeat (s : State) : Nat := if s.curReady then (s.cycle - s.cur.bootAt) / 1250000 else 0

/-- A Fenced fault of the device stands (R408, Table 16.7). -/
def State.fencedStands (s : State) : Bool := s.cat.windows.any (fun w => w.unit.kind = .device && w.cls = .fenced)

/-- PLT_IN (Table 15.11): until the inputs are read each reads inactive (R394), and a masked one does (R395); the raw levels
stand above. -/
def State.pltIn (s : State) : Word :=
  let z := s.plt
  if !z.reading then 0
  else (word (b2n z.hold.level * 2 + b2n z.leak.level * 2 ^ 3 + b2n z.flow.level * 2 ^ 5) &&& ~~~(s.rg Reg.pltMask)) +
    word (b2n z.hold.raw * 2 ^ 9 + b2n z.leak.raw * 2 ^ 11 + b2n z.flow.raw * 2 ^ 13)

/-- ATTN_N is asserted (Table 15.8): a CUR_EVENT bit that PLT_ATTN_MASK names is 1, and phase C outputs are driven. -/
def State.attn (s : State) : Bool := s.plt.driven && (s.rg Reg.curEvent &&& s.rg Reg.pltAttnMask &&& 0xF) != 0

/-- The value in effect of the register at a BAR0 address, 0 where no register lies (R9). -/
def State.value (s : State) (a : Nat) : Word :=
  if 0x1000000 ≤ a ∧ a < 0x2000000 then
    s.readStn (stnId ((a - 0x1000000) / 0x40000)) ((a - 0x1000000) % 0x40000) a
  else if a = Reg.glbSerialLo then word Config.serial.toNat
  else if a = Reg.glbSerialHi then word (Config.serial.toNat / 2 ^ 32)
  else if a = Reg.glbStatus then
    word (b2n s.curReady + b2n s.img.booted.isSome * 2 + b2n s.cat.fltFatal * 4 + b2n s.fencedStands * 8 +
      s.stage * 2 ^ 4 + s.rf a 7 1 * 2 ^ 7)
  else if a = Reg.glbPcie then
    word (s.pcie.link.gen % 2 ^ 4 + s.pcie.link.width % 2 ^ 5 * 2 ^ 4 + b2n s.pcie.link.flit * 2 ^ 9)
  else if a = Reg.htNowLo then word s.ht.toNat
  else if a = Reg.htNowHi then word (s.ht.toNat / 2 ^ 32)
  else if a = Reg.htDrainMapLo then s.drainMap 0
  else if a = Reg.htDrainMapHi then s.drainMap 32
  else if a = Reg.txnAtLo then word s.txnHost.want.toNat
  else if a = Reg.txnAtHi then word (s.txnHost.want.toNat / 2 ^ 32)
  else if a = Reg.txnStatus then s.txnHost.status
  else if a = Reg.txnOther then s.txnCur.status
  else if a = Reg.catStatus then
    word (s.rf Reg.catCtrl 0 1 + b2n s.cat.copying.isSome * 2 + b2n s.cat.waiting.isSome * 4 + s.rf a 3 2 * 2 ^ 3)
  else if a = Reg.catHead then s.cat.next
  else if Reg.catWindow 0 ≤ a ∧ a ≤ Reg.catWindow 15 then nth s.cat.window ((a - Reg.catWindow 0) / 4) 0
  else if a = Reg.curStatus then
    setFld (setBit (s.rg a) 1 s.cur.mail.isSome) 16 16 s.heartbeat
  else if a = Reg.pltIn then
    s.pltIn
  else if Reg.accState 0 ≤ a ∧ a ≤ Reg.accState 15 then
    word (((List.range 8).map (fun j =>
      (s.pt (portId (8 * ((a - Reg.accState 0) / 4) + j))).acc.code * 2 ^ (4 * j))).foldl (· + ·) 0)
  else if a = Reg.accPeer0 then s.accPeer 0
  else if a = Reg.accPeer1 then s.accPeer 1
  else if Reg.crsRedEnt 0 0 ≤ a ∧ a ≤ Reg.crsRedEnt 4095 1 then
    s.readEnt ((a - Reg.crsRedEnt 0 0) / 8) ((a - Reg.crsRedEnt 0 0) / 4 % 2)
  else if 0x200000 ≤ a ∧ a < 0x300000 ∧ (a - 0x200000) % 0x20000 = 0 then
    word ((a - 0x200000) / 0x20000 + (a - 0x200000) / 0x40000 * 2 ^ 3 + 0x48 * 2 ^ 8)
  else if 0x2000000 ≤ a ∧ a < 0x2800000 ∧ (a - 0x2000000) % 0x10000 = 0 then
    let r := s.role (stnId ((a - 0x2000000) / 0x20000))
    if r = 3 then s.rg a else setFld (s.rg a) 0 2 r
  else
    match regRow a with
    | none => 0
    | some r => s.rg a &&& ~~~r.wo

/-- The value of a register as a requester reads it: the Curator's TXN layout shows its own transaction (R376). -/
def State.valueFor (s : State) (r : Requester) (a : Nat) : Word :=
  match r with
  | .host => s.value a
  | .curator =>
    if a = Reg.txnAtLo then word s.txnCur.want.toNat
    else if a = Reg.txnAtHi then word (s.txnCur.want.toNat / 2 ^ 32)
    else if a = Reg.txnStatus then s.txnCur.status
    else if a = Reg.txnOther then s.txnHost.status
    else s.value a

end Sys2Proof.Machine
end

