-- ==== Sys2Proof/Machine/Faults.lean ====
section
/-! DEFINITION. Raising a fault code (R400 to R405), handling windows (R408), condition scores (R415 to R417), and
what a Fatal event does at once (R411). -/

namespace Sys2Proof.Machine

open Sys2Proof

/-- Family numbers (Table 16.4). -/
def Fam.number : Fam → Nat
  | .lnk => 1
  | .stn => 2
  | .mem => 3
  | .num => 4
  | .spa => 5
  | .exp => 6
  | .red => 7
  | .tim => 8
  | .pwr => 9
  | .thm => 10
  | .cfg => 11
  | .sec => 12
  | .plt => 13
  | .crs => 14

/-- Class values (Table 16.1). -/
def Cls.number : Cls → Nat
  | .noted => 0
  | .recovered => 1
  | .fenced => 2
  | .fatal => 3

/-- The class of a code (Table 16.2). -/
def Code.cls (c : Code) : Cls :=
  match c.fam with
  | .lnk => if c.num = 2 ∨ c.num = 3 ∨ c.num = 5 then .recovered else .noted
  | .stn => if c.num = 11 then .fenced else if c.num ∈ [1, 4, 9, 10] then .noted else .recovered
  | .mem => if c.num = 2 then .recovered else if c.num = 5 then .fatal else .noted
  | .num => .noted
  | .spa => .recovered
  | .exp => if c.num = 4 then .recovered else .noted
  | .red => if c.num = 4 ∨ c.num = 7 then .recovered else .noted
  | .tim => if c.num = 3 then .fenced else if c.num ∈ [2, 4, 5] then .recovered else .noted
  | .pwr => if c.num ∈ [1, 5] then .noted else if c.num ∈ [4, 6] then .recovered else .fatal
  | .thm => if c.num ∈ [1, 4, 11] then .noted else if c.num ∈ [3, 6, 10] then .fatal else .recovered
  | .cfg => if c.num = 5 then .fenced else if c.num ≤ 4 then .recovered else .noted
  | .sec => if c.num = 5 then .fatal else .recovered
  | .plt => if c.num = 3 then .recovered else .noted
  | .crs => if c.num = 4 then .recovered else .noted

/-- The device itself as a unit. -/
def uDevice : UnitId := ⟨.device, 0, none⟩
/-- A station as a unit. -/
def uStn (n : StnId) : UnitId := ⟨.station, n.val, none⟩
/-- A port as a unit. -/
def uPort (p : PortId) : UnitId := ⟨.port, p.val, none⟩
/-- A link as a unit: its lower port. -/
def uLink (p : PortId) : UnitId := ⟨.link, p.val / 2 * 2, none⟩
/-- A stack as a unit. -/
def uStack (k : StackId) : UnitId := ⟨.stack, k.val, none⟩
/-- An optical engine as a unit. -/
def uOpt (e : Nat) : UnitId := ⟨.engine, e, none⟩
/-- Another device as a unit, by its hall rank (R404). -/
def uRemote (rank : Nat) : UnitId := ⟨.device, 0, some rank⟩
/-- A Plinth pin as a unit. -/
def uPin (k : Nat) : UnitId := ⟨.pin, k, none⟩

/-- The number of a unit kind (Table 16.5). -/
def UnitKind.number : UnitKind → Nat
  | .device => 0
  | .station => 1
  | .port => 2
  | .link => 3
  | .stack => 4
  | .engine => 5
  | .curator => 6
  | .pin => 7

/-- The optical engine that carries a port: eight ports each (R402's example). -/
def engineOf (p : Nat) : Nat := p / 8

/-- The hottest of a list of temperatures. -/
def hottest (l : List Byte) : Byte := l.foldl (fun m b => if m.toNat < b.toNat then b else m) 0

/-- The temperature recorded for a unit (Table 16.3, word 8). -/
def State.unitTemp (s : State) (u : UnitId) : Byte :=
  match u.kind with
  | .station => nth s.cur.smp.tStn u.index 0
  | .port | .link => nth s.cur.smp.tOpt (engineOf u.index) 0
  | .stack => nth s.cur.smp.tMem u.index 0
  | .engine => nth s.cur.smp.tOpt u.index 0
  | _ => hottest s.cur.smp.tStn

/-- The load fingerprint of R418. -/
def State.loadOf (s : State) (u : UnitId) : BitVec 16 :=
  let run := allStns.filter (fun n => (s.st n).st = .running)
  let frac :=
    if u.kind = .station then (s.st (stnId u.index)).issFrac
    else if run.isEmpty then 0 else (run.map (fun n => (s.st n).issFrac)).foldl (· + ·) 0 / run.length
  BitVec.ofNat 16 (s.rf Reg.pwrStatus 3 3 + min 31 (s.rf Reg.pwrPin 0 16 / 128) * 2 ^ 3 + (frac % 256) * 2 ^ 8)

/-- The advisory codes of the condition scores (R417). -/
def Code.advisory (c : Code) : Bool :=
  (c.fam = .lnk && (c.num = 7 || c.num = 8)) || (c.fam = .mem && c.num = 6) || (c.fam = .stn && c.num = 10)

/-- The detail words of an event (Table 16.6); `extra` holds those that only the raising rule knows. -/
def State.details (s : State) (c : Code) (u : UnitId) (extra : List Word) : List Word :=
  let n := u.index
  if c.advisory then extra
  else match c.fam with
    | .stn | .spa =>
      [nth extra 0 (s.rg (Reg.stnHalt n)), s.rg (Reg.stnTrap n), s.rg (Reg.stnSpaLast n), s.rg (Reg.stnSpaElem n),
       s.value (Reg.stnStatus n)]
    | .mem =>
      if u.kind = .station then
        [nth extra 0 (s.rg (Reg.stnVitUeAddr n)), nth extra 1 0, nth extra 2 0, s.rg (Reg.stnHalt n)]
      else [s.rg (Reg.memUeAddrLo n), s.rg (Reg.memUeAddrHi n), s.rg (Reg.memStatus n), 0]
    | .lnk =>
      [s.rg (Reg.prtStatus n), word (match (s.pt (portId n)).lastAcc with | some q => q.toNat | none => 0),
       word (s.pt (portId n)).acc.code]
    | .num => extra
    | .red => extra ++ [s.rg Reg.crsRedStatus]
    | .exp => extra ++ [s.rg Reg.crsExpStatus]
    | .tim => [s.drainMap 0, s.drainMap 32, s.rg Reg.htStepFlags, s.rg Reg.htOffset]
    | .pwr | .thm => [s.rg Reg.pwrVin, s.rg Reg.pwrPin, s.rg Reg.pwrTempMax, s.rg Reg.pwrFlow, s.rg Reg.pwrStatus]
    | .cfg | .sec => [s.rg Reg.glbImgStatus, s.txnHost.status]
    | .plt => [s.value Reg.pltIn, s.rg Reg.pltMask, s.rg Reg.pltChatter]
    | .crs => [s.rg Reg.crsXstatus]

/-- The code opens a handling window on its unit by itself (Table 16.7); a station's window opens at its halt. -/
def Code.opens (c : Code) (u : UnitId) : Bool :=
  (c.fam = .lnk && (c.num = 2 || c.num = 3)) || (u.kind = .stack && c.fam = .mem && c.num = 2) ||
  (c.fam = .thm && (c.num = 5 || c.num = 7)) ||
  (u.kind = .device && u.remote = none && (c.cls = .fenced || c.cls = .fatal))

/-- A handling window opens (R408); the newest stands first. -/
def State.openWindow (s : State) (u : UnitId) (eid : Nat) (c : Code) : State :=
  if s.cat.windows.any (fun w => w.unit = u && w.code = c) then s
  else { s with cat := { s.cat with windows := ⟨u, eid, c.cls, c⟩ :: s.cat.windows } }

/-- The handling windows of a unit that `p` selects end (Table 16.7). -/
def State.closeWindows (s : State) (u : UnitId) (p : Code → Bool) : State :=
  { s with cat := { s.cat with windows := s.cat.windows.filter (fun w => !(w.unit = u && p w.code)) } }

/-- What a Fatal event does at once (R411): station clocks stop, every port goes down with its lasers off,
FLT_N is asserted. -/
def State.fatalStop (s : State) : State :=
  let s1 := { s with
    cat := { s.cat with fltFatal := true }
    cur := { s.cur with clocksOn := false, engOff := Vector.replicate 16 true } }
  allPorts.foldl (fun t p => t.portDown p) s1

/-- Raise a code with the temperature `temp` for its unit (R402, R403): the event is captured and posted; one of class Fenced
or Fatal bypasses the queue, and a full queue discards. -/
def State.raiseAt (s : State) (c : Code) (u : UnitId) (temp : Byte) (extra : List Word) : State :=
  let ev : Event :=
    { eid := s.cat.eid, ht := s.ht, code := c, cls := c.cls, unit := u, step := s.stepCur, temp := temp,
      tempMax := hottest s.cur.smp.tStn, load := s.loadOf u, detail := s.details c u extra,
      parent := (s.cat.windows.find? (fun w => w.unit = u)).map (fun w => (w.eid, w.cls)) }
  let s1 := { s with cat := { s.cat with eid := s.cat.eid + 1 } }
  let s2 :=
    if c.cls = .fenced ∨ c.cls = .fatal then { s1 with cat := { s1.cat with urgent := s1.cat.urgent ++ [ev] } }
    else if s1.cat.queue.length < 4096 then { s1 with cat := { s1.cat with queue := s1.cat.queue ++ [ev] } }
    else (s1.inc Reg.catLost).setBitEvt Reg.catStatus 4
  let s3 := if c.opens u then s2.openWindow u ev.eid c else s2
  if c.cls = .fatal then s3.fatalStop else s3

/-- Raise a code (R402): its temperature is that of its unit in the last sample. -/
def State.raise (s : State) (c : Code) (u : UnitId) (extra : List Word) : State := s.raiseAt c u (s.unitTemp u) extra

/-- Raise a code at most once for a unit and key in each step (R402). -/
def State.raiseOnce (s : State) (c : Code) (u : UnitId) (key : Nat) (extra : List Word) : State :=
  if s.cat.raised.contains (c, u, key) then s
  else ({ s with cat := { s.cat with raised := (c, u, key) :: s.cat.raised } }).raise c u extra

/-! ### Condition scores -/

/-- The score register of a unit (Table 16.14). -/
def scoreReg (u : UnitId) : Nat :=
  match u.kind with
  | .station => Reg.catCondStn u.index
  | .stack => Reg.catCondMem u.index
  | .engine => Reg.catCondOpt u.index
  | _ => Reg.catCondPrt u.index

/-- The advisory code of a unit (R417). -/
def advisoryOf (u : UnitId) : Code :=
  match u.kind with
  | .station => ⟨.stn, 10⟩
  | .stack => ⟨.mem, 6⟩
  | .engine => ⟨.lnk, 8⟩
  | _ => ⟨.lnk, 7⟩

/-- A score at or above a threshold sets its bit and raises the advisory with its level, once until it falls. -/
def State.scoreRise (s : State) (u : UnitId) (bit thr level : Nat) : State :=
  let a := scoreReg u
  if thr ≤ s.rf a 0 16 ∧ s.rbit a bit = false then
    ((s.setRf a bit 1 1).raise (advisoryOf u) u [word (s.rf a 0 16), word level]).curEvent 2
  else s

/-- A score gains a weight, saturating at 0xFFFF (R415, R417). -/
def State.addScore (s : State) (u : UnitId) (w : Nat) : State :=
  let a := scoreReg u
  let s1 := s.setRf a 0 16 (min 0xFFFF (s.rf a 0 16 + w))
  (s1.scoreRise u 16 (s.rf Reg.catCondWatch 0 16) 1).scoreRise u 17 (s.rf Reg.catCondMove 0 16) 2

/-- An event is raised and adds its weights (R415): an advisory that they raise comes of the same event, so that the window
which the event opens does not yet stand for it (Table 16.13). -/
def State.thenScore (s : State) (up : State → State) (l : List (UnitId × Nat)) : State :=
  let t := up s
  let v := l.foldl (fun a e => a.addScore e.1 e.2) { t with cat := { t.cat with windows := s.cat.windows } }
  { v with cat := { v.cat with windows := t.cat.windows } }

/-- The score of a link (R415): the higher of its ports' scores. -/
def State.linkScore (s : State) (p : PortId) : Nat :=
  (s.linkPorts p).foldl (fun m q => max m (s.rf (Reg.catCondPrt q.val) 0 16)) 0

/-- A bit of a score clears when the score is below half of its threshold (R417). -/
def State.scoreFall (s : State) (u : UnitId) : State :=
  let a := scoreReg u
  let s1 := if 2 * s.rf a 0 16 < s.rf Reg.catCondWatch 0 16 then s.setRf a 16 1 0 else s
  if 2 * s.rf a 0 16 < s.rf Reg.catCondMove 0 16 then s1.setRf a 17 1 0 else s1

end Sys2Proof.Machine
end

