-- ==== Sys2Proof/Machine/Voq.lean ====
section
/-! DEFINITION. Frames in virtual output queues: entering, holding ingress room or a Vitrine block, landing credit,
and being discarded (R278 to R293). -/

namespace Sys2Proof.Machine

open Sys2Proof

/-- The ingress pool of a class and escape hop (Table 11.3). -/
def poolOf (c : TClass) (esc : Nat) : Fin 6 := if c.val = 2 then (if esc = 2 then 5 else 2) else Fin.ofNat 6 c.val

/-- A frame that has no payload: it takes a header, not a block (R292). -/
def Wire.hdrOnly (w : Wire) : Bool := w.data.isEmpty

/-- The length of a frame through the Crossing (R48, R276): 32 bytes of header and the payload with sidecar. -/
def Wire.len (w : Wire) : Nat := 32 + w.data.length

/-- The member ports of a multicast group (Table 12.11). -/
def State.members (s : State) (m : Nat) : List PortId :=
  allPorts.filter (fun p => s.rbit (Reg.crsMcg m (p.val / 32)) (p.val % 32))

/-- One unit of link credit given to, or taken from, the sender at port `p` (R312). -/
def Prt.giveCredit (x : Prt) (pool : Fin 6) (hdr : Bool) : Prt :=
  if hdr then { x with crHdr := x.crHdr.set pool.val (x.crHdr[pool.val] + 1) }
  else { x with crBlk := x.crBlk.set pool.val (x.crBlk[pool.val] + 1) }

/-- One unit of link credit taken. -/
def Prt.takeCredit (x : Prt) (pool : Fin 6) (hdr : Bool) : Prt :=
  if hdr then { x with crHdr := x.crHdr.set pool.val (x.crHdr[pool.val] - 1) }
  else { x with crBlk := x.crBlk.set pool.val (x.crBlk[pool.val] - 1) }

/-- Link credit of a pool is at hand at port `p`. -/
def Prt.hasCredit (x : Prt) (pool : Fin 6) (hdr : Bool) : Bool :=
  if hdr then decide (0 < x.crHdr[pool.val]) else decide (0 < x.crBlk[pool.val])

/-- A frame of the partner takes ingress room for which the partner held credit (R292, R312). -/
def Prt.enterRoom (x : Prt) (pool : Fin 6) (hdr : Bool) : Prt :=
  if hdr then { x with hasHdr := x.hasHdr.set pool.val (x.hasHdr[pool.val] - 1),
                       useHdr := x.useHdr.set pool.val (x.useHdr[pool.val] + 1) }
  else { x with hasBlk := x.hasBlk.set pool.val (x.hasBlk[pool.val] - 1),
                useBlk := x.useBlk.set pool.val (x.useBlk[pool.val] + 1) }

/-- Ingress room of a port becomes free, to be advertised to the partner as link credit (R293). -/
def Prt.leaveRoom (x : Prt) (pool : Fin 6) (hdr : Bool) : Prt :=
  if hdr then { x with useHdr := x.useHdr.set pool.val (x.useHdr[pool.val] - 1) }
  else { x with useBlk := x.useBlk.set pool.val (x.useBlk[pool.val] - 1) }

/-- The port exists in the bundling mode (Table 12.1). -/
def State.present (s : State) (p : PortId) : Bool :=
  if s.bundle = 1 then p.val % 2 == 0 else if s.bundle = 2 then p.val % 4 == 0 else true

/-- The mode that the role of a port's station gives it (R47, R304): 0 down, 1 Carade Link, 2 Ethernet endpoint, 3 Ethernet
service. -/
def State.modeOf (s : State) (p : PortId) : Nat :=
  match s.role (stnOf p) with
  | 0 => 0
  | 1 => 1
  | 2 => 2
  | _ => s.rf (Reg.prtCfg p.val) 0 2

/-- The mode of a port; an absent port is down (R303). -/
def State.portMode (s : State) (p : PortId) : Nat := if !s.present p then 0 else s.modeOf p

/-- A fabric port. -/
def State.isFabric (s : State) (p : PortId) : Bool := s.portMode p == 1

/-- Whether a frame that leaves by a port takes a header credit: an endpoint grants credit in frames (R312). -/
def State.takesHdr (s : State) (p : PortId) (w : Wire) : Bool := w.hdrOnly && s.isFabric p

/-- Credit for a frame is given back. -/
def State.giveLink (s : State) (p : PortId) (w : Wire) : State :=
  s.modPt (s.credPort p) (fun x => x.giveCredit (poolOf w.tc w.esc) (s.takesHdr p w))

/-- What a frame held at its source station is given back (R281, R293). -/
def State.releaseHold (s : State) (n : StnId) : Hold → State
  | .none => s
  | .ingress pool hdr p b =>
    (s.modPt p (fun x => x.leaveRoom (Fin.ofNat 6 pool) hdr)).modSt n (fun x => { x with
      ingUsed := match b with | some k => x.ingUsed.erase k | none => x.ingUsed })
  | .vitrine b => s.freeTile n (some b)

/-- The block of the Cloakroom in which a frame for the Curator lies (Table 11.5) is freed. -/
def Stn.freeCurator (x : Stn) (f : VoqFrame) : Stn :=
  match f.landBlk, x.lay.fitPool f.wire.len with
  | some b, some i => x.freeBlk i b
  | _, _ => x

/-- The landing credit that a frame holds is given back (R282): a queue's entry and block, the link credit of each port that
was charged, or the Curator's block. -/
def State.releaseLanding (s : State) (f : VoqFrame) : State :=
  if !f.credit then s else
  match f.land with
  | .queue t q =>
    s.modSt t (fun x =>
      { x.freeTile f.landBlk with
        q := x.q.set q.val (x.q[q.val].filter (fun e => !(e.fill = .frame f.id))) })
  | .curator => s.modSt f.dst (fun x => x.freeCurator f)
  | _ => f.paid.foldl (fun u p => u.giveLink p f.wire) s

/-- A frame leaves its VOQ and everything it holds is given back: ageing (R286), release (R64), a fence (R68). -/
def State.dropFrame (s : State) (n : StnId) (f : VoqFrame) : State :=
  ((s.modSt n (fun x => { x with voq := x.voq.filter (fun g => !(g.id = f.id)) })).releaseHold n f.hold).releaseLanding f

/-- A frame enters the VOQ of its source station (R278); `aside` marks one in transit or a Tally copy, which is not on
its way to a hop of this device, `div` one that was diverted (R323). -/
def State.enterVoqAs (s : State) (n : StnId) (tc : TClass) (dst : StnId) (land : Landing) (w : Wire) (hold : Hold)
    (fromAs aside div : Bool) : State :=
  let f : VoqFrame :=
    { id := s.xbar.nextId, tc := tc, dst := dst, land := land, wire := w, hold := hold, entry := s.ht, credit := false,
      landBlk := none, paid := [], slipped := false, fromAs := fromAs, aside := aside,
      since := if div then some s.ht else none }
  ({ s with xbar := { s.xbar with nextId := s.xbar.nextId + 1 } }).modSt n (fun x => { x with voq := x.voq ++ [f] })

/-- A frame bound for a hop of this device enters the VOQ of its source station. -/
def State.enterVoq (s : State) (n : StnId) (tc : TClass) (dst : StnId) (land : Landing) (w : Wire) (hold : Hold)
    (fromAs div : Bool) : State := s.enterVoqAs n tc dst land w hold fromAs false div

/-- A station that takes no tile: fenced, or of role OFF (R64). -/
def State.offStation (s : State) (n : StnId) : Bool := s.role n = 0 || (s.st n).st = .fenced

end Sys2Proof.Machine
end

