-- ==== Sys2Proof/Machine/Fetch.lean ====
section
/-! DEFINITION. What stands at the program counters of a station: the words of the access stream with their legality
(Table 3.2, R83) and the bundles of the execute stream (R89 to R92, Tables 3.4 to 3.9). -/

namespace Sys2Proof.Machine

open Sys2Proof

/-! ### Instruction words (Table 3.2) -/

/-- The opcode. -/
def asOp (w : Word) : Nat := fld w 26 6
/-- GD. -/
def asGD (w : Word) : Fin 16 := Fin.ofNat 16 (fld w 22 4)
/-- GS. -/
def asGS (w : Word) : Fin 16 := Fin.ofNat 16 (fld w 18 4)
/-- GT. -/
def asGT (w : Word) : Fin 16 := Fin.ofNat 16 (fld w 14 4)
/-- IMM20. -/
def asImm20 (w : Word) : Nat := fld w 0 20
/-- IMM18, signed. -/
def asImm18 (w : Word) : Int := signed 18 (fld w 0 18)
/-- OFF, signed. -/
def asOff (w : Word) : Int := signed 16 (fld w 0 16)
/-- QT. -/
def asQT (w : Word) : Fin 8 := Fin.ofNat 8 (fld w 20 2)
/-- LST. -/
def asLst (w : Word) : Bool := bitOf w 19
/-- HT3. -/
def asHT3 (w : Word) : Fin 8 := Fin.ofNat 8 (fld w 16 3)
/-- ITIN. -/
def asItin (w : Word) : Nat := fld w 4 12
/-- HOP. -/
def asHop (w : Word) : Nat := fld w 0 4
/-- QA. -/
def asQA (w : Word) : Fin 8 := Fin.ofNat 8 (fld w 19 3)
/-- FL. -/
def asFL (w : Word) : Fin 32 := Fin.ofNat 32 (fld w 0 5)
/-- V. -/
def asV (w : Word) : Bool := bitOf w 5

/-- The bits that the fields of an opcode take (Tables 3.2 and 3.3); none for a reserved opcode. -/
def asMask (op : Nat) : Option Word :=
  match op with
  | 0x00 => some 0
  | 0x01 => some 0x0000FFFF
  | 0x02 => some 0x03C0FFFF
  | 0x03 => some 0x03C0FFFF
  | 0x04 => some 0
  | 0x05 => some 0x03C00000
  | 0x08 => some 0x03CFFFFF
  | 0x09 => some 0x03CFFFFF
  | 0x0A => some 0x03CFFFFF
  | 0x0B => some 0x03FFFFFF
  | 0x0C => some 0x03FFC000
  | 0x0D => some 0x03FFC000
  | 0x10 => some 0x03F8FFFF
  | 0x11 => some 0x03FFFFFF
  | 0x12 => some 0x03F80000
  | 0x13 => some 0x03F80000
  | 0x14 => some 0x00380000
  | 0x15 => some 0x03F80000
  | 0x16 => some 0x00380000
  | 0x17 => some 0x03C70000
  | 0x18 => some 0x03FFC01F
  | 0x1C => some 0x0000001F
  | 0x1D => some 0x0000001F
  | 0x1E => some 0x0000003F
  | _ => none

/-- A legal instruction: a defined opcode and 0 in every bit that no field takes (R83). -/
def asLegal (w : Word) : Bool :=
  match asMask (asOp w) with
  | some m => w &&& ~~~(m ||| 0xFC000000) == 0
  | none => false

/-- The instruction at the AS program counter; none past instruction 8,191. -/
def Stn.asWord (x : Stn) : Option Word :=
  if x.as.pc < 8192 then some (word (ofLE (Cells.read zeroByte x.asMem (4 * x.as.pc) 4))) else none

/-! ### Bundles -/

/-- One op of a bundle: its slot in the order D, A, Z, L, P, C and its word. -/
structure XOp where
  slot : Nat
  w    : Word
  deriving DecidableEq, Repr

/-- The opcode. -/
def XOp.op (o : XOp) : Nat := fld o.w 26 6
/-- The number of a T register in four bits from `lo`. -/
def XOp.t (o : XOp) (lo : Nat) : Fin 16 := Fin.ofNat 16 (fld o.w lo 4)
/-- The number of an X register in five bits from `lo`. -/
def XOp.x (o : XOp) (lo : Nat) : Fin 32 := Fin.ofNat 32 (fld o.w lo 5)
/-- TD. -/
def XOp.td (o : XOp) : Fin 16 := o.t 22
/-- TA. -/
def XOp.ta (o : XOp) : Fin 16 := o.t 18
/-- TB. -/
def XOp.tb (o : XOp) : Fin 16 := o.t 14
/-- TC, TM, MODE and KT stand in bits 13 to 10. -/
def XOp.mode (o : XOp) : Nat := fld o.w 10 4
/-- ACC or EA in bits 25 and 24. -/
def XOp.acc (o : XOp) : Fin 4 := Fin.ofNat 4 (fld o.w 24 2)
/-- ACC or EA of dout and xout, in bits 21 and 20. -/
def XOp.accOut (o : XOp) : Fin 4 := Fin.ofNat 4 (fld o.w 20 2)
/-- Q of pop and push. -/
def XOp.q (o : XOp) : Fin 8 := Fin.ofNat 8 (fld o.w 19 3)
/-- QI of run. -/
def XOp.qi (o : XOp) : Fin 4 := Fin.ofNat 4 (fld o.w 24 2)
/-- QO of run. -/
def XOp.qo (o : XOp) : Fin 8 := Fin.ofNat 8 (fld o.w 21 3)
/-- FL of the flag ops. -/
def XOp.fl (o : XOp) : Fin 32 := Fin.ofNat 32 (fld o.w 0 5)
/-- The op is of a slot and opcode. -/
def XOp.is (o : XOp) (slot op : Nat) : Bool := o.slot == slot && o.op == op

/-- The bits that the fields of an op take (Tables 3.4 to 3.9); none for a reserved opcode. -/
def xMask (slot op : Nat) : Option Word :=
  match slot, op with
  | 0, 0x01 => some 0x033FC000
  | 0, 0x02 => some 0x033FFC00
  | 0, 0x03 => some 0x03FFFFFF
  | 0, 0x04 => some 0x03000000
  | 1, 0x01 => some 0x03FFE000
  | 1, 0x02 => some 0x03000000
  | 1, 0x03 => some 0x033C0000
  | 1, 0x04 => some 0x03F02000
  | 2, 0x01 => some 0x03FFFC1F
  | 2, 0x02 => some 0x03FFC01F
  | 2, 0x03 => some 0x03FFC01F
  | 2, 0x04 => some 0x03FFC3FF
  | 2, 0x05 => some 0x03FC3C1F
  | 2, 0x06 => some 0x03FC3C1F
  | 2, 0x07 => some 0x003C03E0
  | 3, 0x01 => some 0x03FFF000
  | 4, 0x01 => some 0x03FC3C00
  | 4, 0x02 => some 0x03FFFC00
  | 4, 0x03 => some 0x03FC03E0
  | 5, 0x01 => some 0
  | 5, 0x02 => some 0x0000FFFF
  | 5, 0x03 => some 0x03F80000
  | 5, 0x04 => some 0x003BC000
  | 5, 0x05 => some 0x03C00000
  | 5, 0x06 => some 0x0000001F
  | 5, 0x07 => some 0x0000001F
  | 5, 0x08 => some 0x0000003F
  | 5, 0x09 => some 0x03E0FFFF
  | 5, 0x0A => some 0x03E0FFFF
  | 5, 0x0B => some 0x03FFFFFF
  | 5, 0x0C => some 0x03FFF800
  | 5, 0x0D => some 0x0000FFFF
  | 5, 0x0E => some 0x001FFFFF
  | 5, 0x0F => some 0x03E0FFFF
  | 5, 0x10 => some 0x03E3C007
  | 5, 0x11 => some 0x001FC007
  | 5, 0x12 => some 0
  | _, _ => none

/-- Tile blocks that an op reserves at issue (R93, R261). -/
def XOp.blocks (o : XOp) : Nat :=
  match o.slot, o.op with
  | 0, 0x03 => 1
  | 1, 0x01 => 1
  | 1, 0x04 => 1
  | 2, 0x07 => 0
  | 2, _ => 1
  | 4, 0x02 => 2
  | 4, _ => 1
  | _, _ => 0

/-- Tile blocks that a bundle reserves. -/
def bundleNeed (ops : List XOp) : Nat := (ops.map XOp.blocks).foldl (· + ·) 0

/-- The fields that select the op's function hold no reserved value, and its queues lie in its column of Table 3.1
(R92, R74, R233): MODE of fn and run, KT, N of idle, the queues. -/
def XOp.selects (o : XOp) : Bool :=
  match o.slot, o.op with
  | 2, 0x06 => decide (o.mode ≤ 3)
  | 3, 0x01 => decide (fld o.w 17 4 ≤ 4) && decide (o.qo.val ≠ o.qi.val)
  | 4, 0x01 => decide (o.mode ≤ 5)
  | 4, 0x02 => decide (o.mode ≤ 5)
  | 5, 0x02 => decide (fld o.w 0 16 ≠ 0)
  | 5, 0x03 => decide (o.q.val ≤ 3)
  | 5, 0x04 => decide (4 ≤ o.q.val)
  | _, _ => true

/-- The op is legal (R92). -/
def XOp.legal (o : XOp) : Bool :=
  match xMask o.slot o.op with
  | some m => o.w &&& ~~~(m ||| 0xFC000000) == 0 && o.selects
  | none => false

/-- What fetch finds: a bundle with its byte address, ops and length, or an illegal one with the slot that says so. -/
inductive Fetch where
  | bundle (pc : Nat) (ops : List XOp) (len : Nat)
  | bad (pc slot : Nat)
  deriving DecidableEq, Repr

/-- The slots whose bit is 1 in MASK. -/
def slotsOf (mask : Nat) : List Nat := (List.range 6).filter (fun i => mask / 2 ^ i % 2 == 1)

/-- Fetch from byte `pc` (R89 to R92): padding moves on to the next line; `red` is a reducing station, where an A-slot
op is illegal (R154). -/
def Stn.fetch (x : Stn) (red : Bool) : Nat → Nat → Fetch
  | 0, pc => .bad pc 7
  | fuel + 1, pc =>
    if 0x20000 ≤ pc then .bad pc 7
    else
      let hdr := ofLE (Cells.read zeroByte x.xsMem pc 2)
      if hdr = 0 then x.fetch red fuel ((pc / 64 + 1) * 64)
      else
        let slots := slotsOf (hdr % 64)
        let len := hdr / 64 % 16
        if slots.isEmpty || decide (1024 ≤ hdr) || slots.length != len || decide (64 < pc % 64 + 2 + 4 * len) then .bad pc 7
        else
          let ops := slots.zipIdx.map (fun p => XOp.mk p.1 (word (ofLE (Cells.read zeroByte x.xsMem (pc + 2 + 4 * p.2) 4))))
          match ops.find? (fun o => !o.legal || (red && o.slot == 1)) with
          | some o => .bad pc o.slot
          | none => .bundle pc ops (2 + 4 * len)

end Sys2Proof.Machine
end

