-- ==== Sys2Proof/Machine/Cycle.lean ====
section
/-! DEFINITION. The cycle of a station: who has acted in it, the writes of the flags (R78, R79), and the pushes and pops
of its queues with their priorities (R74, R75, Table 3.1). A cycle ends with the tick, and where a stream or Lupin acts
again (log entry 106). -/

namespace Sys2Proof.Machine

open Sys2Proof

/-- The units of a station that act in a cycle of their own. -/
inductive Actor where
  | as | xs | lupin
  deriving DecidableEq, Repr

/-- A unit has acted, or tried to, in the current cycle. -/
def Stn.didAct (x : Stn) : Actor → Bool
  | .as => x.cyc.didAs
  | .xs => x.cyc.didXs
  | .lupin => x.cyc.didLup

/-- The next cycle begins: the writes of the flags have taken effect (R78), and a cut that a write arms is armed (R109). -/
def Stn.newCycle (x : Stn) : Stn :=
  { x with cyc := Cyc.of x.flags, cut := { x.cut with armed := x.cut.armed || x.cut.arming, arming := false } }

/-- A unit is marked as having acted. -/
def Cyc.mark (c : Cyc) : Actor → Cyc
  | .as => { c with didAs := true }
  | .xs => { c with didXs := true }
  | .lupin => { c with didLup := true }

/-- A unit acts: in the current cycle, or in the next one where it has acted in this. -/
def Stn.act (x : Stn) (u : Actor) : Stn :=
  let y := if x.didAct u then x.newCycle else x
  { y with cyc := y.cyc.mark u }

/-- A unit of station `n` acts. -/
def State.act (s : State) (n : StnId) (u : Actor) : State := s.modSt n (fun x => x.act u)

/-! ### Flags (R78, R79) -/

/-- The flags of `m` are set: a set wins over every clear of its cycle, but for the clear of a start. -/
def Stn.setFlags (x : Stn) (m : Word) : Stn :=
  { x with flags := if x.cyc.start then x.flags else x.flags ||| m, cyc := { x.cyc with sets := x.cyc.sets ||| m } }

/-- The flags of `m` are cleared, but for those that this cycle sets. -/
def Stn.clrFlags (x : Stn) (m : Word) : Stn := { x with flags := x.flags &&& ~~~(m &&& ~~~x.cyc.sets) }

/-- The mask of one flag. -/
def flagBit (f : Fin 32) : Word := word (2 ^ f.val)

/-- A flag takes a value at the end of the cycle. -/
def Stn.setFlag (x : Stn) (f : Fin 32) (b : Bool) : Stn := if b then x.setFlags (flagBit f) else x.clrFlags (flagBit f)

/-- A flag as it reads in this cycle: its value at the start of the cycle. -/
def Stn.flagNow (x : Stn) (f : Fin 32) : Bool := bitOf x.cyc.flags f.val

/-! ### Queues (R74, R75, R77) -/

/-- The entries that a queue held at the start of the cycle. -/
def Stn.startLen (x : Stn) (q : Fin 8) : Nat :=
  (x.q[q.val]).length + b2n (x.cyc.popped.contains q) - b2n (x.cyc.pushed.contains q)

/-- The queue accepts a push in this cycle: its first, at fewer than eight entries. -/
def Stn.canPush (x : Stn) (q : Fin 8) : Bool := !x.cyc.pushed.contains q && decide (x.startLen q < 8)

/-- The queue allows a pop in this cycle: its first, of an entry that it held at the start. -/
def Stn.canPop (x : Stn) (q : Fin 8) : Bool := !x.cyc.popped.contains q && decide (0 < x.startLen q)

/-- An entry joins a queue. -/
def Stn.push (x : Stn) (q : Fin 8) (e : QEntry) : Stn :=
  { x with q := x.q.set q.val (x.q[q.val] ++ [e]), cyc := { x.cyc with pushed := q :: x.cyc.pushed } }

/-- The head leaves a queue. -/
def Stn.pop (x : Stn) (q : Fin 8) : Stn :=
  { x with q := x.q.set q.val x.q[q.val].tail, cyc := { x.cyc with popped := q :: x.cyc.popped } }

/-- A queue's head, when it may be popped and its data have arrived (R77). -/
def Stn.headReady (x : Stn) (q : Fin 8) : Option Tile :=
  if !x.canPop q then none
  else match x.q[q.val] with
  | e :: _ => if e.fill = .ready then some e.tile else none
  | [] => none

/-- The wait of a bundle's queue, flag and job-queue ops, if any (R95); c.stepw is apart. -/
def Stn.bundleWait (x : Stn) (ops : List XOp) : Option (WaitKind × Nat) :=
  ops.findSome? (fun o =>
    if o.is 5 3 then (if (x.headReady o.q).isNone then some (.queueEmpty, o.q.val) else none)
    else if o.is 5 4 then (if !x.canPush o.q then some (.queueFull, o.q.val) else none)
    else if o.is 5 8 then (if x.flagNow o.fl = bitOf o.w 5 then none else some (.flag, o.fl.val))
    else if o.is 3 1 then (if 4 ≤ x.lup.jobs.length then some (.lupinQueue, 0) else none)
    else none)

/-- The ops of the bundle that the XS would issue in this cycle, as far as its queues and flags let it: none while a c.idle
runs. -/
def Stn.xsBundle (x : Stn) : List XOp :=
  if x.st = .running && !x.cyc.didXs && x.xs.idle == 0 && x.xs.wait ≠ .stepEnd then
    match x.fetch false 2049 x.xs.pc with
    | .bundle _ ops _ => if (x.bundleWait ops).isNone then ops else []
    | .bad _ _ => []
  else []

/-- The XS would ask for a tile block in this cycle: its bundle lacks one. -/
def Stn.xsAsks (x : Stn) : Bool := decide (x.xs.got.length < bundleNeed x.xsBundle)

/-- The queue of the load at the AS program counter that the AS would take an entry of in this cycle. -/
def Stn.asLoads (x : Stn) : Option (Fin 8) :=
  match x.asWord with
  | some w =>
    if x.st = .running && !x.cyc.didAs && (asOp w == 0x10 || asOp w == 0x11) && asLegal w && x.canPush (asQT w) then
      some (asQT w)
    else none
  | none => none

/-- The AS would ask for a tile block in this cycle. -/
def Stn.asAsks (x : Stn) : Bool := x.asLoads.isSome

/-- Lupin would ask for a tile block in this cycle: for an output that waits to be formed. -/
def Stn.lupAsks (x : Stn) : Bool :=
  x.st = .running && !x.cyc.didLup && !x.lup.stuck && (x.lup.todo.head?).any (fun o => !o.1.hdrOnly)

/-- A requester will ask the tile pool in this cycle: the XS for its bundle, Lupin for an output that waits to be formed, the
AS for its load. -/
def Stn.willAsk (x : Stn) (i : Nat) : Asker → Bool
  | .xs => x.lay.tilePool == some i && x.xsAsks
  | .lupin => x.lay.tilePool == some i && x.lupAsks
  | .as => x.lay.tilePool == some i && x.asAsks
  | _ => false

/-- Another request for a block of the pool is served first (R297): one that waits, or, where this one is made in this tick,
one that a requester which stands first has yet to make in it. -/
def Stn.outranked (x : Stn) (t : DWord) (i : Nat) (who : Asker) (key : Nat) : Bool :=
  x.waitsAhead t i who key || (x.reqMade t i who key == t &&
    [Asker.xs, .lupin, .as].any (fun a => decide (a.rank < who.rank) && x.willAsk i a))

/-- A tile block would be given to a stream in this cycle. -/
def Stn.blockComes (x : Stn) (t : DWord) (who : Asker) : Bool :=
  match x.lay.tilePool with
  | some i => !x.cyc.given.contains i && !x.outranked t i who 0 && (x.lowestFree i).isSome
  | none => false

/-- The ops of the bundle that the XS would issue in this cycle, its tile blocks at hand or with the one that comes. -/
def Stn.xsNext (x : Stn) (t : DWord) : List XOp :=
  let need := bundleNeed x.xsBundle
  if need ≤ x.xs.got.length || (need == x.xs.got.length + 1 && x.blockComes t .xs) then x.xsBundle else []

/-- The AS would push to queue `q` in this cycle: its instruction is a tld or tldp that names it, and its block comes. -/
def Stn.asPushes (x : Stn) (t : DWord) (q : Fin 8) : Bool :=
  x.asLoads == some q && x.blockComes t .as

/-- An output of Lupin that may be pushed now: gather keeps its newest until another follows or its last input is in. -/
def Lupin.pushable (l : Lupin) (j : LupJob) : Bool :=
  !l.outs.isEmpty && (l.ended || j.mode != 2 || decide (1 < l.outs.length + l.todo.length))

/-- Lupin looks for the next input: it works on none, no output waits for its block, and none is left that it may push. -/
def Lupin.wantsInput (l : Lupin) (j : LupJob) : Bool := !l.ended && l.hand.isNone && l.keep.isNone && !l.pushable j

/-- Lupin would push to queue `q` in this cycle. -/
def Stn.lupPushes (x : Stn) (q : Fin 8) : Bool :=
  x.st = .running && !x.cyc.didLup && x.lup.cur.any (fun j => j.qo == q && x.lup.pushable j)

/-- Lupin would pop queue `q` in this cycle: the input of its job. -/
def Stn.lupPops (x : Stn) (q : Fin 8) : Bool :=
  x.st = .running && !x.cyc.didLup &&
  x.lup.cur.any (fun j => j.qi.val == q.val && x.lup.wantsInput j)

/-- Lupin may push to a queue: no producer that stands before it in Table 3.1 would. -/
def Stn.lupMayPush (x : Stn) (t : DWord) (q : Fin 8) : Bool :=
  x.canPush q && !x.asPushes t q && !((x.xsNext t).any (fun o => o.is 5 4 && o.q == q))

/-- A delivery of the Crossing may take an entry of a queue: no other producer would. -/
def Stn.landMayPush (x : Stn) (t : DWord) (q : Fin 8) : Bool := x.canPush q && !x.asPushes t q && !x.lupPushes q

/-- Lupin may pop a queue, and what it pops: the XS would not. -/
def Stn.lupPop (x : Stn) (t : DWord) (q : Fin 8) : Option Tile :=
  if (x.xsNext t).any (fun o => o.is 5 3 && o.q == q) then none else x.headReady q

/-- The AS may pop a queue, and what it pops: neither the XS nor Lupin would. -/
def Stn.asPopHead (x : Stn) (t : DWord) (q : Fin 8) : Option Tile :=
  if (x.xsNext t).any (fun o => o.is 5 3 && o.q == q) || x.lupPops q then none else x.headReady q

end Sys2Proof.Machine
end

