-- ==== Sys2Proof/Machine/Cloakroom.lean ====
section
/-! DEFINITION. The allocation of Cloakroom blocks (R296 to R298): one in each tick of a pool, and the requests that wait. -/

namespace Sys2Proof.Machine

open Sys2Proof

/-- Block `b` of pool `i` is given to a request. -/
def Stn.giveBlk (x : Stn) (i b : Nat) (who : Asker) (key : Nat) : Stn :=
  { x with used := x.used.set i (b :: x.usedOf i), cyc := { x.cyc with given := i :: x.cyc.given },
           reqs := x.reqs.filter (fun r => !(r.pool = i && r.of who key)) }

/-- Allocate the lowest free block of the pool that serves `size` bytes (R296, R297): one in each tick of a pool, and to
the request that is first in line. -/
def State.alloc (s : State) (n : StnId) (who : Asker) (key size : Nat) : Option (Nat × Nat × State) :=
  match (s.st n).lay.fitPool size with
  | none => none
  | some i =>
    if (s.st n).cyc.given.contains i || (s.st n).outranked s.ht i who key then none
    else match (s.st n).lowestFree i with
    | none => none
    | some b => some (i, b, (s.modSt n (fun x => x.giveBlk i b who key)).clkLow n i)

/-- Allocate a tile block. -/
def State.allocTile (s : State) (n : StnId) (who : Asker) (key : Nat) : Option (Nat × State) :=
  match s.alloc n who key 4352 with
  | some (_, b, s1) => some (b, s1)
  | none => none

/-- The request of a requester for `size` bytes waits, from the tick in which it was made (R297, R298). -/
def State.clkWait (s : State) (n : StnId) (who : Asker) (key size : Nat) : State :=
  match (s.st n).lay.fitPool size with
  | none => s
  | some i => s.modSt n (fun x => { x with
      reqs := ⟨i, who, key, x.reqMade s.ht i who key, s.ht⟩ :: x.reqs.filter (fun r => !(r.pool = i && r.of who key)) })

/-- A tick in which any requester waited on any pool counts in STN_CLK_WAIT (R298). -/
def State.countWait (s : State) (n : StnId) : State :=
  if (s.st n).reqs.any ((s.st n).reqLive s.ht) then s.inc (Reg.stnClkWait n.val) else s

end Sys2Proof.Machine
end

