-- ==== Sys2Proof/Machine/Station.lean ====
section
/-! DEFINITION. A station as a whole: the landing of engine results (R97 to R99), halt (R66), fence (R68), restart
(R67), the start and stop of the streams (R73), the cut's test and freeze (R109 to R113). -/

namespace Sys2Proof.Machine

open Sys2Proof

/-! ### Numerical flags (R125, R145) -/

/-- Flags set in STN_NUM_FLAGS; NUM-01 for each whose REPORT bit is 1, at most once per flag and step. -/
def State.numFlags (s : State) (n : StnId) (flags : BitVec 5) (th : TH) : State :=
  (List.range 5).foldl (fun t i =>
    if flags.getLsbD i then
      let t1 := t.setBitEvt (Reg.stnNumFlags n.val) i
      if t1.rbit (Reg.stnNumCtrl n.val) (8 + i) && !((t1.st n).numDone.getLsbD i) then
        (t1.modSt n (fun x => { x with numDone := x.numDone ||| BitVec.ofNat 5 (2 ^ i) })).raise ⟨.num, 1⟩ (uStn n)
          [word i, th.haltWord]
      else t1
    else t) s

/-! ### Landing -/

/-- A stands no later than b in the order of landing (R99): issue cycle, then order of issue, then slot. -/
def Pend.le (a b : Pend) : Bool :=
  decide (a.land < b.land) || (decide (a.land = b.land) &&
    (decide (a.order < b.order) || (decide (a.order = b.order) && decide (a.slot ≤ b.slot))))

/-- A pending result put in its place. -/
def Pend.insert (p : Pend) : List Pend → List Pend
  | [] => [p]
  | q :: r => if p.le q then p :: q :: r else q :: Pend.insert p r

/-- Pending results in the order of landing. -/
def Pend.sort (l : List Pend) : List Pend := l.foldr Pend.insert []

/-- The block of the frame in a T register is freed and the register takes a new content (R93). -/
def Stn.replaceT (x : Stn) (d : Fin 16) (t : Option Tile) : Stn :=
  let y := x.freeTile (match x.xs.t[d.val] with | some u => u.blk | none => none)
  { y with xs := { y.xs with t := y.xs.t.set d.val t } }

/-- A tile with its bytes lands in a T register: the bytes stand in its block. -/
def Stn.landTile (x : Stn) (d : Fin 16) (th : TH) (b : Nat) (bytes : List Byte) : Stn :=
  (x.vitPut (x.lay.blkAddr b) bytes).replaceT d (some ⟨th, some b⟩)

/-- The place of an FP32 pattern in the order of the numbers: sign and magnitude. -/
def keyF32 (w : Word) : Int := if bitOf w 31 then -(fld w 0 31 : Nat) else (fld w 0 31 : Nat)

/-- The running maximum of cvt (R133): the larger FP32 value. -/
def maxF32 (a b : Word) : Word := if keyF32 a ≤ keyF32 b then b else a

/-- An FP32 pattern is a NaN. -/
def nanF32 (w : Word) : Bool := decide (0x7F800000 < fld w 0 31)

/-- A landed word of a header: the word with its own reserved bits cleared, the other words as they stand (R96). -/
def TH.putWord (t : TH) (w : Nat) (v : Word) : TH := t.set w ((t.set w v).clean.get w)

/-- The frame of a T register takes a header. One that becomes header-only gives up its tile block and its shape (R57); to one
that holds no block c.wrth gives none, and it stays header-only (log entry 131). -/
def Stn.putTh (x : Stn) (d : Fin 16) (t : Tile) (th : TH) : Stn :=
  if th.hdrOnly then x.replaceT d (some ⟨{ th with w0 := 0 }, none⟩)
  else if t.blk.isNone then
    { x with xs := { x.xs with t := x.xs.t.set d.val (some ⟨{ th with w0 := 0, w1 := setFld th.w1 0 1 1 }, none⟩) } }
  else { x with xs := { x.xs with t := x.xs.t.set d.val (some { t with th := th }) } }

/-- What a result does in its registers when it lands. -/
def Stn.landRes (x : Stn) : Result → Stn
  | .tile d th b bytes m =>
    let y := x.landTile d th b bytes
    match m with
    | some v => { y with xs := { y.xs with x := y.xs.x.set 31 (maxF32 y.xs.x[31] v) } }
    | none => y
  | .tile2 d th b bytes th2 b2 bytes2 =>
    (x.landTile d th b bytes).landTile (Fin.ofNat 16 (d.val ^^^ 1)) th2 b2 bytes2
  | .x d v => { x with xs := { x.xs with x := x.xs.x.set d.val v } }
  | .acc i a => { x with xs := { x.xs with acc := x.xs.acc.set i.val a } }
  | .ea i c => { x with xs := { x.xs with ea := x.xs.ea.set i.val c } }
  | .thWord d w v =>
    match x.xs.t[d.val] with
    | some t => x.putTh d t (t.th.putWord w.val v)
    | none => x
  | .frame d t => x.replaceT d (some t)
  | .empty d => x.replaceT d none
  | .superseded => x

/-- The accumulator that a result is for: Dahlia's or Aster's. -/
def Result.accOf : Result → Option (Nat × Nat)
  | .acc i _ => some (0, i.val)
  | .ea i _ => some (1, i.val)
  | _ => none

/-- A result for accumulator `a`, of an op issued before one that has landed there, lands no more: the later value holds
it (R96). -/
def Pend.supersede (a : Option (Nat × Nat)) (order : Nat) (p : Pend) : Pend :=
  if a.isSome && p.res.accOf == a && decide (p.order < order) then { p with res := .superseded } else p

/-- An accumulator has landed: results of ops issued before it that are still pending there give way. -/
def Stn.settleAcc (x : Stn) (a : Option (Nat × Nat)) (order : Nat) : Stn :=
  { x with xs := { x.xs with pend := x.xs.pend.map (Pend.supersede a order) } }

/-- A result takes part in the running maximum of cvt. -/
def Result.runs : Result → Bool
  | .tile _ _ _ _ m => m.isSome
  | _ => false

/-- The running maximum with a NaN that a program put into X31 is not stated: X31 takes a free value (log entry 107). -/
def State.freeMax (s : State) (n : StnId) : State :=
  let f := s.fresh 32
  f.2.modSt n (fun x => { x with xs := { x.xs with x := x.xs.x.set 31 f.1 } })

/-- One pending result lands: its registers, its flags, its record counts. -/
def State.landOne (s : State) (n : StnId) (p : Pend) : State :=
  let s0 := s.modSt n (fun x => (x.landRes p.res).settleAcc p.res.accOf p.order)
  let s1 := if p.res.runs && nanF32 (s.st n).xs.x[31] then s0.freeMax n else s0
  let s2 := if p.recs = 0 then s1 else s1.addSat (Reg.stnPhxRecs n.val) p.recs
  let s3 := if p.kept = 0 then s2 else s2.addSat (Reg.stnPhxKept n.val) p.kept
  s3.numFlags n p.flags p.th

/-- The first pending results in the order of landing land, at most `k` of them, as far as they land before issue cycle `c`
where one is given. -/
def State.landFirst (n : StnId) (c : Option Nat) : Nat → State → State
  | 0, s => s
  | k + 1, s =>
    match (Pend.sort ((s.st n).xs.pend.filter (fun p => c.all (fun b => decide (p.land < b))))).head? with
    | none => s
    | some p =>
      State.landFirst n c k
        ((s.modSt n (fun x => { x with xs := { x.xs with pend := x.xs.pend.erase p } })).landOne n p)

/-- Every pending result that lands before issue cycle `c` lands, in order. -/
def State.landDue (s : State) (n : StnId) (c : Nat) : State := State.landFirst n (some c) (s.st n).xs.pend.length s

/-- Every op issued has landed (R100). -/
def State.landAll (s : State) (n : StnId) : State := State.landFirst n none (s.st n).xs.pend.length s

/-! ### Releasing tiles -/

/-- The block of a queue entry is freed. -/
def Stn.freeEntry (x : Stn) (e : QEntry) : Stn := x.freeTile e.tile.blk

/-- Tiles held in Q0 to Q7 that have arrived, and in T0 to T15 (R67). An entry reserved for data that have not arrived is
no held tile: it is dropped, its block freed, and it is not counted (log entry 108). -/
def Stn.tileCount (x : Stn) : Nat :=
  ((x.q.toList.map (fun l => (l.filter (fun e => e.fill = .ready)).length)).foldl (· + ·) 0) +
    (x.xs.t.toList.filter (fun t => t.isSome)).length

/-- Queue entries that stay: those a crossing frame has reserved. -/
def QEntry.crossing (e : QEntry) : Bool := match e.fill with | .frame _ => true | _ => false

/-- Q0 to Q7 are emptied but for entries reserved for frames that cross, which land there later (log entry 109); the loads
that filled the others are dropped. -/
def Stn.clearQueues (x : Stn) : Stn :=
  let y := x.q.toList.foldl (fun z l => (l.filter (fun e => !e.crossing)).foldl Stn.freeEntry z) x
  { y with q := y.q.map (fun l => l.filter QEntry.crossing), loads := [] }

/-- T0 to T15 are emptied and their blocks freed. -/
def Stn.clearT (x : Stn) : Stn := (List.finRange 16).foldl (fun y d => y.replaceT d none) x

/-- The tiles that Lupin holds (R234, R237): inputs, the one it works on among them, and outputs formed and not yet pushed. -/
def Lupin.tiles (l : Lupin) : List Tile := l.held.map (fun h => h.tile) ++ l.hand.toList ++ l.outs

/-- How many they are. -/
def Stn.lupinCount (x : Stn) : Nat := x.lup.tiles.length

/-- Lupin's job queue is emptied and the tiles it holds are released (R237). -/
def Stn.clearLupin (x : Stn) : Stn := { x.lup.tiles.foldl (fun y t => y.freeTile t.blk) x with lup := Lupin.reset }

/-- Lupin is emptied and its tiles counted in STN_DISCARDED (R237). -/
def State.dropLupin (s : State) (n : StnId) : State :=
  (s.addSat (Reg.stnDiscarded n.val) (s.st n).lupinCount).modSt n Stn.clearLupin

/-! ### The cut's test (R109) and freeze (R110) -/

/-- The count that the cut's mode selects; none when the cut is off. -/
def State.cutCount (s : State) (n : StnId) : Option DWord :=
  let m := s.rf (Reg.stnCutCtrl n.val) 0 2
  if m = 1 then some (s.st n).cut.nb else if m = 2 then some (s.st n).cut.nt else none

/-- Issue cycles until the last pending result of an engine's slot lands, saturating at 255 (STN_CUT_PEND). -/
def Stn.pendLeft (x : Stn) (slot : Nat) : Nat :=
  let l := (x.xs.pend.filter (fun p => p.slot = slot)).map (fun p => p.land + 1 - x.xs.ic)
  min 255 (l.foldl max 0)

/-- STN_CUT_STAT, the tick and the in-flight results of a freeze (R110). -/
def State.stampFreeze (s : State) (n : StnId) (passed : Bool) (pend : Word) : State :=
  let s2 := s.setRf (Reg.stnCutStat n.val) 0 1 1
  let s3 := if passed then s2.setRf (Reg.stnCutStat n.val) 1 1 1 else s2
  (s3.setRg64 (Reg.stnCutHtLo n.val) s.ht).setRg (Reg.stnCutPend n.val) pend

/-- STN_CUT_PEND of a station (Table 4.2). -/
def Stn.cutPend (x : Stn) : Word :=
  word (x.pendLeft 0 + x.pendLeft 1 * 2 ^ 8 + x.pendLeft 2 * 2 ^ 16 + x.pendLeft 4 * 2 ^ 24)

/-- The station freezes: STATE halted, HIT, the tick and the in-flight results recorded, interrupt (R110). -/
def State.freeze (s : State) (n : StnId) (passed : Bool) : State :=
  let s0 := s.landDue n (s.st n).xs.ic
  let s1 := s0.modSt n (fun x => { x with st := .halted, cut := { x.cut with due := false, toIdle := false } })
  (s1.stampFreeze n passed (s0.st n).cutPend).vector n.val

/-- The count that the cut selects is already at or above STN_CUT_AT. -/
def State.cutPassed (s : State) (n : StnId) : Bool :=
  (s.cutCount n).any (fun c => decide ((s.rg64 (Reg.stnCutAtLo n.val)).toNat ≤ c.toNat))

/-- The cut is tested (R109): a running station whose count has passed freezes at once. One that a write of this cycle arms is
tested as armed at a start or at RESUME, whose streams issue from the next cycle on (log entry 135). -/
def State.testCut (s : State) (n : StnId) : State :=
  if ((s.st n).cut.armed || (s.st n).cut.arming) && (s.st n).st = .running && s.cutPassed n then s.freeze n true else s

/-- An event was counted: the cut hits when its count has reached STN_CUT_AT (R108). -/
def State.cutHits (s : State) (n : StnId) : Bool :=
  match s.cutCount n with
  | none => false
  | some c => (s.st n).cut.armed && c == s.rg64 (Reg.stnCutAtLo n.val)

/-! ### Stop, halt, fence -/

/-- The blocks at hand of a bundle that waits for more are freed. -/
def Stn.dropGot (x : Stn) : Stn :=
  let y := x.xs.got.foldl (fun z b => z.freeTile (some b)) x
  { y with xs := { y.xs with got := [] } }

/-- Both streams wait on nothing and lose their recorded step. -/
def Stn.clearWaits (x : Stn) : Stn :=
  let y := x.dropGot
  { y with as := { y.as with wait := .none, obj := 0, stepRec := none },
           xs := { y.xs with wait := .none, obj := 0, stepRec := none, idle := 0, stop := false } }

/-- Outstanding bcopies complete without setting their flags and hold no place (R86). -/
def Stn.killCopies (x : Stn) : Stn := { x with bcopies := x.bcopies.map (fun b => { b with live := false }) }

/-- Fence a station (R68): streams stop, VOQ contents, queues and tile registers are discarded and counted, its ports
go down, STATE is fenced. -/
def State.fence (s : State) (n : StnId) : State :=
  let s1 := s.landAll n
  let voq := (s1.st n).voq
  let s2 := s1.addSat (Reg.stnDiscarded n.val) ((s1.st n).tileCount + voq.length)
  let s3 := voq.foldl (fun t f => t.dropFrame n f) s2
  let s4 := s3.dropLupin n
  let s5 := s4.modSt n (fun x => { (x.clearQueues.clearT.killCopies.clearWaits) with st := .fenced })
  let s6 := (s5.portDown (portId (2 * n.val))).portDown (portId (2 * n.val + 1))
  (s6.closeWindows (uStn n) (fun _ => true)).vector n.val

/-- The code word of a code raised on a station, as word 3 of its record has it (Table 16.3). -/
def codeWord (c : Code) (nested : Bool) : Word :=
  word (c.num + c.fam.number * 2 ^ 8 + c.cls.number * 2 ^ 12 + b2n nested * 2 ^ 15)

/-- A halted station's escalation (R409). -/
def State.escalate (s : State) (n : StnId) (c : Code) : State :=
  let lim := s.rf Reg.catEsc 0 4
  if lim ≠ 0 ∧ (s.st n).halts = lim then (s.fence n).raise ⟨.stn, 11⟩ (uStn n) [codeWord c false] else s

/-- The current cycle is the freeze cycle of a cut that was hit (R108): the cycle of the counted event, for a bundle with
c.idle the last of its cycles. -/
def Stn.inFreezeCycle (x : Stn) : Bool := x.st = .running && x.cut.due && (!x.cut.toIdle || x.xs.idle == 0)

/-- RUN = 0 came while a c.idle ran, and the current cycle is the last of that bundle (R73). -/
def Stn.inStopCycle (x : Stn) : Bool := x.st = .running && x.xs.stop && x.xs.idle == 0

/-- A fault in the freeze cycle takes precedence, and both take effect (R113): HIT and FAULT are set. -/
def State.freezeFault (s : State) (n : StnId) : State :=
  if (s.st n).inFreezeCycle then (s.stampFreeze n false (s.st n).cutPend).setRf (Reg.stnCutStat n.val) 2 1 1 else s

/-- A station that a fault halts: STATE, the halts of the step, no freeze due, the fault of the cycle. -/
def Stn.fall (x : Stn) : Stn :=
  { x with
    st := .halted, halts := x.halts + 1, wd := 0, cut := { x.cut with due := false, toIdle := false },
    cyc := { x.cyc with failed := true } }

/-- The station halts on a fault (R66), running or idle: its streams stop, every op issued lands, STN_HALT takes the tile's
ITIN, HOP and SEQ, the code is raised with its interrupt, and repeated halts escalate. On a station frozen by a cut the
fault is recorded and FAULT set, and STATE stays halted (R113). A second fault of the cycle is only recorded (R252). A fault
without a tile leaves STN_HALT, and one of a station that is halted or fenced already takes it anew (log entry 142). `extra`
are the detail words that the fault gives. -/
def State.haltBy (s : State) (n : StnId) (c : Code) (th : Option TH) (extra : List Word) : State :=
  let s1 := match th with | some t => s.setRg (Reg.stnHalt n.val) t.haltWord | none => s
  if (s.st n).st = .halted then
    ((if s1.rbit (Reg.stnCutStat n.val) 0 then s1.setRf (Reg.stnCutStat n.val) 2 1 1 else s1).raise c (uStn n) extra)
  else if (s.st n).st = .fenced then s1.raise c (uStn n) extra
  else
    let eid := s1.cat.eid
    let s2 := ((s1.freezeFault n).landAll n).modSt n Stn.fall
    let s3 := ((s2.raise c (uStn n) extra).openWindow (uStn n) eid c).vector n.val
    s3.escalate n c

/-- The station halts on a fault that adds no detail words (R66). -/
def State.halt (s : State) (n : StnId) (c : Code) (th : Option TH) : State := s.haltBy n c th []

/-- The station halts with MEM-02 (R66, R346, R352): `src` is 0 for a word of Vitrine or of the ingress buffer, else one more
than the number of the stack that holds the bad word, whose registers are then the record's detail words (Table 16.6). -/
def State.haltMem (s : State) (n : StnId) (src : Nat) (th : Option TH) : State :=
  s.haltBy n ⟨.mem, 2⟩ th (if src = 0 then []
    else [s.rg (Reg.memUeAddrLo (src - 1)), s.rg (Reg.memUeAddrHi (src - 1)), s.rg (Reg.memStatus (src - 1))])

/-- STN_TRAP (Table 3.15). -/
def State.setTrap (s : State) (n : StnId) (pc slot reg kind cause : Nat) : State :=
  s.setRg (Reg.stnTrap n.val)
    (word (pc % 2 ^ 16 + slot * 2 ^ 16 + reg * 2 ^ 20 + kind * 2 ^ 25 + cause * 2 ^ 27))

/-! ### Start -/

/-- The streams at their entry points with cleared registers and flags (R73, R107). The clear of the flags wins over every
set of the cycle (R79), and the streams act from the next one on. -/
def Stn.startStreams (x : Stn) (asEntry xsLine : Nat) : Stn :=
  let y := x.dropGot.clearT.killCopies
  { y with
    st := .running, flags := 0, wd := 0,
    as := { AsState.reset with pc := asEntry }, xs := { XsState.reset with pc := 64 * xsLine },
    cut := { y.cut with nb := 0, nt := 0, due := false, toIdle := false },
    cyc := { y.cyc with start := true, didAs := true, didXs := true, didLup := true } }

/-- Both streams start at their entry points (R73), HIT and PASSED clear, and an armed cut is tested (R109). -/
def State.startStreams (s : State) (n : StnId) : State :=
  let s1 := s.modSt n (fun x => x.startStreams (s.rf (Reg.stnAsEntry n.val) 0 13) (s.rf (Reg.stnXsEntry n.val) 0 11))
  let s2 := (s1.setRf (Reg.stnCutStat n.val) 0 1 0).setRf (Reg.stnCutStat n.val) 1 1 0
  s2.testCut n

/-- RUN = 1 takes effect on an idle, released station: Lupin is emptied and the streams start (R73, R237). -/
def State.runStart (s : State) (n : StnId) : State := (s.dropLupin n).startStreams n

/-- The streams stop (R73): issued ops land, STATE is idle. -/
def State.stopStreams (s : State) (n : StnId) : State :=
  (s.landAll n).modSt n (fun x => { x.clearWaits with st := .idle, wd := 0 })

/-- RUN = 0 on a running station (R73): the streams stop at the next bundle boundary, which is now, or the end of the c.idle
that runs. -/
def State.runStop (s : State) (n : StnId) : State :=
  if (s.st n).xs.idle = 0 then s.stopStreams n else s.modSt n (fun x => { x with xs := { x.xs with stop := true } })

/-- A station is ready to issue: running, released, with the station clocks on. -/
def State.canRun (s : State) (n : StnId) : Bool :=
  (s.st n).st = .running && (s.st n).released && s.cur.clocksOn

/-- The cycle that a unit would begin by acting once more does not come for it: this one is the last before a freeze or a stop
(R108, R73), or the next one opens with the test of a cut that a write of this one arms, and the count has passed (R109). -/
def State.barred (s : State) (n : StnId) (u : Actor) : Bool :=
  let x := s.st n
  x.didAct u && (x.inFreezeCycle || x.inStopCycle || (x.cut.arming && s.cutPassed n))

/-- A unit of a station may act. -/
def State.mayAct (s : State) (n : StnId) (u : Actor) : Bool := s.canRun n && !s.barred n u

/-- The station runs, or is taken to run, for a look at what a unit would do. -/
def State.asRunning (s : State) (n : StnId) : State := s.modSt n (fun x => { x with st := .running })

/-- The turn of unit `u` in a cycle in which another unit's fault has halted the station: a fault of this one is recorded too
(R252); else what it does in its cycle takes effect, a counted event of it among it, and HIT and FAULT are set (R113). -/
def State.lateTurn (s : State) (n : StnId) (u : Actor) (k : State → State) : State :=
  let t := k ((s.act n u).asRunning n)
  if (t.st n).st = .running then
    ((t.freezeFault n).landAll n).modSt n (fun x =>
      { x with st := .halted, wd := 0, cut := { x.cut with due := false, toIdle := false } })
  else k (s.act n u)

/-- The turn of a unit: `k` acts for it where it may act. A unit that would begin the cycle in which a cut armed in this one has
passed meets the freeze (R109). -/
def State.turn (s : State) (n : StnId) (u : Actor) (k : State → State) : State :=
  if s.mayAct n u then k (s.act n u)
  else if (s.st n).st = .halted && (s.st n).cyc.failed && !(s.st n).didAct u then s.lateTurn n u k
  else if s.canRun n && !((s.st n).inFreezeCycle || (s.st n).inStopCycle) then (s.modSt n Stn.newCycle).testCut n
  else s

end Sys2Proof.Machine
end

