-- ==== Sys2Proof/Machine/Porter.lean ====
section
/-! DEFINITION. The DRAM address map (R336) and the Porters (R338 to R341): requests, the merging at the station ports,
grants by priority, waits. -/

namespace Sys2Proof.Machine

open Sys2Proof

/-! ### The address map -/

/-- Where a DRAM offset lies: stack, pseudo-channel, stack address. -/
structure DramLoc where
  stack : StackId
  chan  : Nat
  addr  : Nat
  deriving DecidableEq, Repr

/-- The map of R336, with `l` the GiB of each stack set aside as quarter-local. -/
def dramMap (l o : Nat) : DramLoc :=
  let bi := (576 - 8 * l) * 2 ^ 30
  if o < bi then
    ⟨stackId ((o / 2 ^ 12 % 8) ^^^ (o / 2 ^ 21 % 8)), o / 2 ^ 7 % 32, o / 32768 * 4096 + o % 4096⟩
  else
    let r := o - bi
    let q := r / (2 * l * 2 ^ 30)
    let w := r % (2 * l * 2 ^ 30)
    ⟨stackId (2 * q + ((w / 2 ^ 12 % 2) ^^^ (w / 2 ^ 21 % 2))), w / 2 ^ 7 % 32,
     (72 - l) * 2 ^ 30 + w / 8192 * 4096 + w % 4096⟩

/-- The place of a DRAM offset in this device. -/
def State.loc (s : State) (o : Nat) : DramLoc := dramMap (s.rf (Reg.memMap 0) 0 7) o

/-- Bytes of DRAM (Table 0.1): 576 GiB. -/
def dramSize : Nat := 576 * 2 ^ 30

/-- The key of a stack's 64-bit word in the record of bad bits. -/
def wordKey (k : StackId) (a : Nat) : Nat := k.val * 2 ^ 34 + a / 8

/-- Bad bits of the word that holds a DRAM offset. -/
def State.badAt (s : State) (o : Nat) : Nat := Cells.get zeroNat s.dramBad (wordKey (s.loc o).stack (s.loc o).addr)

/-- The word that holds a DRAM offset has `n` bad bits. -/
def State.setBad (s : State) (o n : Nat) : State :=
  { s with dramBad := Cells.set zeroNat s.dramBad (wordKey (s.loc o).stack (s.loc o).addr) n }

/-- The offsets of the 64-byte units that `len` bytes from `o` touch. -/
def unitsOf (o len : Nat) : List Nat :=
  if len = 0 then [] else (List.range ((o + len + 63) / 64 - o / 64)).map (fun i => (o / 64 + i) * 64)

/-- The pieces of a byte string that fall in one unit each: (offset, bytes). -/
def unitPieces (o : Nat) (bs : List Byte) : List (Nat × List Byte) :=
  (unitsOf o bs.length).map (fun u =>
    let lo := max u o
    let hi := min (u + 64) (o + bs.length)
    (lo, (bs.drop (lo - o)).take (hi - lo)))

/-! ### Requests (R338) -/

/-- The requester's index (Table 13.4). -/
def MemUser.index : MemUser → Nat
  | .station n => n.val / 8
  | .curator => 8
  | .aperture => 9
  | .persist => 10

/-- Controller cycles since power: 1.5625 GHz beside ticks of 1.25 GHz (R334). -/
def State.ctlCycle (s : State) : Nat := s.cycle * 5 / 4

/-- One request for each 64-byte unit of an access waits: a station's at its station port, another's at the Porter. -/
def State.request (s : State) (o len : Nat) (u : MemUser) : State :=
  (unitsOf o len).foldl (fun t a =>
    let l := t.loc a
    t.modSk l.stack (fun k => match u with
      | .station n => { k with merge := k.merge ++ [⟨n.val, l.chan, t.ctlCycle⟩] }
      | v => { k with wait := k.wait ++ [⟨v.index, l.chan, t.ctlCycle⟩] })) s

/-- Station port `j` of stack `k` merges one request in a tick, in round-robin order of station number. -/
def State.mergePort (s : State) (k : StackId) (j : Nat) : State :=
  let x := s.sk k
  match firstAfter (Cells.get noPointer x.portLast j)
      (((List.range 8).map (fun i => 8 * j + i)).filter (fun n => x.merge.any (fun r => r.by_ == n))) with
  | none => s
  | some n =>
    match x.merge.find? (fun r => r.by_ == n) with
    | none => s
    | some r => s.modSk k (fun y => { y with
        merge := y.merge.erase r, wait := y.wait ++ [{ r with by_ := j }], portLast := Cells.set noPointer y.portLast j n })

/-! ### Grants (R339, R341) -/

/-- Eighths of the controller cycles in which stack `k` grants (Tables 15.5 and 15.7): the stronger of the ladder and the
throttle. -/
def State.grantRate (s : State) (k : StackId) : Nat :=
  min (nth [8, 6, 4, 2, 1] s.cur.throttle[k.val] 1) (nth [8, 8, 8, 8, 8, 6, 4, 2] (s.rf Reg.pwrStatus 3 3) 8)

/-- Pseudo-channel `c` of stack `k` can take a grant in controller cycle `t`: whole cycles are withheld at every
pseudo-channel in turn (R386). -/
def State.grantsIn (s : State) (k : StackId) (c t : Nat) : Bool :=
  let r := s.grantRate k
  (t + c + 1) * r / 8 != (t + c) * r / 8

/-- The priority of a requester (Table 13.6); 0 ranks first. -/
def State.memPrio (s : State) (k : StackId) (i : Nat) : Nat :=
  if i < 8 then s.rf (Reg.memPrioLo k.val) (4 * i) 3 else s.rf (Reg.memPrioHi k.val) (4 * (i - 8)) 3

/-- The request that a pseudo-channel grants: of the requesters that no lock keeps out, those of the lowest priority number,
of these the one that comes first after the requester granted last, and of its requests the oldest. -/
def State.memChoice (s : State) (k : StackId) (c t : Nat) : Option MemReq :=
  let x := s.sk k
  let out (r : MemReq) : Bool := x.locks.any (fun h => h.chan == c && decide (h.since ≤ t) && h.who.index != r.by_)
  let l := x.wait.filter (fun r => r.chan == c && !out r)
  let top := l.foldl (fun m r => min m (s.memPrio k r.by_)) 7
  match firstAfter (Cells.get noPointer x.chanLast c)
      ((List.range 11).filter (fun i => s.memPrio k i == top && l.any (fun r => r.by_ == i))) with
  | none => none
  | some i => l.find? (fun r => r.by_ == i)

/-- `n` grants made to a requester on a pseudo-channel: MEM_GRANTS, and the pointer. -/
def State.granted (s : State) (k : StackId) (c : Nat) (u : MemUser) (n : Nat) : State :=
  (s.modSk k (fun x => { x with chanLast := Cells.set noPointer x.chanLast c u.index })).addSat (Reg.memGrants k.val u.index) n

/-- A requester's wait joins MEM_WAIT_MAX (R341). -/
def State.waited (s : State) (k : StackId) (i n : Nat) : State :=
  s.event (Reg.memWaitMax k.val i) (fun w => word (max w.toNat (min 0xFFFFFFFF n)))

/-- A grant to a request that waited, in controller cycle `t`: MEM_WAIT_MAX holds the longest wait. -/
def State.memGrant (s : State) (k : StackId) (t : Nat) (r : MemReq) : State :=
  let s1 := s.modSk k (fun x => { x with wait := x.wait.erase r, chanLast := Cells.set noPointer x.chanLast r.chan r.by_ })
  (s1.inc (Reg.memGrants k.val r.by_)).waited k r.by_ (t - r.made)

/-- Cycle `t` of a pseudo-channel belongs to a locked sequence or to the scrub (R342, R347). -/
def Stk.taken (x : Stk) (c t : Nat) : Bool := x.spans.any (fun p => p.chan == c && decide (p.start ≤ t ∧ t < p.stop))

/-- The first cycle from `now` on that follows every span of a pseudo-channel. -/
def Stk.freeFrom (x : Stk) (c now : Nat) : Nat :=
  (x.spans.filter (fun p => p.chan == c)).foldl (fun m p => max m p.stop) now

/-- Cycles in which stack `k` makes `n` grants on a pseudo-channel. -/
def State.grantTime (s : State) (k : StackId) (n : Nat) : Nat := cdiv (8 * n) (s.grantRate k)

/-- Waiting requests that rank ahead of a requester on a pseudo-channel (R339): those of a lower priority number, and of each
requester of its own priority that comes first after the one granted last, one. -/
def State.aheadOf (s : State) (k : StackId) (c : Nat) (u : MemUser) : Nat :=
  let l := (s.sk k).wait.filter (fun r => r.chan == c && r.by_ != u.index)
  let mine := s.memPrio k u.index
  let turn (i : Nat) : Nat := (i + 11 - (Cells.get noPointer (s.sk k).chanLast c + 1) % 11) % 11
  let same := (List.range 11).filter (fun i =>
    s.memPrio k i == mine && l.any (fun r => r.by_ == i) && decide (turn i < turn u.index))
  (l.filter (fun r => decide (s.memPrio k r.by_ < mine))).length + same.length

/-- The cycle of the first grant of a locked sequence on a pseudo-channel: after the spans there, after a lock that stands has
been cut off `hold` cycles from its first grant, and after the requests that rank ahead (R339, R342, R343). -/
def State.seqStart (s : State) (k : StackId) (c hold : Nat) (u : MemUser) : Nat :=
  let x := s.sk k
  let locked := (x.locks.filter (fun h => h.chan == c)).foldl (fun m h => max m (h.since + hold + 1)) s.ctlCycle
  x.freeFrom c locked + s.grantTime k (s.aheadOf k c u)

/-- `n` consecutive grants of a locked sequence from cycle `t` on: they take the pseudo-channel's cycles and are counted. -/
def State.seqGrants (s : State) (k : StackId) (c t n : Nat) (u : MemUser) : State :=
  (s.modSk k (fun x => { x with spans := x.spans ++ [⟨c, t, t + s.grantTime k n⟩] })).granted k c u n

/-- One controller cycle of stack `k`: each pseudo-channel that can take a grant makes one. -/
def State.memCycle (s : State) (k : StackId) (t : Nat) : State :=
  (List.range 32).foldl (fun u c =>
    if !u.grantsIn k c t || (u.sk k).taken c t then u
    else match u.memChoice k c t with
      | some r => u.memGrant k t r
      | none => u) s

/-- The Porter of stack `k` in a tick: one request of each station port, then the controller cycles that fall in the tick. -/
def State.porterTick (s : State) (k : StackId) : State :=
  if (s.sk k).merge.isEmpty && (s.sk k).wait.isEmpty && (s.sk k).spans.isEmpty then s
  else
    let s0 := s.modSk k (fun x => { x with spans := x.spans.filter (fun p => decide (s.ctlCycle < p.stop)) })
    let s1 := (List.range 8).foldl (fun t j => t.mergePort k j) s0
    (List.range ((s.cycle + 1) * 5 / 4 - s.ctlCycle)).foldl (fun t i => t.memCycle k (s.ctlCycle + i)) s1

end Sys2Proof.Machine
end

