-- ==== Sys2Proof/Machine/Memory.lean ====
section
/-! DEFINITION. DRAM and Vitrine: reads and writes with the DEC-TED code (R344 to R346, R352), locked sequences and their
cut-off (R342, R343), the patrol and Vitrine scrubs (R347, R348, R352). -/

namespace Sys2Proof.Machine

open Sys2Proof

/-! ### The code of DRAM -/

/-- A word of stack `k` was corrected (R345). -/
def State.stackCe (s : State) (k : StackId) : State :=
  (((s.inc (Reg.memCeCnt k.val)).memStatus k 0).raiseOnce ⟨.mem, 1⟩ (uStack k) 0 []).addScore (uStack k) 8

/-- An uncorrectable word of stack `k` at stack address `a` met by a requester (R346), or by the scrub as requester 15
(R347). -/
def State.stackUe (s : State) (k : StackId) (a req : Nat) : State :=
  let s1 := (s.inc (Reg.memUeCnt k.val)).setRg (Reg.memUeAddrLo k.val) (word a)
  let s2 := s1.setRg (Reg.memUeAddrHi k.val) (word (a / 2 ^ 32 % 32 + req * 2 ^ 8))
  let s3 := s2.memStatus k (if req = 15 then 2 else 1)
  s3.thenScore (fun t => t.raise ⟨.mem, if req = 15 then 3 else 2⟩ (uStack k) []) [(uStack k, 8192)]

/-- Check the words that an access reads: a word with one or two bad bits is corrected, one with three or more is
uncorrectable (R344 to R346). Answers whether every word was good. -/
def State.checkWords (s : State) (o len : Nat) (u : MemUser) : State × Bool :=
  (wordsOf o len).foldl (fun p w =>
    let b := p.1.badAt w
    if b = 0 then p
    else if b ≤ 2 then (p.1.stackCe (p.1.loc w).stack, p.2)
    else (p.1.stackUe (p.1.loc w).stack (p.1.loc w).addr u.index, false)) (s, true)

/-- Read DRAM as a requester of Table 13.4; none when a word is uncorrectable (R346). -/
def State.dramRead (s : State) (o len : Nat) (u : MemUser) : State × Option (List Byte) :=
  let p := (s.request o len u).checkWords o len u
  (p.1, if p.2 then some (Cells.read zeroByte p.1.dram o len) else none)

/-- Bytes of DRAM written as they come; the write-back that the scrub has yet to make of a unit written is dropped (R348). -/
def State.dramPut (s : State) (o : Nat) (bs : List Byte) : State :=
  let us := (unitsOf o bs.length).map s.loc
  { s with
    dram := Cells.write zeroByte s.dram o bs
    stk := Vector.ofFn (fun (k : StackId) =>
      { s.stk[k.val] with back := s.stk[k.val].back.filter (fun a => !us.any (fun l => l.stack == k && l.addr == a)) }) }

/-- Whole 64-bit words written: fresh check bits (R344). -/
def State.dramPutWords (s : State) (o : Nat) (bs : List Byte) : State :=
  (wordsOf o bs.length).foldl (fun t w => if t.badAt w = 0 then t else t.setBad w 0) (s.dramPut o bs)

/-- Write whole 64-byte units as a requester (R344). -/
def State.dramWriteWords (s : State) (o : Nat) (bs : List Byte) (u : MemUser) : State :=
  (s.request o bs.length u).dramPutWords o bs

/-- Write a part of one word (R344): a correctable word is repaired, an uncorrectable one stays and the write is lost.
Answers whether it was written. -/
def State.dramMerge (s : State) (o : Nat) (bs : List Byte) (u : MemUser) : State × Bool :=
  let b := s.badAt o
  if b ≤ 2 then (((if b = 0 then s else (s.stackCe (s.loc o).stack).setBad o 0)).dramPut o bs, true)
  else (s.stackUe (s.loc o).stack (s.loc o).addr u.index, false)

/-- The pieces of a byte string that fall in one word each: (offset, bytes). -/
def wordPieces (o : Nat) (bs : List Byte) : List (Nat × List Byte) :=
  (wordsOf o bs.length).map (fun w =>
    let lo := max w o
    let hi := min (w + 8) (o + bs.length)
    (lo, (bs.drop (lo - o)).take (hi - lo)))

/-- A piece of one unit written: whole words, and parts of words as read-modify-writes. -/
def State.dramPiece (s : State) (e : Nat × List Byte) (u : MemUser) : State × Bool :=
  (wordPieces e.1 e.2).foldl (fun p w =>
    if w.2.length = 8 then (p.1.dramPutWords w.1 w.2, p.2)
    else
      let r := p.1.dramMerge w.1 w.2 u
      (r.1, p.2 && r.2)) (s, true)

/-! ### Locked sequences (R342, R343) -/

/-- A lock of stack `k` is cut off (R343): it ends, with its count, its requester, HOLD_CUT and MEM-04; the PCIe aperture
completes with Completer Abort, and the Curator's mailbox command fails. The Catalogue persist path tries again at its next
flush, since the record is not in the ring. -/
def State.cutLock (s : State) (k : StackId) (h : MemLock) : State :=
  let s1 := (s.inc (Reg.memHoldCuts k.val)).setRg (Reg.memHoldWho k.val) (word h.who.index)
  let s2 := ((s1.memStatus k 3).raise ⟨.mem, 4⟩ (uStack k) []).modSk k (fun x => { x with locks := x.locks.erase h })
  match h.who with
  | .aperture => s2.emit (.completion 2 .completerAbort [])
  | .curator =>
    { s2 with cur := { s2.cur with mail := s2.cur.mail.map (fun m =>
        if m.done.isNone then { m with done := some (4, []) } else m) } }
  | _ => s2

/-- The limit of a lock in controller cycles (Table 13.6). -/
def State.holdMax (s : State) (k : StackId) : Nat := max 8 (s.rf (Reg.memHoldMax k.val) 0 16)

/-- The grant number `i` of a locked sequence comes within the limit: grants follow each other in the cycles in which the
stack grants. -/
def State.inHold (s : State) (k : StackId) (i : Nat) : Bool := decide (cdiv (8 * i) (s.grantRate k) ≤ s.holdMax k)

/-- A write of locked sequences under way: the state, the grants made on each pseudo-channel of each stack, whether every
word was written, whether a sequence goes beyond the limit, and the pseudo-channels whose sequence has stopped there. -/
structure LockRun where
  s    : State
  made : Cells Nat
  cut  : List Nat
  ok   : Bool
  past : Bool

/-- The grants that a piece of one unit takes: a read and a write for parts of words, else one. -/
def pieceGrants (e : Nat × List Byte) : Nat := if e.1 % 8 = 0 ∧ e.2.length % 8 = 0 then 1 else 2

/-- The next piece of a locked write. A sequence that would be granted beyond MEM_HOLD_MAX stops there: its lock stays held
until the cut-off, and its remaining requests are discarded (R343). -/
def LockRun.next (r : LockRun) (u : MemUser) (e : Nat × List Byte) : LockRun :=
  let l := r.s.loc e.1
  let key := l.stack.val * 32 + l.chan
  let n := Cells.get zeroNat r.made key
  let g := pieceGrants e
  let t := if n = 0 then r.s.seqStart l.stack l.chan (r.s.holdMax l.stack) u else (r.s.sk l.stack).freeFrom l.chan r.s.ctlCycle
  let s1 := if n = 0 then r.s.waited l.stack u.index (t - r.s.ctlCycle) else r.s
  if r.cut.contains key then r
  else if s1.inHold l.stack (n + g - 1) then
    let p := (s1.seqGrants l.stack l.chan t g u).dramPiece e u
    { r with s := p.1, made := Cells.set zeroNat r.made key (n + g), ok := r.ok && p.2 }
  else
    let s2 := s1.modSk l.stack (fun x => { x with locks := x.locks ++ [⟨u, l.chan, t - s1.grantTime l.stack n⟩] })
    { r with s := s2.granted l.stack l.chan u (if s1.inHold l.stack n then 1 else 0), cut := key :: r.cut, past := true }

/-- Pieces written as locked sequences, one on each pseudo-channel that they touch. -/
def State.lockedWrite (s : State) (u : MemUser) (es : List (Nat × List Byte)) : LockRun :=
  es.foldl (fun r e => r.next u e) ⟨s, [], [], true, false⟩

/-- A write of any size and alignment by the Curator, the PCIe aperture or the persist path (R344): requests for whole words,
and a locked sequence for each unit of which it writes a part of a word. -/
def State.dramWrite (s : State) (o : Nat) (bs : List Byte) (u : MemUser) : State × Bool :=
  (unitPieces o bs).foldl (fun p e =>
    if pieceGrants e = 1 then ((p.1.dramWriteWords e.1 e.2 u), p.2)
    else
      let r := p.1.lockedWrite u [e]
      (r.s, p.2 && r.ok && !r.past)) (s, true)

/-- Read as the Curator does for its own duties: the bytes of an uncorrectable word, of which Table 13.5 speaks for a mailbox
command only, are free values (log entry 124). -/
def State.curatorRead (s : State) (o len : Nat) : State × List Byte :=
  (wordsOf o len).foldl (fun p w =>
    let lo := max w o
    let n := min (w + 8) (o + len) - lo
    let r := p.1.checkWords lo n .curator
    if r.2 then (r.1, p.2 ++ Cells.read zeroByte r.1.dram lo n)
    else
      let f := r.1.fresh 64
      (f.2, p.2 ++ toLE n f.1.toNat)) (s.request o len .curator, [])

/-- A 32-bit word of the DRAM, as the Curator reads it. -/
def State.curatorWord (s : State) (o : Nat) : State × Word :=
  let r := s.curatorRead o 4
  (r.1, word (ofLE r.2))

/-! ### Vitrine -/

/-- A Vitrine or ingress buffer word of a station was corrected (R352). -/
def State.vitCe (s : State) (n : StnId) : State :=
  ((s.inc (Reg.stnVitCe n.val)).raiseOnce ⟨.mem, 1⟩ (uStn n) 0 []).addScore (uStn n) 16

/-- An uncorrectable Vitrine (memory 0) or ingress (memory 1) word of a station was met (R352). -/
def State.vitUe (s : State) (n : StnId) (off mem : Nat) : State :=
  ((s.inc (Reg.stnVitUe n.val)).setRg (Reg.stnVitUeAddr n.val) (word (off % 2 ^ 23 + mem * 2 ^ 24))).addScore (uStn n) 8192

/-- Bad bits of a word of Vitrine (memory 0) or of the ingress buffer (memory 1). -/
def Stn.badIn (x : Stn) (mem off : Nat) : Nat := Cells.get zeroNat (if mem = 0 then x.vitBad else x.ingBad) (off / 8)

/-- Bad bits of a Vitrine word. -/
def Stn.vitBadAt (x : Stn) (off : Nat) : Nat := x.badIn 0 off

/-- Check the words of Vitrine or of the ingress buffer that an access reads. -/
def State.bufCheck (s : State) (n : StnId) (mem off len : Nat) : State × Bool :=
  (wordsOf off len).foldl (fun p w =>
    let b := (p.1.st n).badIn mem w
    if b = 0 then p else if b ≤ 2 then (p.1.vitCe n, p.2) else (p.1.vitUe n w mem, false)) (s, true)

/-- Check the Vitrine words that an access reads. -/
def State.vitCheck (s : State) (n : StnId) (off len : Nat) : State × Bool := s.bufCheck n 0 off len

/-- Read a station's Vitrine; none when a word is uncorrectable. -/
def State.vitRead (s : State) (n : StnId) (off len : Nat) : State × Option (List Byte) :=
  let p := s.vitCheck n off len
  (p.1, if p.2 then some ((p.1.st n).vitBytes off len) else none)

/-- Vitrine words covered whole lose their bad bits. -/
def Stn.vitFresh (x : Stn) (off len : Nat) : Stn := { x with vitBad := clearBad (wordsOf off len) x.vitBad }

/-- Write a station's Vitrine. -/
def State.vitWrite (s : State) (n : StnId) (off : Nat) (bs : List Byte) : State := s.modSt n (fun x => x.vitPut off bs)

/-! ### The ingress region (R292) -/

/-- The offset of a block of the ingress region. -/
def ingAddr (b : Nat) : Nat := b * 4352

/-- A frame takes the lowest free block of the ingress region, with fresh check bits (log entry 125). -/
def State.takeIngress (s : State) (n : StnId) (len : Nat) : State × Option Nat :=
  match firstBelow 963 (fun b => !(s.st n).ingUsed.contains b) with
  | some b => (s.modSt n (fun x => { x with
      ingUsed := b :: x.ingUsed, ingBad := clearBad (wordsOf (ingAddr b) len) x.ingBad }), some b)
  | none => (s, none)

/-- A frame's block of the ingress region holds an uncorrectable word. -/
def Stn.ingLost (x : Stn) (h : Hold) (len : Nat) : Bool :=
  match h with
  | .ingress _ _ _ (some b) => (wordsOf (ingAddr b) len).any (fun w => decide (2 < x.badIn 1 w))
  | _ => false

/-- The words of a frame in its block of the ingress region are read (R352); false when one is uncorrectable. -/
def State.readHold (s : State) (n : StnId) (h : Hold) (len : Nat) : State × Bool :=
  match h with
  | .ingress _ _ _ (some b) => s.bufCheck n 1 (ingAddr b) len
  | _ => (s, true)

/-! ### The address spaces of a station program (R81) -/

/-- A byte range a station program names: space 0 DRAM, space 1 its Vitrine program region. -/
def addrSpace (g : DWord) : Nat := g.toNat / 2 ^ 46 % 4

/-- The byte offset of an address (R81). -/
def addrOff (g : DWord) : Nat := g.toNat % 2 ^ 46

/-- Every byte of a range lies in its space (R81). -/
def Stn.rangeOk (x : Stn) (g : DWord) (len : Nat) : Bool :=
  if addrSpace g = 0 then decide (addrOff g + len ≤ dramSize)
  else if addrSpace g = 1 then decide (addrOff g + len ≤ x.lay.prog * 65536)
  else false

/-- A transfer's address is a multiple of 64 and its range lies in its space. -/
def Stn.addrOk (x : Stn) (g : DWord) (len : Nat) : Bool := addrOff g % 64 == 0 && x.rangeOk g len

/-- Read as a station program; none where a word is uncorrectable. -/
def State.memRead (s : State) (n : StnId) (g : DWord) (len : Nat) : State × Option (List Byte) :=
  if addrSpace g = 0 then s.dramRead (addrOff g) len (.station n) else s.vitRead n (addrOff g) len

/-- Write as a station program: whole 64-byte units. -/
def State.memWrite (s : State) (n : StnId) (g : DWord) (bs : List Byte) : State :=
  if addrSpace g = 0 then s.dramWriteWords (addrOff g) bs (.station n) else s.vitWrite n (addrOff g) bs

/-- Where a range that a station program read holds its bad word: 0 in its Vitrine, else one more than the stack's number. -/
def State.ueOf (s : State) (g : DWord) (len : Nat) : Nat :=
  if addrSpace g = 0 then
    match ((wordsOf (addrOff g) len).filter (fun w => decide (2 < s.badAt w))).getLast? with
    | some w => (s.loc w).stack.val + 1
    | none => 0
  else 0

/-! ### Commands -/

/-- A lock has been held for more than MEM_HOLD_MAX cycles from its first grant (R343). -/
def State.overheld (s : State) (k : StackId) (h : MemLock) : Bool := decide (h.since + s.holdMax k < s.ctlCycle)

/-- LOCK_HOLD_CUTOFF (R343): the oldest lock on stack `k` that has been held for more than MEM_HOLD_MAX cycles is cut off. -/
def execLockHoldCutoff (k : StackId) (s : State) : Host.Outcome State Fault Refusal :=
  .next (match (s.sk k).locks.find? (s.overheld k) with
    | none => s
    | some h => s.cutLock k h)

/-- The words of the unit at stack address `a` lose bad bits that the code corrects: the scrub's write-back (R347). -/
def State.writeBack (s : State) (k : StackId) (a : Nat) : State :=
  { s with dramBad := (List.range 8).foldl (fun m i =>
      let key := wordKey k (a + 8 * i)
      if Cells.get zeroNat m key = 0 then m else Cells.set zeroNat m key 0) s.dramBad }

/-- The patrol scrub reads the unit at stack address `a` of stack `k` (R347): corrected words are counted and the unit waits
for its write-back; a unit with an uncorrectable word is recorded and left unwritten. -/
def State.scrubUnit (s : State) (k : StackId) (a : Nat) : State :=
  let bad := (List.range 8).map (fun i => Cells.get zeroNat s.dramBad (wordKey k (a + 8 * i)))
  let s1 := (List.range 8).foldl (fun t i =>
    let b := nth bad i 0
    if b = 0 then t else if b ≤ 2 then t.stackCe k else t.stackUe k (a + 8 * i) 15) s
  if bad.any (fun b => b != 0) && bad.all (fun b => decide (b ≤ 2)) then
    s1.modSk k (fun x => { x with back := x.back ++ [a] })
  else s1

/-- The stack address of unit `u` of pseudo-channel `c`: 128-byte lines lie on the pseudo-channels in turn (R336). -/
def unitAddr (c u : Nat) : Nat := u / 2 * 4096 + c * 128 + u % 2 * 64

/-- The pseudo-channel of a stack address (R336). -/
def chanOf (a : Nat) : Nat := a / 128 % 32

/-- A pseudo-channel of the stack is locked. -/
def Stk.locked (x : Stk) (c : Nat) : Bool := x.locks.any (fun h => h.chan == c)

/-- The units that wait for the scrub: those behind a lock still, the others are read. -/
def State.scrubAll (s : State) (k : StackId) (as : List Nat) : State :=
  as.foldl (fun t a =>
    if (t.sk k).locked (chanOf a) then t.modSk k (fun x => { x with late := x.late ++ [a] }) else t.scrubUnit k a) s

/-- The scrub of stack `k` in a tick: write-backs that wait are made, and units whose lock has ended are read. -/
def State.scrubTick (s : State) (k : StackId) : State :=
  let x := s.sk k
  if x.back.isEmpty && x.late.isEmpty then s
  else (x.back.foldl (fun t a => t.writeBack k a) (s.modSk k (fun y => { y with back := [], late := [] }))).scrubAll k x.late

/-- The scrub takes one grant on each pseudo-channel, ahead of every requester but behind a lock: the next cycle that no locked
sequence has (R347). -/
def State.scrubGrants (s : State) (k : StackId) : State :=
  s.modSk k (fun x => { x with spans := x.spans ++ (List.range 32).map (fun c =>
    let t := x.freeFrom c s.ctlCycle
    ⟨c, t, t + 1⟩) })

/-- DRAM_SCRUB_STEP (R347): while EN is 1, the next unit of each pseudo-channel, behind a lock; a pass is 37,748,736
units of each. -/
def execDramScrubStep (k : StackId) (s : State) : Host.Outcome State Fault Refusal :=
  .next (if !s.rbit (Reg.memScrubCtrl k.val) 0 || (s.sk k).lost then s else
    let u := (s.sk k).scrub
    let s1 := (s.scrubGrants k).scrubAll k ((List.range 32).map (fun c => unitAddr c u))
    if u + 1 = 37748736 then
      (s1.modSk k (fun x => { x with scrub := 0 })).setRg (Reg.memScrubPass k.val) (s1.rg (Reg.memScrubPass k.val) + 1)
    else s1.modSk k (fun x => { x with scrub := u + 1 }))

/-- The patrol scrub of a stack is due: every GAP x 1,024 controller cycles, a GAP of 0 acting as 1. -/
def State.scrubDue (s : State) (k : StackId) : Bool :=
  let g := 1024 * max 1 (s.rf (Reg.memScrubCtrl k.val) 16 16)
  s.cur.trained && s.rbit (Reg.memScrubCtrl k.val) 0 && s.ctlCycle / g != (s.cycle - 1) * 5 / 4 / g

/-- Lines that the Vitrine scrub of a station reads in turn: those of the Vitrine, then those of the ingress buffer. -/
def scrubLines : Nat := 98304

/-- A line of the scrub: its memory and its offset there. -/
def lineAt (l : Nat) : Nat × Nat := if l < 65536 then (0, l * 128) else (1, (l - 65536) * 128)

/-- The scrub's write-back of a line of a station: words with bad bits that the code corrects lose them (R352). -/
def Stn.lineBack (x : Stn) (l : Nat) : Stn :=
  let m := lineAt l
  let ws := (wordsOf m.2 128).filter (fun w => decide (x.badIn m.1 w ≤ 2))
  if m.1 = 0 then { x with vitBad := clearBad ws x.vitBad } else { x with ingBad := clearBad ws x.ingBad }

/-- The write-backs that wait are made. -/
def Stn.vitBacks (x : Stn) : Stn := if x.vitBack.isEmpty then x else { x.vitBack.foldl Stn.lineBack x with vitBack := [] }

/-- VITRINE_SCRUB_STEP (R352): while EN is 1, a powered station's 128-byte line is read, and a line with correctable words
waits for its write-back. An uncorrectable word halts the station (log entry 37). -/
def execVitrineScrubStep (n : StnId) (line : Nat) (s : State) : Host.Outcome State Fault Refusal :=
  .next (if !s.rbit (Reg.stnVitScrub n.val) 0 || !(s.st n).powered then s else
    let l := line % scrubLines
    let m := lineAt l
    let bad := (wordsOf m.2 128).any (fun w => (s.st n).badIn m.1 w != 0)
    let c := s.bufCheck n m.1 m.2 128
    (if c.2 then c.1 else c.1.haltMem n 0 none).modSt n (fun x => { x with
      scrubAt := (l + 1) % scrubLines, vitBack := if bad then x.vitBack ++ [l] else x.vitBack }))

/-- The scrub of a station's Vitrine is due: one line in 127 ticks reads every line within 10 ms. -/
def State.vitScrubDue (s : State) (n : StnId) : Bool :=
  s.cycle % 127 == 0 && (s.st n).powered && s.rbit (Reg.stnVitScrub n.val) 0

end Sys2Proof.Machine
end

