-- ==== Sys2Proof/Machine/Route.lean ====
section
/-! DEFINITION. Where a frame goes: bundling and port modes (R303, R304), routing by DST (R321), twins and fallback
routes (R323), and the sending of a tile to a hop (R63, R64, R85, R289). -/

namespace Sys2Proof.Machine

open Sys2Proof

/-! ### Ports -/

/-- An endpoint port. -/
def State.isEndpoint (s : State) (p : PortId) : Bool := s.portMode p == 2

/-- The port cannot carry traffic: failed or down (R64, R308). -/
def State.portBad (s : State) (p : PortId) : Bool :=
  !s.present p || (s.pt p).acc = .failed || (s.pt p).acc = .down

/-- The port's link has failed: both of its ports, or its only one (R308). -/
def State.linkFailed (s : State) (p : PortId) : Bool :=
  if s.bundle = 0 then s.portBad p && s.portBad (twinOf p) else s.portBad p

/-- The port itself, or its twin once that carries its traffic (R308, R321). -/
def State.orTwin (s : State) (p : PortId) : PortId :=
  if s.bundle = 0 && s.portBad p && s.rbit (Reg.prtStatus (twinOf p).val) 1 then twinOf p else p

/-- The ports of the link at a station, chosen by a key (R321). -/
def State.linkPort (s : State) (stn key : Nat) : PortId :=
  if s.bundle = 0 then portId (2 * stn + key % 2) else if s.bundle = 1 then portId (2 * stn) else portId (stn / 2 * 4)

/-- The station whose Crossing output serves a frame that leaves by port `p`: in bundling mode 2 departing frames are taken
from both stations (R303), by the frame's key (log entry 121). -/
def State.outStn (s : State) (p : PortId) (key : Nat) : StnId :=
  if s.bundle = 2 ∧ key % 2 = 1 then stnId (p.val / 2 + 1) else stnOf p

/-! ### Routing by DST -/

/-- The link entry toward a device, with whether it is a row link; none when there is no link (R321). -/
def State.linkEntry (s : State) (dst : Nat) : Option (Word × Bool) :=
  let me := s.rank
  let e := if dst % 16 ≠ me % 16 then (s.rg (Reg.crsRowLink (dst % 16)), true)
    else (s.rg (Reg.crsColLink (dst / 16)), false)
  if bitOf e.1 7 then none else some e

/-- A usable link entry as a port, for a key. -/
def State.entryPort (s : State) (e : Word) (key : Nat) : Option PortId :=
  if bitOf e 7 then none else some (s.linkPort (fld e 0 6) key)

/-- The first link of the fallback route for a frame to `dst` whose link entry has failed (R323): by the device at
FB_POS or FB_GAL when the link leads to the destination, else column first. -/
def State.fallback (s : State) (dst key : Nat) (e : Word) (row : Bool) : Option PortId :=
  if row then
    if dst / 16 = s.rank / 16 then s.entryPort (s.rg (Reg.crsRowLink (fld e 8 4))) key
    else s.entryPort (s.rg (Reg.crsColLink (dst / 16))) key
  else s.entryPort (s.rg (Reg.crsColLink (fld e 8 5))) key

/-- Where a frame of class `tc` and escape hop `esc` bound for another device leaves: port, class, escape hop. A frame
whose link has failed is diverted once (R323); an escape frame keeps its class, and its second link is hop 2 (R291). -/
def State.routeOut (s : State) (dst key : Nat) (tc : TClass) (esc : Nat) : Option (PortId × TClass × Nat) :=
  match s.linkEntry dst with
  | none => none
  | some (e, row) =>
    match s.entryPort e key with
    | none => none
    | some p =>
      if s.linkFailed p && esc == 0 then
        match s.fallback dst key e row with
        | some q => some (s.orTwin q, 2, 1)
        | none => some (p, tc, esc)
      else some (s.orTwin p, tc, esc)

/-- The hall rank that the row and column link tables name for the station of a fabric port (R320). -/
def State.linkRank (s : State) (p : PortId) : Option Nat :=
  let n := (stnOf p).val
  let me := s.rank
  match (List.range 16).find? (fun q =>
      !s.rbit (Reg.crsRowLink q) 7 && s.rf (Reg.crsRowLink q) 0 6 == n) with
  | some q => some (me / 16 * 16 + q)
  | none =>
    match (List.range 32).find? (fun h =>
        !s.rbit (Reg.crsColLink h) 7 && s.rf (Reg.crsColLink h) 0 6 == n) with
    | some h => some (h * 16 + me % 16)
    | none => none

/-- The hall rank of the partner at a fabric port. -/
def State.partnerRank (s : State) (p : PortId) : Nat := (s.linkRank p).getD 0

/-! ### Sending to a hop -/

/-- A tile is released because no station takes it (R64): counted in STN_NO_ITIN of the station that holds it. -/
def State.noItin (s : State) (n : StnId) : State := (s.inc (Reg.stnNoItin n.val)).raise ⟨.stn, 4⟩ (uStn n) []

/-- A destination of a frame: class, destination station, landing, escape hop, multicast, destination rank. -/
structure Dest where
  tc   : TClass
  stn  : StnId
  land : Landing
  esc  : Nat
  mc   : Bool
  dst  : Nat
  deriving DecidableEq, Repr

/-- The destination that a hop word gives a frame with header `th` (R62, R321, R322); none for an END hop and where the
fallback of a failed link reaches no device. Where R321 names no link for DST, the tile leaves by the named port (R63). A
hop that names an absent port is one whose port is down (R303). Of reserved values, a STATION target counts modulo 64 and a
class of 5 to 7 as TC_MGT (log entry 119). -/
def State.hopDest (s : State) (w : Word) (th : TH) : Option Dest :=
  let tc := tclass (hopTc w)
  let key := th.origin + th.tag.toNat
  match hopKind w with
  | 1 => some ⟨tc, stnId (hopTarget w), .queue (stnId (hopTarget w)) (hopQueue w), 0, false, s.rank⟩
  | 2 =>
    let p := portId (hopTarget w)
    let leave (q : PortId) (c : TClass) (e dst : Nat) : Dest := ⟨c, s.outStn q key, .port q, e, false, dst⟩
    if s.modeOf p = 1 then
      let d := s.rg (Reg.crsItinDst th.itin)
      let esc := if tc = 2 then 1 else 0
      if bitOf d 9 then
        let z := s.partnerRank p
        if s.linkFailed p then
          match s.routeOut z key tc esc with
          | some (q, c, e) => some (leave q c e z)
          | none => none
        else some (leave (s.orTwin p) tc esc z)
      else
        match s.routeOut (fld d 0 9) key tc esc with
        | some (q, c, e) => some (leave q c e (fld d 0 9))
        | none => some (leave (s.orTwin p) tc esc (fld d 0 9))
    else some (leave (s.orTwin p) tc 0 0)
  | 3 => some ⟨tc, stnId (hopTarget w / 2), .group (Fin.ofNat 128 (hopTarget w)), if tc = 2 then 1 else 0, true, 0⟩
  | _ => none

/-- Descriptors that the AS holds (R281). -/
def State.asDescriptors (s : State) (n : StnId) : Nat :=
  ((s.st n).voq.filter (fun f => f.fromAs)).length + ((s.xfersFrom n).filter (fun x => x.fr.fromAs)).length

/-- The send path of station `n` has no room for another frame of the AS (R281). -/
def State.sendFull (s : State) (n : StnId) : Bool :=
  decide (s.rf (Reg.stnXqAs n.val) 0 8 ≤ s.asDescriptors n) || decide (4096 ≤ s.descriptors n)

/-- The station holds every reply reservation that it may (R289). -/
def State.respFull (s : State) (n : StnId) : Bool := decide (s.rf (Reg.stnRspResv n.val) 0 8 ≤ (s.st n).resv.length)

/-- A send that waits asks for the block of its reply reservation, where it waits for that one only (R289, R297). -/
def State.sendWait (s : State) (n : StnId) (w : Word) : State :=
  if hopKind w ≠ 0 ∧ hopTc w = 0 ∧ !s.sendFull n ∧ !s.respFull n then s.clkWait n .reply 0 4352 else s

/-- A tile of station `n` goes to the hop that a hop word names, as tfwd and tsend do (R85): none while the send path
has no room or no reply reservation can be made (R281, R289). An END hop frees the tile; a fenced or OFF station
releases it (R64). -/
def State.sendHop (s : State) (n : StnId) (t : Tile) (w : Word) : Option State :=
  if hopKind w = 0 then some (s.freeTile n t.blk)
  else match s.hopDest w t.th with
    | none => some ((s.freeTile n t.blk).noItin n)
    | some d =>
      if hopKind w = 1 && s.offStation d.stn then some ((s.freeTile n t.blk).noItin n)
      else if s.sendFull n then none
      else
        let enter (u : State) : State :=
          u.enterVoq n d.tc d.stn d.land ⟨d.tc, d.esc, d.mc, d.dst, .none, some t.th, (s.st n).body t⟩
            (match t.blk with | some b => .vitrine b | none => .none) true (d.tc != tclass (hopTc w))
        if hopTc w = 0 then
          if s.respFull n then none
          else match s.allocTile n .reply 0 with
            | none => none
            | some (b, s1) => some (enter (s1.modSt n (fun x => { x with resv := x.resv ++ [(s.ht, b)] })))
        else some (enter s)

end Sys2Proof.Machine
end

