-- ==== Sys2Proof/Machine/AccessStream.lean ====
section
/-! DEFINITION. The access stream (R80 to R88): fetch and legality of the instruction at the AS program counter, and
one meaning for each instruction. A command for an instruction acts when that instruction stands at the program
counter of a running station (log entry 1). -/

namespace Sys2Proof.Machine

open Sys2Proof

/-! ### Steps of the stream -/

/-- The AS faults with STN_TRAP (R88): cause 4 illegal, cause 5 address. -/
def State.asTrap (s : State) (n : StnId) (c : Code) (cause : Nat) : State :=
  (s.setTrap n (s.st n).as.pc 6 0 0 cause).halt n c none

/-- The AS waits (R76). -/
def State.asWait (s : State) (n : StnId) (k : WaitKind) (obj : Nat) : State :=
  s.modSt n (fun x => { x with as := { x.as with wait := k, obj := obj } })

/-- The AS goes on at instruction `pc`: the instruction retires, the watchdog restarts (R104). -/
def Stn.asGo (x : Stn) (pc : Nat) : Stn :=
  { x with wd := 0, as := { x.as with pc := pc, wait := .none, obj := 0, stepRec := none } }

/-- The instruction retires and the next one follows. -/
def State.asRetire (s : State) (n : StnId) : State := s.modSt n (fun x => x.asGo (x.as.pc + 1))

/-- A G register takes a value. -/
def State.setG (s : State) (n : StnId) (d : Fin 16) (v : DWord) : State :=
  s.modSt n (fun x => { x with as := { x.as with g := x.as.g.set d.val v } })

/-- The station takes the instruction at its AS program counter when it has opcode `op` (R80): an illegal instruction,
or execution past instruction 8,191, raises STN-07. -/
def State.asIssue (s : State) (n : StnId) (op : Nat) (k : Word → State → State) : State :=
  s.turn n .as (fun t =>
    match (t.st n).asWord with
    | none => t.asTrap n ⟨.stn, 7⟩ 4
    | some w => if !asLegal w then t.asTrap n ⟨.stn, 7⟩ 4 else if asOp w = op then k w t else s)

/-- A taken branch: its target lies in instructions 0 to 8,191, or STN-07 and nothing of the branch takes effect. -/
def State.asBranch (s : State) (n : StnId) (w : Word) (k : State → State) : State :=
  let t : Int := (s.st n).as.pc + asOff w
  if 0 ≤ t ∧ t < 8192 then (k s).modSt n (fun x => x.asGo t.toNat) else s.asTrap n ⟨.stn, 7⟩ 4

/-- AS_NOP (R83). -/
def execAsNop (n : StnId) (s : State) : Host.Outcome State Fault Refusal :=
  .next (s.asIssue n 0x00 (fun _ s => s.asRetire n))

/-- AS_JMP (R83). -/
def execAsJmp (n : StnId) (s : State) : Host.Outcome State Fault Refusal :=
  .next (s.asIssue n 0x01 (fun w s => s.asBranch n w id))

/-- AS_DBNZ (R83): GD := GD − 1, branch if GD ≠ 0. -/
def execAsDbnz (n : StnId) (s : State) : Host.Outcome State Fault Refusal :=
  .next (s.asIssue n 0x02 (fun w s =>
    let v := (s.st n).as.g[(asGD w).val] - 1
    if v = 0 then (s.setG n (asGD w) v).asRetire n else s.asBranch n w (fun t => t.setG n (asGD w) v)))

/-- AS_BEQZ (R83): branch if GD = 0. -/
def execAsBeqz (n : StnId) (s : State) : Host.Outcome State Fault Refusal :=
  .next (s.asIssue n 0x03 (fun w s =>
    if (s.st n).as.g[(asGD w).val] = 0 then s.asBranch n w id else s.asRetire n))

/-- AS_STEPW (R103): the AS reaches its step-end point and records HT_STEP_CUR. -/
def execAsStepw (n : StnId) (s : State) : Host.Outcome State Fault Refusal :=
  .next (s.asIssue n 0x04 (fun _ s =>
    if (s.st n).as.wait = .stepEnd then s
    else s.modSt n (fun x => { x with as := { x.as with wait := .stepEnd, obj := 0, stepRec := some s.stepCur } })))

/-- AS_HTWAIT (R83): wait until HT ≥ GD. -/
def execAsHtwait (n : StnId) (s : State) : Host.Outcome State Fault Refusal :=
  .next (s.asIssue n 0x05 (fun w s =>
    if (s.st n).as.g[(asGD w).val].toNat ≤ s.ht.toNat then s.asRetire n else s.asWait n .htwait 0))

/-- HTWAIT_COMPLETE (R83): an AS waiting in htwait retires once HT is at or beyond GD. -/
def execHtwaitComplete (n : StnId) (s : State) : Host.Outcome State Fault Refusal :=
  .next (if (s.st n).as.wait = .htwait then
    s.asIssue n 0x05 (fun w s => if (s.st n).as.g[(asGD w).val].toNat ≤ s.ht.toNat then s.asRetire n else s)
    else s)

/-- AS_LIL (R83): GD := IMM20. -/
def execAsLil (n : StnId) (s : State) : Host.Outcome State Fault Refusal :=
  .next (s.asIssue n 0x08 (fun w s => (s.setG n (asGD w) (dword (asImm20 w))).asRetire n))

/-- AS_LIM (R83): GD[39:20] := IMM20. -/
def execAsLim (n : StnId) (s : State) : Host.Outcome State Fault Refusal :=
  .next (s.asIssue n 0x09 (fun w s =>
    let v := (s.st n).as.g[(asGD w).val]
    (s.setG n (asGD w) ((v &&& 0xFFFFFF00000FFFFF) ||| dword (asImm20 w * 2 ^ 20))).asRetire n))

/-- AS_LIH (R83): GD[59:40] := IMM20. -/
def execAsLih (n : StnId) (s : State) : Host.Outcome State Fault Refusal :=
  .next (s.asIssue n 0x0A (fun w s =>
    let v := (s.st n).as.g[(asGD w).val]
    (s.setG n (asGD w) ((v &&& 0xF00000FFFFFFFFFF) ||| dword (asImm20 w * 2 ^ 40))).asRetire n))

/-- AS_ADDI (R83): GD := GS + IMM18 modulo 2^64. -/
def execAsAddi (n : StnId) (s : State) : Host.Outcome State Fault Refusal :=
  .next (s.asIssue n 0x0B (fun w s =>
    (s.setG n (asGD w) ((s.st n).as.g[(asGS w).val] + BitVec.ofInt 64 (asImm18 w))).asRetire n))

/-- AS_ADD (R83): GD := GS + GT modulo 2^64. -/
def execAsAdd (n : StnId) (s : State) : Host.Outcome State Fault Refusal :=
  .next (s.asIssue n 0x0C (fun w s =>
    (s.setG n (asGD w) ((s.st n).as.g[(asGS w).val] + (s.st n).as.g[(asGT w).val])).asRetire n))

/-- AS_SUB (R83): GD := GS − GT modulo 2^64. -/
def execAsSub (n : StnId) (s : State) : Host.Outcome State Fault Refusal :=
  .next (s.asIssue n 0x0D (fun w s =>
    (s.setG n (asGD w) ((s.st n).as.g[(asGS w).val] - (s.st n).as.g[(asGT w).val])).asRetire n))

/-! ### Transfers -/

/-- The header that a load gives its tile: LAST, ITIN, HOP from the instruction, reserved bits 0, and for a
header-only frame the shape fields 0 (R53, R57, Table 3.3). -/
def TH.loaded (t : TH) (last : Bool) (itin hop : Nat) : TH :=
  let u := (((t.setLast last).setItin itin).setHop hop).clean
  if u.hdrOnly then { u with w0 := 0 } else u

/-- A queue entry, a tile block and a load number are taken (R77, R84). -/
def State.takeLoad (s : State) (n : StnId) (q : Fin 8) (b : Nat) (l : Nat → Load) : State :=
  s.modSt n (fun x =>
    { x.push q ⟨⟨TH.zero, some b⟩, .load x.loadId⟩ with loadId := x.loadId + 1, loads := x.loads ++ [l x.loadId] })

/-- The AS waits for a queue entry or a tile block, or faults where no pool fits (R296); else `k` runs with the block. -/
def State.asReserve (s : State) (n : StnId) (q : Fin 8) (k : Nat → State → State) : State :=
  if (s.st n).lay.tilePool = none then s.asTrap n ⟨.stn, 6⟩ 5
  else if !(s.st n).canPush q then s.asWait n .queueFull q.val
  else match s.allocTile n .as 0 with
    | none => (s.clkWait n .as 0 4352).asWait n .tileBlock 0
    | some (b, s1) => k b s1

/-- AS_TLD (R84): the queue entry and the block are taken and the read is issued; the bytes are those at issue (R87).
The header decides how much is read (R81). -/
def execAsTld (n : StnId) (s : State) : Host.Outcome State Fault Refusal :=
  .next (s.asIssue n 0x10 (fun w s =>
    let g := (s.st n).as.g[(asGD w).val]
    if !(s.st n).addrOk g 64 then s.asTrap n ⟨.stn, 6⟩ 5
    else s.asReserve n (asQT w) (fun b s1 =>
      let r := s1.memRead n g 64
      match r.2 with
      | none => (r.1.takeLoad n (asQT w) b (fun i =>
          ⟨i, asQT w, false, g, TH.zero, b, [], [], true, some (s.ueOf g 64)⟩)).asRetire n
      | some head =>
        let th := (TH.ofBytes (head.take 32)).loaded (asLst w) (asItin w) (asHop w)
        let whole := 64 + th.bodyLen
        let ok := (s.st n).addrOk g whole
        if !th.ok || !ok || th.hdrOnly then
          (r.1.takeLoad n (asQT w) b (fun i => ⟨i, asQT w, false, g, th, b, head, [], ok, none⟩)).asRetire n
        else
          let r2 := r.1.memRead n (g + 64) th.bodyLen
          (r2.1.takeLoad n (asQT w) b (fun i =>
            ⟨i, asQT w, false, g, th, b, head, r2.2.getD [], true,
              if r2.2 = none then some (s.ueOf (g + 64) th.bodyLen) else none⟩)).asRetire n)))

/-- AS_TLDP (R84): the header is the template with LAST, ITIN and HOP of the instruction; it is checked at issue, the
payload and sidecar are read, and the template's SEQ increments. The address is checked before the header, for a bad one
with 4,096 bytes (log entry 110). -/
def execAsTldp (n : StnId) (s : State) : Host.Outcome State Fault Refusal :=
  .next (s.asIssue n 0x11 (fun w s =>
    let g := (s.st n).as.g[(asGD w).val]
    let tmpl := (s.st n).as.h[(asHT3 w).val]
    let th := tmpl.loaded (asLst w) (asItin w) (asHop w)
    if !(s.st n).addrOk g (if th.ok then th.bodyLen else 4096) then s.asTrap n ⟨.stn, 6⟩ 5
    else if !th.ok then s.halt n ⟨.stn, 2⟩ (some th)
    else s.asReserve n (asQT w) (fun b s1 =>
      let r := s1.memRead n g th.bodyLen
      let s2 := r.1.takeLoad n (asQT w) b (fun i =>
        ⟨i, asQT w, true, g, th, b, [], r.2.getD [], true, if r.2 = none then some (s.ueOf g th.bodyLen) else none⟩)
      (s2.modSt n (fun x =>
        { x with as := { x.as with h := x.as.h.set (asHT3 w).val (tmpl.setSeq (tmpl.seq + 1)) } })).asRetire n)))

/-- A frame is popped: the queue shortens, and NT counts it when the cut counts this queue (R107); a count that
reaches STN_CUT_AT makes the freeze due (R108). -/
def State.popped (s : State) (n : StnId) (q : Fin 8) : State :=
  let s1 := s.modSt n (fun x => x.pop q)
  if s.rf (Reg.stnCutCtrl n.val) 2 3 = q.val then
    let s2 := s1.modSt n (fun x => { x with cut := { x.cut with nt := x.cut.nt + 1 } })
    if s2.rf (Reg.stnCutCtrl n.val) 0 2 = 2 ∧ s2.cutHits n then
      s2.modSt n (fun x => { x with cut := { x.cut with due := true } })
    else s2
  else s1

/-- The AS pops QA: it waits on a queue that allows it no pop, as kind 1 in STN_WD_WAIT even where the head's data have not
arrived, else `k` runs with the frame; its address or hop word is looked at only then (log entry 111). -/
def State.asPop (s : State) (n : StnId) (w : Word) (k : Tile → State) : State :=
  match (s.st n).asPopHead s.ht (asQA w) with
  | none => s.asWait n .queueEmpty (asQA w).val
  | some t => k t

/-- The frame's block is good, or the station halts with MEM-02 (R352). -/
def State.goodBlock (s : State) (n : StnId) (t : Tile) (k : List Byte → State → State) : State :=
  match t.blk with
  | none => k [] s
  | some b =>
    let r := s.vitRead n ((s.st n).lay.blkAddr b) t.th.bodyLen
    match r.2 with
    | some bs => k bs r.1
    | none => r.1.halt n ⟨.mem, 2⟩ (some t.th)

/-- AS_TST (R84): pop QA and store the frame in frame form; a header-only frame writes 64 bytes. -/
def execAsTst (n : StnId) (s : State) : Host.Outcome State Fault Refusal :=
  .next (s.asIssue n 0x12 (fun w s => s.asPop n w (fun t =>
    let g := (s.st n).as.g[(asGD w).val]
    if !(s.st n).addrOk g (64 + t.th.bodyLen) then s.asTrap n ⟨.stn, 6⟩ 5
    else s.goodBlock n t (fun body s1 =>
      (((s1.popped n (asQA w)).memWrite n g (t.th.bytes ++ zeros 32 ++ body)).freeTile n t.blk).asRetire n))))

/-- AS_TSTP (R84): pop QA and store it in payload form; a header-only frame writes nothing, whatever GD is (log entry 148), and
is freed. -/
def execAsTstp (n : StnId) (s : State) : Host.Outcome State Fault Refusal :=
  .next (s.asIssue n 0x13 (fun w s => s.asPop n w (fun t =>
    let g := (s.st n).as.g[(asGD w).val]
    if !t.th.hdrOnly && !(s.st n).addrOk g t.th.bodyLen then s.asTrap n ⟨.stn, 6⟩ 5
    else s.goodBlock n t (fun body s1 =>
      (((s1.popped n (asQA w)).memWrite n g body).freeTile n t.blk).asRetire n))))

/-- A popped tile is sent to a hop word, or the AS waits for the send path (R85). -/
def State.asSend (s : State) (n : StnId) (q : Fin 8) (t : Tile) (w : Word) : State :=
  s.goodBlock n t (fun _ s1 =>
    match s1.sendHop n t w with
    | none => (s1.sendWait n w).asWait n .crossing 0
    | some s2 => (s2.popped n q).asRetire n)

/-- AS_TFWD (R85): HOP := HOP + 1 and the tile goes to the new hop; beyond hop 15 its itinerary is finished. -/
def execAsTfwd (n : StnId) (s : State) : Host.Outcome State Fault Refusal :=
  .next (s.asIssue n 0x14 (fun w s => s.asPop n w (fun t =>
    let hop := t.th.hop + 1
    s.asSend n (asQA w) (if hop < 16 then { t with th := t.th.setHop hop } else t) (s.hopWord t.th.itin hop))))

/-- AS_TSEND (R85): the tile goes to the hop word in GD[31:0]; HOP is unchanged; an illegal hop word raises STN-07. -/
def execAsTsend (n : StnId) (s : State) : Host.Outcome State Fault Refusal :=
  .next (s.asIssue n 0x15 (fun w s => s.asPop n w (fun t =>
    let hw := word (s.st n).as.g[(asGD w).val].toNat
    if !hopLegal hw then s.asTrap n ⟨.stn, 7⟩ 4 else s.asSend n (asQA w) t hw)))

/-- AS_TDROP (R83): pop QA and free the tile. -/
def execAsTdrop (n : StnId) (s : State) : Host.Outcome State Fault Refusal :=
  .next (s.asIssue n 0x16 (fun w s => s.asPop n w (fun t =>
    ((s.popped n (asQA w)).freeTile n t.blk).asRetire n)))

/-- AS_THLD (R80): the 32-byte TH at GD, a multiple of 64 (R81, log entry 147), is read into a template. -/
def execAsThld (n : StnId) (s : State) : Host.Outcome State Fault Refusal :=
  .next (s.asIssue n 0x17 (fun w s =>
    let g := (s.st n).as.g[(asGD w).val]
    if !(s.st n).addrOk g 32 then s.asTrap n ⟨.stn, 6⟩ 5
    else
      let r := s.memRead n g 32
      match r.2 with
      | none => r.1.haltMem n (s.ueOf g 32) none
      | some bs =>
        (r.1.modSt n (fun x =>
          { x with as := { x.as with h := x.as.h.set (asHT3 w).val (TH.ofBytes bs) } })).asRetire n))

/-! ### bcopy and flags -/

/-- AS_BCOPY (R86): FL clears and the copy starts; a length of 0 sets FL at once, with good addresses (log entry 143); a fifth
outstanding copy waits. -/
def execAsBcopy (n : StnId) (s : State) : Host.Outcome State Fault Refusal :=
  .next (s.asIssue n 0x18 (fun w s =>
    let x := s.st n
    let dst := x.as.g[(asGD w).val]
    let src := x.as.g[(asGS w).val]
    let len := x.as.g[(asGT w).val].toNat % 2 ^ 32
    if len % 64 != 0 || !x.addrOk dst len || !x.addrOk src len then s.asTrap n ⟨.stn, 6⟩ 5
    else if len = 0 then (s.modSt n (fun y => y.setFlag (asFL w) true)).asRetire n
    else if 4 ≤ (x.bcopies.filter (fun b => b.live)).length then s.asWait n .bcopySlot 0
    else
      (s.modSt n (fun y =>
        { y.setFlag (asFL w) false with bcopies := y.bcopies ++ [⟨src, dst, len, asFL w, true⟩] })).asRetire n))

/-- AS_FSET (R78). -/
def execAsFset (n : StnId) (s : State) : Host.Outcome State Fault Refusal :=
  .next (s.asIssue n 0x1C (fun w s => (s.modSt n (fun x => x.setFlag (asFL w) true)).asRetire n))

/-- AS_FCLR (R78). -/
def execAsFclr (n : StnId) (s : State) : Host.Outcome State Fault Refusal :=
  .next (s.asIssue n 0x1D (fun w s => (s.modSt n (fun x => x.setFlag (asFL w) false)).asRetire n))

/-- AS_FWAIT (R78): wait until the flag equals V. -/
def execAsFwait (n : StnId) (s : State) : Host.Outcome State Fault Refusal :=
  .next (s.asIssue n 0x1E (fun w s =>
    if (s.st n).flagNow (asFL w) = asV w then s.asRetire n else s.asWait n .flag (asFL w).val))

/-! ### Arrivals -/

/-- The entry that load `i` filled becomes ready with its tile. -/
def Stn.fillEntry (x : Stn) (q : Fin 8) (i : Nat) (t : Tile) : Stn :=
  { x with q := x.q.set q.val (x.q[q.val].map (fun e => if e.fill = .load i then ⟨t, .ready⟩ else e)) }

/-- The entry that load `i` took is given up, and its block freed. -/
def Stn.dropEntry (x : Stn) (q : Fin 8) (i : Nat) (b : Nat) : Stn :=
  let y := x.freeTile (some b)
  { y with q := y.q.set q.val (y.q[q.val].filter (fun e => !(e.fill = .load i))) }

/-- TLD_DATA_ARRIVE (R84, R87): the data of the oldest outstanding load arrive; an uncorrectable word, a failed header
check or an extent out of range halts the station, else the queue entry is filled. STN_TRAP then shows the pc at the
arrival (log entry 112). -/
def execTldDataArrive (n : StnId) (s : State) : Host.Outcome State Fault Refusal :=
  .next (match (s.st n).loads with
    | [] => s
    | l :: rest =>
      let s1 := s.modSt n (fun x => { x with loads := rest })
      let gone := s1.modSt n (fun x => x.dropEntry l.q l.id l.blk)
      if l.bad.isSome then gone.haltMem n (l.bad.getD 0) (some l.th)
      else if !l.th.ok then gone.halt n ⟨.stn, 2⟩ (some l.th)
      else if !l.extOk then (gone.setTrap n (s1.st n).as.pc 6 0 0 5).halt n ⟨.stn, 6⟩ (some l.th)
      else if l.th.hdrOnly then
        s1.modSt n (fun x => (x.freeTile (some l.blk)).fillEntry l.q l.id ⟨l.th, none⟩)
      else
        s1.modSt n (fun x => (x.vitPut (x.lay.blkAddr l.blk) l.body).fillEntry l.q l.id ⟨l.th, some l.blk⟩))

/-- Outstanding copy `k` of a station completes (R86): the bytes are written and its flag sets; an uncorrectable word
halts the station and leaves the flag clear (Table 13.5). -/
def State.bcopyDone (s : State) (n : StnId) (k : Nat) : State :=
  match (s.st n).bcopies[k]? with
  | none => s
  | some b =>
    let r := s.memRead n b.src b.len
    let s1 := r.1.modSt n (fun x => { x with bcopies := x.bcopies.eraseIdx k })
    match r.2 with
    | none => s1.haltMem n (s.ueOf b.src b.len) none
    | some bs =>
      let s2 := s1.memWrite n b.dst bs
      if b.live then s2.modSt n (fun x => x.setFlag b.fl true) else s2

/-- BCOPY_COMPLETE (R86). -/
def execBcopyComplete (n : StnId) (k : Nat) (s : State) : Host.Outcome State Fault Refusal := .next (s.bcopyDone n k)

end Sys2Proof.Machine
end

