-- ==== Sys2Proof/Machine/HallTime.lean ====
section
/-! DEFINITION. Hall time (R19 to R32, R313): the TSYNC reference, timestamps, alignment, parents and holdover, the
root conflict and the reset parade. -/

namespace Sys2Proof.Machine

open Sys2Proof

/-! ### HT_STATUS -/

/-- ALIGNED takes a value; a change raises vector 70 (Table 17.3), the first 1 is remembered (R28, R30), and TIM-03 is released
(Table 16.2). -/
def State.setAligned (s : State) (b : Bool) : State :=
  let s1 := if s.rbit Reg.htStatus 0 = b then s else (s.setRf Reg.htStatus 0 1 (b2n b)).vector 70
  let at_ := if s1.clk.alignedYet then s1.clk.alignedAt else s1.ht
  if b then
    { s1 with clk := { s1.clk with alignedYet := true, alignedAt := at_ } }.closeWindows uDevice (fun c => c == (⟨.tim, 3⟩ : Code))
  else s1

/-- HOLDOVER takes a value; a change raises vector 70. A holdover that begins after the first alignment is timed from
its own tick (R28). -/
def State.setHoldover (s : State) (b : Bool) : State :=
  if s.rbit Reg.htStatus 1 = b then s
  else
    let s1 := (s.setRf Reg.htStatus 1 1 (b2n b)).vector 70
    { s1 with clk := { s1.clk with
        holdSince := if b && s1.clk.alignedYet then some s1.ht else none,
        holdDone := false } }

/-- The primary parent port (HT_PARENT). -/
def State.primary (s : State) : PortId := portId (s.rf Reg.htParent 0 7)

/-- The standby parent port. -/
def State.standby (s : State) : PortId := portId (s.rf Reg.htParent 8 7)

/-- A parent link is available: its port is an admitted fabric port. -/
def State.parentUp (s : State) (p : PortId) : Bool := s.isFabric p && (s.pt p).acc = .admitted

/-- The parents are looked at anew (R28): ON_STANDBY, and HOLDOVER while a follower has neither. -/
def State.parents (s : State) : State :=
  let prim := s.parentUp s.primary
  let stand := s.parentUp s.standby
  let s1 := { s with clk := { s.clk with hasPrimary := prim, hasStandby := stand } }
  if s.isRoot then (s1.setRf Reg.htStatus 3 1 0).setHoldover false
  else
    let useStand := stand && (s.rbit Reg.htCtrl 2 || !prim)
    (s1.setRf Reg.htStatus 3 1 (b2n useStand)).setHoldover (!prim && !stand)

/-- The port whose link gives time: the standby while ON_STANDBY is 1, else the primary; none on the root. -/
def State.parentPort (s : State) : Option PortId :=
  if s.isRoot then none else if s.rbit Reg.htStatus 3 then some s.standby else some s.primary

/-- An offset from the parent was measured, in 1/16 tk (R25, R27): HT_OFFSET, the slew still to make, ALIGNED. -/
def State.offsetMeasured (s : State) (off : Int) : State :=
  let s1 := (s.setRg Reg.htOffset (BitVec.ofInt 32 (off / 16)))
  let s2 := { s1 with clk := { s1.clk with slewBy := off / 16 } }
  if off.natAbs ≤ 16 then s2.setAligned true
  else if s2.rbit Reg.htStatus 0 then (s2.setAligned false).raise ⟨.tim, 8⟩ uDevice []
  else s2

/-! ### Commands -/

/-- TSYNC_EDGE (R21, R22): at the root, an armed edge makes HT in the next tick HT_EPOCH, or is ignored with TIM-01; a
checked edge off by more than 1 tk raises TIM-01; the edge becomes the reference. -/
def execTsyncEdge (s : State) : Host.Outcome State Fault Refusal :=
  .next (if !s.isRoot then s else
    let period := (s.rg Reg.htTsyncPeriod).toNat
    let ref (t : State) (at_ : DWord) : State :=
      { t with clk := { t.clk with tsyncRef := if period = 0 then none else some at_ } }
    if s.rbit Reg.htCtrl 1 then
      let epoch := s.rg64 Reg.htEpochLo
      let s1 := s.setRf Reg.htCtrl 1 1 0
      if s.ht.toNat + 1 ≤ epoch.toNat then
        ref { s1 with clk := { s1.clk with load := some epoch } } (epoch - 1)
      else ref (s1.raise ⟨.tim, 1⟩ uDevice []) s.ht
    else if period = 0 then s
    else match s.clk.tsyncRef with
      | none => ref s s.ht
      | some r =>
        let due := r.toNat + period
        if s.ht.toNat + 1 < due ∨ due + 1 < s.ht.toNat then ref (s.raise ⟨.tim, 1⟩ uDevice []) s.ht else ref s s.ht)

/-- TSYNC_PULSE (R23): in phase C a pulse of 8 tk starts at each tick with HT mod HT_TSYNC_PERIOD = 0. -/
def execTsyncPulse (s : State) : Host.Outcome State Fault Refusal :=
  .next (
    let period := (s.rg Reg.htTsyncPeriod).toNat
    if s.plt.driven && period != 0 && s.atMultiple period then
      { (s.emit .tsync) with plt := { s.plt with syncTil := s.ht + 8 } }
    else s)

/-- TSTAMP_SEND (R313): at each tick with HT mod 4,096 = 0 every locked fabric port sends a TSTAMP record. -/
def execTstampSend (s : State) : Host.Outcome State Fault Refusal :=
  .next (if s.atMultiple 4096 then
    allPorts.foldl (fun t p =>
      if t.isFabric p && (t.pt p).locked then t.emit (.tstamp p (t.ht * 16) (t.pt p).stT3 (t.pt p).stT4) else t) s
    else s)

/-- A TSTAMP record (R313): t3, t1, t2 of the record and its arrival t4 give the round trip and, at the parent's port,
the offset that R25 slews on; t3 and t4 are echoed in the next record. -/
def State.tstampRec (s : State) (p : PortId) (t3 t1 t2 t4 : DWord) : State :=
  if !(s.isFabric p && (s.pt p).locked) then s else
    let rtt := (t4 - t1) - (t3 - t2)
    let asym := signed 16 (s.rf (Reg.prtAsym p.val) 0 16)
    let off : Int := (((t2 - t1) - (t4 - t3)).toInt - asym) / 2
    let s1 := s.modPt p (fun x => { x with stT3 := t3, stT4 := t4, rtt := rtt })
    if s.parentPort = some p ∧ s.parentUp p then s1.offsetMeasured off else s1

/-- TSTAMP_RECORD (R313). -/
def execTstampRecord (p : PortId) (t3 t1 t2 t4 : DWord) (s : State) : Host.Outcome State Fault Refusal :=
  .next (s.tstampRec p t3 t1 t2 t4)

/-- PARENT_STANDBY_SWITCH (R28). -/
def execParentStandbySwitch (s : State) : Host.Outcome State Fault Refusal := .next s.parents

/-- HOLDOVER_LIMIT_EXPIRE (R28): a timed holdover longer than HT_HOLDOVER clears ALIGNED, raises TIM-03, and makes the
device enter Stopped, at once when Closed, else after the open step's Closing. -/
def execHoldoverLimitExpire (s : State) : Host.Outcome State Fault Refusal :=
  .next (match s.clk.holdSince with
    | none => s
    | some t =>
      if s.rbit Reg.htStatus 1 && !s.clk.holdDone && decide ((s.rg Reg.htHoldover).toNat < s.ht.toNat - t.toNat) then
        let s1 := { s with clk := { s.clk with holdDone := true } }
        let s2 := (s1.setAligned false).raise ⟨.tim, 3⟩ uDevice []
        if s2.stepState = 0 then s2.setRf Reg.htStatus 4 2 3
        else if s2.stepState = 3 then s2
        else { s2 with clk := { s2.clk with stopWanted := true } }
      else s)

/-- ROOT_CONFLICT (R29): of two roots the lower hall rank keeps the role; the other raises TIM-02 and takes the link to
the winner as its parent. -/
def execRootConflict (p : PortId) (rank : Fin 512) (s : State) : Host.Outcome State Fault Refusal :=
  .next (if s.isRoot && decide (rank.val < s.rank) then
    (((s.setRf Reg.htCtrl 0 1 0).setRf Reg.htParent 0 7 p.val).raise ⟨.tim, 2⟩ uDevice []).parents
    else s)

/-- The parade may take place (R30, R32): after the first alignment since the reset, and on a root after a warm reset
has reached stage 4. -/
def State.paradeDue (s : State) : Bool :=
  !s.rbit Reg.htStatus 2 && s.clk.alignedYet && s.atMultiple 65536 && decide (s.clk.alignedAt.toNat < s.ht.toNat) &&
  (!(s.isRoot && s.clk.warm) || s.clk.stage4At.any (fun t => decide (t.toNat < s.ht.toNat)))

/-- PARADE (R30): every clock-domain crossing takes its depth of Table 1.2; HT_PARADE and PARADE_DONE. -/
def execParade (s : State) : Host.Outcome State Fault Refusal :=
  .next (if s.paradeDue then
    { ((s.setRg64 Reg.htParadeLo s.ht).setRf Reg.htStatus 2 1 1) with clk := { s.clk with parade := true } }
    else s)

end Sys2Proof.Machine
end

