-- ==== Sys2Proof/Machine/Ports.lean ====
section
/-! DEFINITION. Ports: the gate list and the shaper (R325 to R329), a frame's start on a port (R328), link credit
(R312), a port's failure with its epitaph and the frames it leaves (R308, R309, R323). -/

namespace Sys2Proof.Machine

open Sys2Proof

/-! ### The gate list (R326) -/

/-- The active bank of a port. -/
def State.gateBank (s : State) (p : PortId) : Nat := s.rf (Reg.prtGateBank p.val) 0 1

/-- LEN of a bank; values above 256 act as 256. -/
def State.gateLen (s : State) (p : PortId) (b : Nat) : Nat := min 256 (s.rf (Reg.prtGateLen p.val) (16 * b) 9)

/-- An entry of a bank. -/
def State.gateEntry (s : State) (p : PortId) (b k : Nat) : Word :=
  if b = 0 then s.rg (Reg.prtGateA p.val k) else s.rg (Reg.prtGateB p.val k)

/-- The entries of the active bank that are not skipped: duration and mask. -/
def State.gateEntries (s : State) (p : PortId) : List (Nat × Nat) :=
  ((List.range (s.gateLen p (s.gateBank p))).map (fun k =>
    let w := s.gateEntry p (s.gateBank p) k
    (fld w 0 24, fld w 24 8))).filter (fun e => e.1 != 0)

/-- The length of a cycle of the list. -/
def gateCycle (l : List (Nat × Nat)) : Nat := (l.map (fun e => e.1)).foldl (· + ·) 0

/-- The list from the place `t` of its cycle on: the rest of the entry at `t`, the later ones, and those before it. -/
def gateFrom : List (Nat × Nat) → Nat → List (Nat × Nat)
  | [], _ => []
  | e :: r, t => if t < e.1 then (e.1 - t, e.2) :: r else gateFrom r (t - e.1) ++ [e]

/-- How long class bit `c` stays open from the head of a list on; none when no entry of the list closes it. -/
def openRun (c : Nat) : List (Nat × Nat) → Option Nat
  | [] => none
  | e :: r => if e.2 / 2 ^ c % 2 = 0 then some 0 else (openRun c r).map (fun k => e.1 + k)

/-- Ticks since the active bank took over. -/
def State.gateTime (s : State) (p : PortId) : Nat := (s.ht - (s.pt p).gateAt).toNat

/-- The open time left for bit `c` at port `p` when the active bank has run for `t` ticks (R326, R328): none when it never
closes. With LEN = 0 every class is open at all times; a list whose entries are all skipped opens nothing. -/
def State.openLeftAt (s : State) (p : PortId) (c t : Nat) : Option Nat :=
  if s.gateLen p (s.gateBank p) = 0 then none
  else
    let l := s.gateEntries p
    if l.isEmpty then some 0
    else
      let f := gateFrom l (t % gateCycle l)
      if l.all (fun e => e.2 / 2 ^ c % 2 = 1) then none else openRun c (f ++ l)

/-- The class is open when the active bank has run for `t` ticks. -/
def State.openAt (s : State) (p : PortId) (c t : Nat) : Bool :=
  match s.openLeftAt p c t with
  | none => true
  | some k => decide (0 < k)

/-- The class is open. -/
def State.isOpen (s : State) (p : PortId) (c : Nat) : Bool := s.openAt p c (s.gateTime p)

/-- A gate boundary of the port: the start of an entry, or HT mod 4,096 = 0 when LEN = 0 (R308). -/
def State.gateBoundary (s : State) (p : PortId) : Bool :=
  if s.gateLen p (s.gateBank p) = 0 then s.atMultiple 4096
  else
    let l := s.gateEntries p
    let t := s.gateTime p % gateCycle l
    (List.range l.length).any (fun k => gateCycle (l.take k) == t)

/-- A gate boundary of the port has come since tick `t` (R323). -/
def State.gatePassed (s : State) (p : PortId) (t : DWord) : Bool :=
  let g := (s.pt p).gateAt.toNat
  if s.gateLen p (s.gateBank p) = 0 then s.ht.toNat / 4096 != t.toNat / 4096
  else
    let l := s.gateEntries p
    let c := gateCycle l
    let starts (k n : Nat) : Nat := (n - g + c - gateCycle (l.take k)) / c
    decide (t.toNat < g) || (List.range l.length).any (fun k => starts k s.ht.toNat != starts k t.toNat)

/-- A frame that was diverted in tick `since`, if it was, may leave by port `p`. -/
def State.pastBoundary (s : State) (p : PortId) (since : Option DWord) : Bool :=
  match since with
  | none => true
  | some t => s.gatePassed p t

/-- The tick before this one, in hall time (R26). -/
def State.lastTick (s : State) : Nat := match s.clk.prev with | some t => t.toNat | none => s.ht.toNat - 1

/-- Class `c` was open at port `p` in the tick before this one, be it by the bank that has just been taken over. -/
def State.wasOpen (s : State) (p : PortId) (c : Nat) : Bool :=
  let g := (s.pt p).gateAt.toNat
  if s.lastTick < g then (s.pt p).gateWas / 2 ^ c % 2 == 1 else s.openAt p c (s.lastTick - g)

/-- The classes that were open in the tick before this one, a bit for each (R329). -/
def State.openBefore (s : State) (p : PortId) : Nat :=
  (List.range 5).foldl (fun v c => if s.wasOpen p c then v + 2 ^ c else v) 0

/-- A slot of class `c` ends at this tick (R329, Table 12.7): the class was open in the tick before and is no longer. -/
def State.slotEnds (s : State) (p : PortId) (c : Nat) : Bool := !s.isOpen p c && s.wasOpen p c

/-! ### Charges and the shaper (R325) -/

/-- Bytes of a Carade frame from its CH on (R310). -/
def Wire.bytesLen (w : Wire) : Nat :=
  16 + (match w.xh with | .none => 0 | _ => 32) + (match w.th with | some _ => 32 + w.data.length | none => 0)

/-- The charge of a frame in bytes at a port. -/
def State.charge (s : State) (p : PortId) (w : Wire) : Nat :=
  s.rf (Reg.prtOverhead p.val) 0 8 +
    (if s.isFabric p then 248 * cdiv w.bytesLen 240
     else max 64 (14 + (if s.rbit (Reg.prtCfg p.val) 4 then 4 else 0) + w.bytesLen + 4))

/-- The time charge of a frame. -/
def State.timeCharge (s : State) (p : PortId) (w : Wire) : Nat := cdiv (s.charge p w) (80 * 2 ^ s.bundle)

/-- A shaper's bucket in `d` ticks, in units of 10^-4 byte: RATE Mb/s add RATE units in a tick, up to BURST KiB. -/
def State.tokensIn (s : State) (p : PortId) (c : TClass) (d : Nat) : Int :=
  let x := s.pt p
  let w := s.rg (Reg.prtShape p.val c.val)
  min (x.tokens[c.val] + (fld w 0 20 * ((s.ht - x.tokensAt).toNat + d) : Nat)) (fld w 20 12 * 1024 * 10000 : Nat)

/-- A shaper's bucket now. -/
def State.tokensNow (s : State) (p : PortId) (c : TClass) : Int := s.tokensIn p c 0

/-- The buckets of a port brought up to date. -/
def State.settleTokens (s : State) (p : PortId) : State :=
  s.modPt p (fun x => { x with tokens := Vector.ofFn (fun c => s.tokensNow p c), tokensAt := s.ht })

/-- The shaper of class `c` allows a frame in `d` ticks. -/
def State.shaped (s : State) (p : PortId) (c : TClass) (d : Nat) : Bool :=
  s.rf (Reg.prtShape p.val c.val) 0 20 == 0 || decide (0 ≤ s.tokensIn p c d)

/-! ### Starting a frame (R307, R328) -/

/-- Bytes in a port's replay buffer. -/
def Prt.replayBytes (x : Prt) : Nat := (x.replay.map (fun e => e.2.bytesLen)).foldl (· + ·) 0

/-- A frame may start on port `p` in `d` ticks, as its gates, its shaper and its replay buffer stand (R307, R328): its class
is open then and its charge fits into the slot. An Ethernet service port sends no frame of a station (R304, log entry
122). -/
def State.mayStartIn (s : State) (p : PortId) (w : Wire) (d : Nat) : Bool :=
  decide ((s.pt p).acc = .admitted) && s.portMode p != 3 && s.shaped p w.tc d &&
  (match s.openLeftAt p w.tc.val (s.gateTime p + d) with | none => true | some k => decide (s.timeCharge p w ≤ k)) &&
  decide ((s.pt p).replayBytes + w.bytesLen ≤ 262144)

/-- A frame may start on port `p` now. -/
def State.canStart (s : State) (p : PortId) (w : Wire) : Bool :=
  s.mayStartIn p w 0 && decide ((s.pt p).txUntil ≤ s.cycle)

/-- The partner's address that Accession recorded (R314); a free value where it recorded none. -/
def State.partnerMac (s : State) (p : PortId) : State × BitVec 48 :=
  match (s.pt p).nbr with
  | some n => (s, n.du.mac)
  | none => let f := s.fresh 48; (f.2, f.1)

/-- The tag of a frame that the device sends (R315): the VID of PRT_VLAN, and the lowest PCP that PRT_PCP maps to the class, a
free value where it maps none. -/
def State.sentTag (s : State) (p : PortId) (c : TClass) : State × Option (Nat × Nat) :=
  if !s.rbit (Reg.prtCfg p.val) 4 then (s, none)
  else match firstBelow 8 (fun k => s.rf (Reg.prtPcp p.val) (3 * k) 3 == c.val) with
    | some k => (s, some (s.rf (Reg.prtVlan p.val) 0 12, k))
    | none => let f := s.fresh 3; (f.2, some (s.rf (Reg.prtVlan p.val) 0 12, f.1.toNat))

/-- The port's own address. -/
def State.macOf (s : State) (p : PortId) : Nat :=
  (s.rg (Reg.prtMacLo p.val)).toNat + s.rf (Reg.prtMacHi p.val) 0 16 * 2 ^ 32

/-- What precedes the Carade header on the lanes of port `p`: nothing on a fabric port (R314). -/
def State.ethHdr (s : State) (p : PortId) (c : TClass) : State × Option EthHdr :=
  if s.isFabric p then (s, none)
  else
    let m := s.partnerMac p
    let t := m.1.sentTag p c
    (t.1, some ⟨m.2, BitVec.ofNat 48 (s.macOf p), t.2, s.rf (Reg.prtEtype p.val) 0 16⟩)

/-- A control record goes out on port `p`; its frame is of TC_MGT on an Ethernet port (R315, log entry 139). -/
def State.sendControl (s : State) (p : PortId) (o : Option EthHdr → Out) : State :=
  let h := s.ethHdr p 4
  h.1.emit (o h.2)

/-- What precedes a message of the Curator's agents on the lanes of port `p`, for a group address and an EtherType of their
standards; its class is TC_MGT (R315, R317, R318, log entry 139). -/
def State.agentHdr (s : State) (p : PortId) (dst type : Nat) : State × EthHdr :=
  let t := s.sentTag p 4
  (t.1, ⟨BitVec.ofNat 48 dst, BitVec.ofNat 48 (s.macOf p), t.2, type⟩)

/-- A PTP message goes out on port `p` (R318). -/
def State.sendPtp (s : State) (p : PortId) (o : EthHdr → Out) : State :=
  let h := s.agentHdr p 0x011B19000000 0x88F7
  h.1.emit (o h.2)

/-- A frame goes onto the lanes. -/
def State.sendFrame (s : State) (p : PortId) (q : BitVec 16) (w : Wire) : State :=
  let h := s.ethHdr p w.tc
  h.1.emit (.frame p q w h.2)

/-- A data frame starts: LSEQ, the replay buffer, the shaper's charge, the port's time (R307, R325). -/
def State.startFrame (s : State) (p : PortId) (w : Wire) : State :=
  let s1 := s.settleTokens p
  let c := s1.charge p w
  let t := s1.timeCharge p w
  let q := (s1.pt p).txSeq
  (s1.modPt p (fun x => { x with
    tokens := if s.rf (Reg.prtShape p.val w.tc.val) 0 20 = 0 then x.tokens
      else x.tokens.set w.tc.val (x.tokens[w.tc.val] - (c * 10000 : Nat)),
    txSeq := q + 1, replay := x.replay ++ [(q, w)], txUntil := s1.cycle + t, txTc := w.tc })).sendFrame p q w

/-! ### Link credit (R312) -/

/-- Credit for a frame is at hand. -/
def State.linkCredit (s : State) (p : PortId) (w : Wire) : Bool :=
  (s.pt (s.credPort p)).hasCredit (poolOf w.tc w.esc) (s.takesHdr p w)

/-- Credit for a frame is taken. -/
def State.takeLink (s : State) (p : PortId) (w : Wire) : State :=
  s.modPt (s.credPort p) (fun x => x.takeCredit (poolOf w.tc w.esc) (s.takesHdr p w))

/-- Ingress room that a received frame took is free again (R293). -/
def State.returnRoom (s : State) (p : PortId) (w : Wire) : State :=
  s.modPt (s.credPort p) (fun x => x.leaveRoom (poolOf w.tc w.esc) w.hdrOnly)

/-- The partner's data credit has started on the link of port `p` (R320), and for an endpoint the step is open (R34). -/
def State.creditLive (s : State) (p : PortId) : Bool :=
  ((s.pt p).creditOn || (s.bundle == 0 && (s.pt (twinOf p)).creditOn)) && (s.isFabric p || s.stepState == 1)

/-- The stations that take the frames of port `p`: in bundling mode 2 stations 2m and 2m + 1 (R303). -/
def State.takers (s : State) (p : PortId) : List StnId :=
  if s.bundle = 2 then [stnOf p, stnId ((stnOf p).val + 1)] else [stnOf p]

/-- The budget of a pool of a port's stations: blocks, or headers (R292). -/
def State.poolBudget (s : State) (p : PortId) (hdr : Bool) (i : Nat) : Nat :=
  ((s.takers p).map (fun n => s.rf (Reg.stnIngPool n.val i) (if hdr then 16 else 0) 10)).foldl (· + ·) 0

/-- The credit that goes to the partner now in one pool (R293): the free blocks or headers of which it does not yet know, as
the budget stands; data classes only while their credit runs. -/
def State.creditNow (s : State) (p : PortId) (hdr : Bool) (i : Fin 6) : Nat :=
  let x := s.pt (s.credPort p)
  let held := if hdr then x.hasHdr[i.val] + x.useHdr[i.val] else x.hasBlk[i.val] + x.useBlk[i.val]
  if s.linkAdmitted p && (i.val == 4 || s.creditLive p) then s.poolBudget p hdr i.val - held else 0

/-- Credit that may go to a port's partner leaves as a CREDIT record on that port (R293, R312). -/
def State.sendCredit (s : State) (p : PortId) : State :=
  let b := (List.finRange 6).map (fun i => s.creditNow p false i)
  let h := (List.finRange 6).map (fun i => s.creditNow p true i)
  if !(s.pt p).locked || (b ++ h).all (· == 0) then s
  else
    let s1 := s.modPt (s.credPort p) (fun y => { y with
      hasBlk := Vector.ofFn (fun i => y.hasBlk[i.val] + nth b i.val 0),
      hasHdr := Vector.ofFn (fun i => y.hasHdr[i.val] + nth h i.val 0) })
    s1.sendControl p (.credit p ((List.zip b h).map (fun e => word (e.1 % 65536 + e.2 % 65536 * 2 ^ 16))))

/-- At admission the partner holds nothing yet, so that the full budgets of the station's ingress pools go to it, less what
frames of the link still hold (R320). -/
def State.grantAll (s : State) (p : PortId) : State :=
  s.modPt (s.credPort p) (fun x => { x with hasBlk := Vector.replicate 6 0, hasHdr := Vector.replicate 6 0 })

/-- The partner's credit for a frame that it sent becomes ingress room in use (R292, R312); none where it held none. -/
def State.chargePartner (s : State) (p : PortId) (w : Wire) : Option State :=
  let c := s.credPort p
  let i := poolOf w.tc w.esc
  let x := s.pt c
  if (if w.hdrOnly then x.hasHdr[i.val] else x.hasBlk[i.val]) = 0 then none else some (s.setPt c (x.enterRoom i w.hdrOnly))

/-! ### Sending without the Crossing -/

/-- A frame waits at port `p` for its start; `paid` says that its link credit is already taken, `div` that it was diverted
just now. -/
def State.toEgress (s : State) (p : PortId) (w : Wire) (paid div : Bool) : State :=
  s.modPt p (fun x => { x with egress := x.egress ++ [⟨w, paid, if div then some s.ht else none, s.ht⟩] })

/-- A frame of this device goes out toward a device by R321, diverted when its link has failed (R323). -/
def State.sendToDevice (s : State) (w : Wire) (key : Nat) : State :=
  match s.routeOut w.dst key w.tc w.esc with
  | some (p, c, e) => s.toEgress p { w with tc := c, esc := e } false (e != w.esc)
  | none => s

/-! ### Failure (R308, R309) -/

/-- The key of R321 for a frame. -/
def Wire.key (w : Wire) : Nat :=
  match w.th, w.xh with
  | some t, _ => t.origin + t.tag.toNat
  | none, .bh l => fld (nth l 5 0) 0 14 + fld (nth l 2 0) 0 20
  | none, .sh l => fld (nth l 5 0) 0 14 + fld (nth l 2 0) 0 10
  | none, .none => 0

/-- A frame that a failed port leaves goes out as a new frame: on its twin once that carries its traffic, on the
fallback route when the link has failed; until then it waits at the port. Its link credit is held while the link has a
partner. -/
def State.resendOn (s : State) (p : PortId) (w : Wire) : State :=
  if s.orTwin p ≠ p then s.toEgress (s.orTwin p) w true false
  else if s.linkFailed p && s.isFabric p && w.esc == 0 then
    match s.routeOut w.dst w.key w.tc w.esc with
    | some (q, c, e) => s.toEgress q { w with tc := c, esc := e } false true
    | none => s.toEgress p w (s.linkAdmitted p) false
  else s.toEgress p w (s.linkAdmitted p) false

/-- A frame that lands at port `p` waits there, or goes where a frame that a failed port leaves goes (R308, R323). -/
def State.landPort (s : State) (p : PortId) (w : Wire) (div : Bool) : State :=
  if s.portBad p then s.resendOn p w else s.toEgress p w true div

/-- A frame of a VOQ that lands on a port of a failed link takes the fallback route (R323). -/
def State.divertFrame (s : State) (n : StnId) (f : VoqFrame) : State :=
  match s.routeOut f.wire.dst f.wire.key f.tc f.wire.esc with
  | none => s
  | some (q, c, e) =>
    let s1 := s.releaseLanding f
    let g := { f with tc := c, dst := s.outStn q f.wire.key, land := .port q, wire := { f.wire with tc := c, esc := e },
                      credit := false, landBlk := none, paid := [], since := some s.ht }
    s1.modSt n (fun x => { x with voq := x.voq.map (fun h => if h.id = f.id then g else h) })

/-- Every frame that would take the failed link of port `p` is diverted: in VOQs, and waiting at its ports. -/
def State.divert (s : State) (p : PortId) : State :=
  let ports := s.linkPorts p
  let s1 := allStns.foldl (fun t n => ((t.st n).voq.filter (fun f =>
    f.wire.esc == 0 && ports.any (fun q => f.land == .port q))).foldl (fun u f => u.divertFrame n f) t) s
  ports.foldl (fun t q =>
    ((t.pt q).egress).foldl (fun u e => u.resendOn q e.wire) (t.modPt q (fun x => { x with egress := [] }))) s1

/-- The sub-links of a port, each with the number of the mode-0 port whose lanes it uses (R306). -/
def State.subLinks (s : State) (p : PortId) : List PortId := (List.range (2 ^ s.bundle)).map (fun i => portId (p.val + i))

/-- What the sub-links of a port have received of a frame is dropped. -/
def State.dropPartial (s : State) (p : PortId) : State :=
  (s.subLinks p).foldl (fun t q => t.modPt q (fun x => { x with cellBuf := [] })) s

/-- The EPITAPH of a failed port (R309): over its twin, or in TC_MGT along the fallback route when the link has failed. -/
def State.sendEpitaph (s : State) (p : PortId) : State :=
  let q := (s.pt p).lastAcc.getD 0xFFFF
  if s.bundle = 0 && !s.portBad (twinOf p) then s.sendControl (twinOf p) (.epitaph (twinOf p) p q none)
  else
    let z := s.partnerRank p
    match (if s.isFabric p then (s.linkEntry z).bind (fun e => s.fallback z 0 e.1 e.2) else none) with
    | some v => s.sendControl (s.orTwin v) (.epitaph (s.orTwin v) p q (some z))
    | none => s.sendControl p (.epitaph p p q none)

/-- The port's link has failed (R323): LNK-03 once for the link, PRT_STATUS.FALLBACK on its ports. -/
def State.checkLink (s : State) (p : PortId) : State :=
  if !s.linkFailed p || s.rbit (Reg.prtStatus p.val) 2 then s
  else
    let s1 := s.prtStatus p 2 true
    let s2 := if s.bundle = 0 then s1.prtStatus (twinOf p) 2 true else s1
    if s.isFabric p then (s2.raise ⟨.lnk, 3⟩ (uLink p) []).divert p else s2

/-- A port fails (R308): LNK-02, Accession FAILED, an EPITAPH, 10 us to wait for the partner's, and its partner has left (R320).
It is what withdraws a partner (R317). -/
def State.portFail (s : State) (p : PortId) : State :=
  if (s.pt p).acc = .failed || (s.pt p).acc = .down then s
  else
    let was := decide ((s.pt p).acc = .admitted)
    let s1 := s.modPt p (fun x => { x with
      acc := .failed, locked := false, creditOn := false, nakOut := false, early := [], gapAt := none, epitaph := true,
      epiAt := some (s.ht + 12500) })
    let s2 := (s1.dropPartial p).thenScore (fun t => t.raise ⟨.lnk, 2⟩ (uPort p) [])
      [(uPort p, 4096), (uOpt (engineOf p.val), 2048)]
    let s3 := (s2.prtStatus p 0 false).prtStatus p 1 false
    let s4 := if was then s3.accEvent 1 else s3
    (((s4.sendEpitaph p).checkLink p).partnerGone p).parents

/-- A port is admitted (R319, R320): both ends grant full credit; UP, ADMIT, and its handling windows end. -/
def State.admitPort (s : State) (p : PortId) : State :=
  let s1 := s.modPt p (fun x => { x with
    acc := .admitted, creditOn := false, txSeq := 0, rxSeq := 0, lastAcc := none,
    nakOut := false, replays := [], early := [], gapAt := none,
    egress := x.egress ++ x.replay.map (fun e => ⟨e.2, false, none, s.ht⟩), replay := [], epitaph := false, epiAt := none })
  let s2 := if s.bundle = 0 && decide ((s.pt (twinOf p)).acc = .admitted) then s1.dropPartial p else (s1.dropPartial p).grantAll p
  let s3 := ((s2.prtStatus p 0 true).accEvent 0).closeWindows (uPort p) (fun _ => true)
  let s4 := (s3.closeWindows (uLink p) (fun _ => true)).prtStatus p 2 false
  let s5 := if s.bundle = 0 then (s4.prtStatus (twinOf p) 1 false).prtStatus (twinOf p) 2 false else s4
  s5.parents

end Sys2Proof.Machine
end

