-- ==== Sys2Proof/Machine/Arrive.lean ====
section
/-! DEFINITION. A frame's arrival at hop 0 of its itinerary (R63, R64), and the wires that the device forms. -/

namespace Sys2Proof.Machine

open Sys2Proof

/-- A frame held at station `n` is delivered to hop 0 of its itinerary (R63). An itinerary whose hop 0 is END, or leads
nowhere, is not defined in this device, and the frame is released (R64). -/
def State.arrive (s : State) (n : StnId) (th : TH) (data : List Byte) (hold : Hold) : State :=
  let t := th.setHop 0
  let w := s.hopWord t.itin 0
  let lost := (s.releaseHold n hold).noItin n
  if hopKind w = 0 then lost
  else match s.hopDest w t with
    | none => lost
    | some d => s.enterVoq n d.tc d.stn d.land ⟨d.tc, d.esc, d.mc, d.dst, .none, some t, data⟩ hold false
        (d.tc != tclass (hopTc w))

/-- A frame with only a bucket or sitting header. -/
def Wire.ofXh (tc : TClass) (dst : Nat) (xh : XHdr) : Wire := ⟨tc, 0, false, dst, xh, none, []⟩

/-- A header-only frame (R57). -/
def TH.headerOnly (tagKind : Nat) (step : Word) (tag origin originKind originStn itin : Nat) (seq : Word) : TH :=
  ⟨0, word (3 + tagKind * 2 ^ 4), seq, step, word tag,
   word (origin % 2 ^ 14 + originKind * 2 ^ 14 + originStn * 2 ^ 16), word (itin % 2 ^ 12 * 2 ^ 8), 0⟩

end Sys2Proof.Machine
end

