-- ==== Sys2Proof/Machine/Numerics.lean ====
section
/-! DEFINITION. Numbers (R118 to R139): exact values, the formats of Tables 5.1 and 5.2, rounding, flags, conversion,
the functions of fn, scale choice, elementwise tile operations, Dahlia's groups and the exact sum. -/

namespace Sys2Proof.Machine

open Sys2Proof

/-! ### Exact values and flags -/

/-- An exact value: NaN, an infinity, or (−1)^neg × m × 2^e; m = 0 is a signed zero. -/
inductive Val where
  | nan
  | inf (neg : Bool)
  | fin (neg : Bool) (m : Nat) (e : Int)
  deriving DecidableEq, Repr

/-- The five sticky flags in the order of Table 5.11: NV, DZ, OF, UF, FZ. -/
abbrev Flags := BitVec 5

/-- Invalid operation or NaN operand. -/
def fNV : Flags := 1
/-- Division by zero. -/
def fDZ : Flags := 2
/-- Overflow, clip or saturation. -/
def fOF : Flags := 4
/-- Tiny and inexact. -/
def fUF : Flags := 8
/-- A subnormal was flushed. -/
def fFZ : Flags := 16

/-- A flag that holds under a condition. -/
def flagIf (b : Bool) (f : Flags) : Flags := if b then f else 0

/-- Plus zero. -/
def Val.zero : Val := .fin false 0 0

/-- Neither NaN nor infinity. -/
def Val.isFin : Val → Bool
  | .fin _ _ _ => true
  | _ => false

/-- An integer as an exact value. -/
def Val.ofInt (i : Int) : Val := .fin (decide (i < 0)) i.natAbs 0

/-- The value times a power of two. -/
def Val.scale (v : Val) (k : Int) : Val :=
  match v with
  | .fin n m e => .fin n m (e + k)
  | w => w

/-- The exponent of a non-zero magnitude: floor(log2(m × 2^e)). -/
def magLog (m : Nat) (e : Int) : Int := (Nat.log2 m : Nat) + e

/-- m1 × 2^e1 ≤ m2 × 2^e2. -/
def magLe (m1 : Nat) (e1 : Int) (m2 : Nat) (e2 : Int) : Bool :=
  if m1 = 0 then true
  else if m2 = 0 then false
  else
    let b := min e1 e2
    decide (m1 * 2 ^ (e1 - b).toNat ≤ m2 * 2 ^ (e2 - b).toNat)

/-- The larger magnitude of two, a pair (m, e). -/
def magMax (a b : Nat × Int) : Nat × Int := if magLe a.1 a.2 b.1 b.2 then b else a

/-! ### Formats -/

/-- A floating-point format (Table 5.1): exponent bits, mantissa bits, largest finite encoding, whether it has
infinities. -/
structure FloatFmt where
  eb   : Nat
  mb   : Nat
  maxB : Nat
  hasInf : Bool
  nanB : Nat
  deriving DecidableEq, Repr

/-- The format of a code 0x0 to 0x5 (Tables 2.3, 5.1 and 5.3); other codes are not floating-point. -/
def floatFmt (c : Nat) : Option FloatFmt :=
  match c with
  | 0 => some ⟨8, 23, 0x7F7FFFFF, true, 0x7FC00000⟩
  | 1 => some ⟨8, 7, 0x7F7F, true, 0x7FC0⟩
  | 2 => some ⟨5, 10, 0x7BFF, true, 0x7E00⟩
  | 3 => some ⟨4, 3, 0x7E, false, 0x7F⟩
  | 4 => some ⟨5, 2, 0x7B, true, 0x7E⟩
  | 5 => some ⟨11, 52, 0x7FEFFFFFFFFFFFFF, true, 0x7FF8000000000000⟩
  | _ => none

/-- The exponent bias. -/
def FloatFmt.bias (f : FloatFmt) : Nat := 2 ^ (f.eb - 1) - 1

/-- The exponent of the smallest normal. -/
def FloatFmt.emin (f : FloatFmt) : Int := 1 - (f.bias : Int)

/-- The sign bit as a number. -/
def FloatFmt.signB (f : FloatFmt) (neg : Bool) : Nat := if neg then 2 ^ (f.eb + f.mb) else 0

/-- The infinity's encoding. -/
def FloatFmt.infB (f : FloatFmt) (neg : Bool) : Nat := f.signB neg + (2 ^ f.eb - 1) * 2 ^ f.mb

/-- The value of an encoding. -/
def FloatFmt.decode (f : FloatFmt) (b : Nat) : Val :=
  let neg := b / 2 ^ (f.eb + f.mb) % 2 == 1
  let ex := b / 2 ^ f.mb % 2 ^ f.eb
  let m := b % 2 ^ f.mb
  if f.hasInf && ex == 2 ^ f.eb - 1 then (if m = 0 then .inf neg else .nan)
  else if !f.hasInf && ex == 2 ^ f.eb - 1 && m == 2 ^ f.mb - 1 then .nan
  else if ex = 0 then .fin neg m (f.emin - f.mb)
  else .fin neg (2 ^ f.mb + m) ((ex : Int) - f.bias - f.mb)

/-- A subnormal encoding. -/
def FloatFmt.isSub (f : FloatFmt) (b : Nat) : Bool := b / 2 ^ f.mb % 2 ^ f.eb == 0 && b % 2 ^ f.mb != 0

/-- The value of an element's encoding by format code; index formats take part in no arithmetic. -/
def decodeElem (c b : Nat) : Val :=
  match floatFmt c with
  | some f => f.decode b
  | none => if c = 6 then Val.ofInt (signed 32 b) else Val.ofInt (signed 8 b)

/-- An FP32 register as a value. -/
def f32 (w : Word) : Val := decodeElem 0 w.toNat

/-! ### Rounding (R121, R122, R127) -/

/-- m × 2^e as a multiple of 2^g by RNE, with whether it is exact. -/
def roundGrid (m : Nat) (e g : Int) : Nat × Bool :=
  if g ≤ e then (m * 2 ^ (e - g).toNat, true)
  else
    let k := (g - e).toNat
    let q := m / 2 ^ k
    let r := m % 2 ^ k
    let up := decide (2 ^ k < 2 * r) || (decide (2 * r = 2 ^ k) && q % 2 == 1)
    (if up then q + 1 else q, r == 0)

/-- A non-zero magnitude rounded to a format, as an encoding without sign; a value above the largest finite encoding
has overflowed (R122). UF and the flush of FTZ as R125 and R127 state. -/
def FloatFmt.roundMag (f : FloatFmt) (ftz : Bool) (m : Nat) (e : Int) : Nat × Flags :=
  let l := magLog m e
  if f.emin ≤ l then
    let n := (roundGrid m e (l - f.mb)).1
    (((l + f.bias).toNat) * 2 ^ f.mb + n - 2 ^ f.mb, 0)
  else
    let p := roundGrid m e (f.emin - f.mb)
    if ftz && p.1 != 0 && decide (p.1 < 2 ^ f.mb) then (0, fFZ)
    else (p.1, flagIf (!p.2) fUF)

/-- A value rounded to a floating-point format as an arithmetic op does (R122): overflow gives an infinity. -/
def FloatFmt.round (f : FloatFmt) (ftz : Bool) : Val → Nat × Flags
  | .nan => (f.nanB, 0)
  | .inf neg => (f.infB neg, 0)
  | .fin neg m e =>
    if m = 0 then (f.signB neg, 0)
    else
      let p := f.roundMag ftz m e
      if f.maxB < p.1 then (f.infB neg, fOF) else (f.signB neg + p.1, p.2)

/-- A value rounded to the FP32 format. -/
def roundF32 (ftz : Bool) (v : Val) : Nat × Flags := (FloatFmt.mk 8 23 0x7F7FFFFF true 0x7FC00000).round ftz v

/-- A value converted to a format by Table 5.7; `clip` is dout, which clips every format. -/
def convertTo (c : Nat) (clip ftz : Bool) (v : Val) : Nat × Flags :=
  match floatFmt c with
  | some f =>
    match v with
    | .nan => (f.nanB, fNV)
    | .inf neg => if f.hasInf then (f.infB neg, 0) else (f.nanB, fNV)
    | .fin neg m e =>
      if m = 0 then (f.signB neg, 0)
      else
        let p := f.roundMag ftz m e
        if f.maxB < p.1 then
          (if clip || c == 3 || c == 4 then (f.signB neg + f.maxB, fOF) else (f.infB neg, fOF))
        else (f.signB neg + p.1, p.2)
  | none =>
    let w := if c = 6 then 32 else 8
    let hi : Nat := if c = 6 then 2 ^ 31 - 1 else 127
    let lo : Nat := if c = 6 then 2 ^ 31 else 127
    match v with
    | .nan => (0, fNV)
    | .inf neg => (if neg then wrap w (-(lo : Int)) else hi, fOF)
    | .fin neg m e =>
      let n := (roundGrid m e 0).1
      if neg then (if lo < n then (wrap w (-(lo : Int)), fOF) else (wrap w (-(n : Int)), 0))
      else if hi < n then (hi, fOF) else (n, 0)

/-! ### Exact arithmetic (R122, R123) -/

/-- The exact sum. -/
def Val.add (a b : Val) : Val × Flags :=
  match a, b with
  | .nan, _ => (.nan, fNV)
  | _, .nan => (.nan, fNV)
  | .inf x, .inf y => if x = y then (.inf x, 0) else (.nan, fNV)
  | .inf x, _ => (.inf x, 0)
  | _, .inf y => (.inf y, 0)
  | .fin na ma ea, .fin nb mb eb =>
    if ma = 0 ∧ mb = 0 then (.fin (na && nb) 0 0, 0)
    else if ma = 0 then (.fin nb mb eb, 0)
    else if mb = 0 then (.fin na ma ea, 0)
    else
      let g := min ea eb
      let x : Int := (ma * 2 ^ (ea - g).toNat : Nat)
      let y : Int := (mb * 2 ^ (eb - g).toNat : Nat)
      let t := (if na then -x else x) + (if nb then -y else y)
      (.fin (decide (t < 0)) t.natAbs g, 0)

/-- The exact product. -/
def Val.mul (a b : Val) : Val × Flags :=
  match a, b with
  | .nan, _ => (.nan, fNV)
  | _, .nan => (.nan, fNV)
  | .inf x, .inf y => (.inf (x != y), 0)
  | .inf x, .fin y m _ => if m = 0 then (.nan, fNV) else (.inf (x != y), 0)
  | .fin x m _, .inf y => if m = 0 then (.nan, fNV) else (.inf (x != y), 0)
  | .fin x m e, .fin y n d => (.fin (x != y) (m * n) (e + d), 0)

/-- The exact value of a × b + c. -/
def Val.fma (a b c : Val) : Val × Flags :=
  let p := a.mul b
  let r := p.1.add c
  (r.1, p.2 ||| r.2)

/-! ### fn (R124, Table 5.5) -/

/-- The integer square root by bits, `k` down to 0. -/
def isqrtFrom (n : Nat) : Nat → Nat → Nat
  | 0, r => if (r + 1) * (r + 1) ≤ n then r + 1 else r
  | k + 1, r =>
    let t := r + 2 ^ (k + 1)
    isqrtFrom n k (if t * t ≤ n then t else r)

/-- The integer square root. -/
def isqrt (n : Nat) : Nat := isqrtFrom n (Nat.log2 n / 2 + 1) 0

/-- A quotient of `q` with a sticky last bit: round-to-odd keeps every later RNE correct. -/
def sticky (q : Nat) (exact : Bool) : Nat := 2 * q + (if exact then 0 else 1)

/-- 1 / (m × 2^e) for m ≠ 0, exact but for a sticky last bit. -/
def recipMag (m : Nat) (e : Int) : Nat × Int :=
  let k := Nat.log2 m + 64
  (sticky (2 ^ k / m) (2 ^ k % m == 0), -e - k - 1)

/-- 1 / √(m × 2^e) for m ≠ 0, exact but for a sticky last bit. -/
def rsqrtMag (m : Nat) (e : Int) : Nat × Int :=
  let m1 := if e % 2 = 0 then m else 2 * m
  let e1 := if e % 2 = 0 then e else e - 1
  let k := Nat.log2 m1 + 64
  let q := isqrt (2 ^ (2 * k) / m1)
  (sticky q (q * q * m1 == 2 ^ (2 * k)), -(e1 / 2) - k - 1)

/-- ln 2 × 2^224, truncated. -/
def ln2Fix : Nat := 0xb17217f7d1cf79abc9e3b39803f2f6af40f343267298b62d8a0d175b

/-- The Taylor series of e^r in 224-bit fixed point: `k` terms left, term number `i`, the last term, the sum. -/
def expSeries (r : Nat) : Nat → Nat → Nat → Nat → Nat
  | 0, _, _, acc => acc
  | k + 1, i, t, acc => let u := t * r / 2 ^ 224 / i; expSeries r k (i + 1) u (acc + u)

/-- e^x for a value x × 2^−224 below 256 in magnitude: a mantissa with 224 fraction bits and a power of two. -/
def expFix (x : Int) : Nat × Int :=
  let n := x / (ln2Fix : Int)
  (expSeries (x % (ln2Fix : Int)).toNat 60 1 (2 ^ 224) (2 ^ 224), n)

/-- A value with 224 fraction bits; m × 2^e is at least 2^−60 in magnitude here and keeps every bit. -/
def toFix (neg : Bool) (m : Nat) (e : Int) : Int :=
  let q : Nat := if -224 ≤ e then m * 2 ^ (e + 224).toNat else m / 2 ^ (-224 - e).toNat
  if neg then -(q : Int) else q

/-- e^x for a non-zero finite x, with a sticky last bit: e^x of a non-zero dyadic is never a dyadic. -/
def expVal (neg : Bool) (m : Nat) (e : Int) : Val :=
  if magLog m e < -60 then .fin false (if neg then 2 ^ 60 - 1 else 2 ^ 60 + 1) (-60)
  else if 8 ≤ magLog m e then .fin false 1 (if neg then -600 else 600)
  else
    let p := expFix (toFix neg m e)
    .fin false (sticky p.1 false) (p.2 - 225)

/-- 1 / (1 + e^−x) for a non-zero finite x, with a sticky last bit. -/
def sigmoidVal (neg : Bool) (m : Nat) (e : Int) : Val :=
  if magLog m e < -60 then .fin false (if neg then 2 ^ 60 - 1 else 2 ^ 60 + 1) (-61)
  else if 8 ≤ magLog m e then (if neg then .fin false 1 (-600) else .fin false (2 ^ 60 - 1) (-60))
  else
    -- t = e^-|x| = p.1 × 2^(p.2 − 224), below 1
    let p := expFix (toFix true m e)
    let one : Nat := 2 ^ 224
    let t : Nat := p.1 / 2 ^ (-p.2).toNat
    if neg then .fin false (sticky (p.1 * one / (one + t)) false) (p.2 - 225)
    else .fin false (sticky (one * one / (one + t)) false) (-225)

/-- fn of an exact operand before rounding, with the special cases of Table 5.5. -/
def fnVal (mode : Nat) (v : Val) : Val × Flags :=
  let one : Val := .fin false 1 0
  match v with
  | .nan => (.nan, fNV)
  | .inf neg =>
    match mode with
    | 0 => (if neg then .zero else .inf false, 0)
    | 1 => (.fin neg 0 0, 0)
    | 2 => if neg then (.nan, fNV) else (.zero, 0)
    | _ => (if neg then .zero else one, 0)
  | .fin neg m e =>
    if m = 0 then
      match mode with
      | 0 => (one, 0)
      | 1 | 2 => (.inf neg, fDZ)
      | _ => (.fin false 1 (-1), 0)
    else
      match mode with
      | 0 => (expVal neg m e, 0)
      | 1 => let p := recipMag m e; (.fin neg p.1 p.2, 0)
      | 2 => if neg then (.nan, fNV) else let p := rsqrtMag m e; (.fin false p.1 p.2, 0)
      | _ => (sigmoidVal neg m e, 0)

/-! ### Elements of a tile (R49, R54, R55, R120, R127) -/

/-- `n` little-endian numbers of `k` bytes each. -/
def chunkLE (k : Nat) : Nat → List Byte → List Nat
  | 0, _ => []
  | n + 1, bs => ofLE (bs.take k) :: chunkLE k n (bs.drop k)

/-- The elements of a payload as encodings, row-major over all 64 columns. -/
def elemsOf (c : Nat) (body : List Byte) : List Nat := chunkLE (elemSize c) (rowCap c * 64) body

/-- The bytes of elements. -/
def elemBytes (k : Nat) : List Nat → List Byte
  | [] => []
  | v :: r => toLE k v ++ elemBytes k r

/-- A payload of 4,096 bytes from the encodings of its elements. -/
def payloadOf (c : Nat) (l : List Nat) : List Byte := fit 4096 (elemBytes (elemSize c) l)

/-- Element `k` lies in ROWS × COLS. -/
def TH.inShape (t : TH) (k : Nat) : Bool := decide (k / 64 < t.rows) && decide (k % 64 < t.cols)

/-- The exponent of an element's scales; none where a scale is 0xFF (R55, R120). -/
def TH.scaleAt (t : TH) (side : List Byte) (k : Nat) : Option Int :=
  if !bsCode t.code then some 0
  else
    let b : Nat := if t.bs then (nth side (k / sblkSize t.sblk) 0x7F).toNat else 0x7F
    if t.tscale = 0xFF ∨ b = 0xFF then none else some ((t.tscale : Int) + b - 254)

/-- An element as an operand of an engine: widened with its scales, flushed under FTZ, with its flags. One of subnormal encoding
whose scale is NaN sets FZ beside NV (log entry 151). -/
def TH.operand (t : TH) (side : List Byte) (ftz : Bool) (k b : Nat) : Val × Flags :=
  let sub := match floatFmt t.code with | some f => f.isSub b | none => false
  let v := if ftz && sub then (match decodeElem t.code b with | .fin n _ _ => .fin n 0 0 | w => w)
    else decodeElem t.code b
  let fl := flagIf (ftz && sub) fFZ
  match t.scaleAt side k with
  | none => (.nan, fl ||| fNV)
  | some sc =>
    match v with
    | .fin n m e =>
      if ftz && bsCode t.code && m != 0 && decide (magLog m (e + sc) < -126) then (.fin n 0 0, fl ||| fFZ)
      else (.fin n m (e + sc), fl)
    | w => (w, fl)

/-- The operands of rows 0 to `rows` − 1, all 64 columns; an element outside the shape reads +0 without flags. -/
def TH.operands (t : TH) (body : List Byte) (ftz : Bool) : List (Val × Flags) :=
  let side := body.drop 4096
  ((elemsOf t.code body).take (t.rows * 64)).zipIdx.map (fun p =>
    if t.inShape p.2 then t.operand side ftz p.2 p.1 else (.zero, 0))

/-- What an engine op makes: the encodings of its elements, flags, and whether a non-finite value arose. -/
structure Made where
  elems : List Nat
  flags : Flags
  nf    : Bool
  deriving DecidableEq, Repr

/-- The encoding is a NaN or an infinity of the format. -/
def nonFin (c b : Nat) : Bool :=
  match floatFmt c with
  | some f => !(f.decode b).isFin
  | none => false

/-- Elements gathered from (encoding, flags) pairs, in a format. -/
def gather (c : Nat) (l : List (Nat × Flags)) : Made :=
  ⟨l.map (fun p => p.1), l.foldl (fun a p => a ||| p.2) 0, l.any (fun p => nonFin c p.1)⟩

/-- Elements in the shape, others +0. -/
def shaped (t : TH) (l : List (Nat × Flags)) : List (Nat × Flags) :=
  l.zipIdx.map (fun p => if t.inShape p.2 then p.1 else (0, 0))

/-- An exact result with its flags rounded to a format by an arithmetic op. -/
def roundOp (c : Nat) (ftz : Bool) (r : Val × Flags) : Nat × Flags :=
  match floatFmt c with
  | some f => let p := f.round ftz r.1; (p.1, r.2 ||| p.2)
  | none => (0, r.2)

/-- An elementwise op on one operand tile. -/
def map1 (t : TH) (c : Nat) (ftz : Bool) (g : Val → Val × Flags) (a : List (Val × Flags)) : Made :=
  gather c (shaped t (a.map (fun p => let r := roundOp c ftz (g p.1); (r.1, p.2 ||| r.2))))

/-- An elementwise op on two operand tiles. -/
def map2 (t : TH) (c : Nat) (ftz : Bool) (g : Val → Val → Val × Flags) (a b : List (Val × Flags)) : Made :=
  gather c (shaped t (List.zipWith (fun p q =>
    let r := roundOp c ftz (g p.1 q.1); (r.1, p.2 ||| q.2 ||| r.2)) a b))

/-- An elementwise op on three operand tiles. -/
def map3 (t : TH) (c : Nat) (ftz : Bool) (g : Val → Val → Val → Val × Flags) (a b d : List (Val × Flags)) : Made :=
  gather c (shaped t (List.zipWith (fun (pq : (Val × Flags) × (Val × Flags)) w =>
    let r := roundOp c ftz (g pq.1.1 pq.2.1 w.1); (r.1, pq.1.2 ||| pq.2.2 ||| w.2 ||| r.2)) (a.zip b) d))

/-! ### Scale choice (R132) -/

/-- The largest finite magnitude of a block-scalable target: 448, 57,344, 127. -/
def blockMax (c : Nat) : Nat := if c = 3 then 448 else if c = 4 then 57344 else 127

/-- The exponent of a block's scale for the exact values of its elements (R132). -/
def blockExp (c : Nat) (l : List Val) : Int :=
  let m := l.foldl (fun a v => match v with | .fin _ m e => magMax a (m, e) | _ => a) (0, 0)
  if m.1 = 0 then 0
  else
    let e0 := magLog m.1 m.2 - (Nat.log2 (blockMax c) : Nat)
    let e1 := if magLe m.1 m.2 (blockMax c) e0 then e0 else e0 + 1
    if e1 < -127 then -127 else if 127 < e1 then 127 else e1

/-- A list cut into `n` blocks of `k`. -/
def blocksOf {α : Type} (k : Nat) : Nat → List α → List (List α)
  | 0, _ => []
  | n + 1, l => l.take k :: blocksOf k n (l.drop k)

/-- Rows that a payload of 32-bit elements holds at the row stride of R49. -/
def metaCap : Nat := rowCap 9

/-- The rows of a metadata tile (R238): up to 16 rows at the stride of R49; a taller one, which 4,096 bytes cannot hold at
that stride, has 16 elements in each row, the most groups of Table 9.4 (log entry 114). -/
def metaRowsOf (rows : Nat) (body : List Byte) : List (List Nat) :=
  blocksOf (if rows ≤ metaCap then 64 else 16) rows (elemsOf 9 body)

/-- The payload of a metadata tile of these rows. -/
def metaPayload (l : List (List Nat)) : List Byte :=
  let w := if l.length ≤ metaCap then 64 else 16
  fit 4096 (l.flatMap (fun r => (r.take w ++ List.replicate (w - r.length) 0).flatMap (fun v => toLE 4 v)))

/-- Exact values converted to FMT (R131 to R134), with the sidecar when BS = 1: elements, flags, sidecar bytes. The
values are already divided by the tensor scale. -/
def convertAll (c : Nat) (bs : Bool) (sblk : Nat) (clip ftz : Bool) (l : List (Val × Flags)) :
    List (Nat × Flags) × List Byte :=
  if bs then
    let k := sblkSize sblk
    let full := l ++ List.replicate (4096 - l.length) (Val.zero, 0)
    let bl := (blocksOf k (4096 / k) full).map (fun b =>
      let e := blockExp c (b.map (fun p => p.1))
      (b.map (fun p => let r := convertTo c clip ftz (p.1.scale (-e)); (r.1, p.2 ||| r.2)), BitVec.ofInt 8 (e + 127)))
    (bl.flatMap (fun p => p.1), bl.map (fun p => p.2))
  else (l.map (fun p => let r := convertTo c clip ftz p.1; (r.1, p.2 ||| r.2)), [])

/-! ### amax and the running maximum -/

/-- Elements i < VALID_ROWS and j < COLS. -/
def TH.validElems (t : TH) (l : List (Val × Flags)) : List Val :=
  (l.zipIdx.filter (fun p => decide (p.2 / 64 < t.valid) && decide (p.2 % 64 < t.cols))).map (fun p => p.1.1)

/-- The largest finite magnitude as FP32 for X31 (R133): rounded once, at most the largest finite value; 0 where no element is
finite (log entry 150). -/
def runMax (l : List Val) : Word :=
  let m := l.foldl (fun a v => match v with | .fin _ m e => magMax a (m, e) | _ => a) (0, 0)
  word (min 0x7F7FFFFF (roundF32 false (.fin false m.1 m.2)).1)

/-- amax (R124): the result with NV when a NaN was read. A magnitude that FP32 does not hold is rounded once to it (log entry
149). -/
def amaxOf (l : List Val) : Word × Flags :=
  if l.any (fun v => v = .nan) then (0x7FC00000, fNV)
  else if l.any (fun v => !v.isFin) then (0x7F800000, 0)
  else
    let m := l.foldl (fun a v => match v with | .fin _ m e => magMax a (m, e) | _ => a) (0, 0)
    (word (roundF32 false (.fin false m.1 m.2)).1, 0)

/-! ### Dahlia's dot product (R128 to R130) -/

/-- One product (R129): at 2^128 or more in magnitude an infinity with OF. -/
def product (a b : Val) : Val × Flags :=
  let p := a.mul b
  match p.1 with
  | .fin n m e => if m != 0 && decide (128 ≤ magLog m e) then (.inf n, p.2 ||| fOF) else p
  | _ => p

/-- A finite product on the grid of unit 2^g, truncated toward minus infinity. -/
def onGrid (g : Int) : Val → Int
  | .fin n m e =>
    let x : Int := if n then -(m : Int) else m
    if g ≤ e then x * 2 ^ (e - g).toNat else x / 2 ^ (g - e).toNat
  | _ => 0

/-- The sum of a group of at most 32 products (R128, Table 5.6). -/
def groupSum (ps : List (Val × Flags)) : Val × Flags :=
  let fl := ps.foldl (fun a p => a ||| p.2) 0
  let vs := ps.map (fun p => p.1)
  if vs.any (fun v => v = .nan) then (.nan, fl)
  else if vs.contains (.inf false) && vs.contains (.inf true) then (.nan, fl ||| fNV)
  else if vs.contains (.inf false) then (.inf false, fl)
  else if vs.contains (.inf true) then (.inf true, fl)
  else
    let logs := vs.filterMap (fun v => match v with | .fin _ m e => if m = 0 then none else some (magLog m e) | _ => none)
    match logs with
    | [] => (.zero, fl)
    | l :: r =>
      let g := r.foldl max l - 29
      let t := (vs.map (onGrid g)).foldl (· + ·) 0
      (.fin (decide (t < 0)) t.natAbs g, fl)

/-- An FP32 accumulator element after one group: one rounding of the exact sum, and never −0 (R130). The element itself is no
operand that FTZ flushes (log entry 152). -/
def accStep (ftz : Bool) (p : Word × Flags) (g : Val × Flags) : Word × Flags :=
  let r := (f32 p.1).add g.1
  let q := roundF32 ftz r.1
  (if q.1 = 0x80000000 then 0 else word q.1, p.2 ||| g.2 ||| r.2 ||| q.2)

/-- An FP32 accumulator element after the products of one op, in groups of 32. -/
def dotF32 (ftz : Bool) (acc : Word) (ps : List (Val × Flags)) : Word × Flags :=
  ((blocksOf 32 (cdiv ps.length 32) ps).map groupSum).foldl (accStep ftz) (acc, 0)

/-- The integer of a finite integer value. -/
def Val.toInt : Val → Int
  | .fin n m e => let x : Int := (m * 2 ^ e.toNat : Nat); if n then -x else x
  | _ => 0

/-- An INT32 accumulator element after one op: exact total, saturated once (R130). -/
def dotInt (acc : Word) (ps : List (Val × Flags)) : Word × Flags :=
  let t := acc.toInt + (ps.map (fun p => p.1.toInt)).foldl (· + ·) 0
  if t < -(2 ^ 31) then (0x80000000, fOF) else if 2 ^ 31 - 1 < t then (0x7FFFFFFF, fOF) else (BitVec.ofInt 32 t, 0)

/-! ### The exact sum (R137 to R139) -/

/-- A finite value on the 2^−1074 grid. -/
def onEaGrid : Val → Int
  | .fin n m e => let x : Int := (m * 2 ^ (e + 1074).toNat : Nat); if n then -x else x
  | _ => 0

/-- A column absorbs an element. -/
def EaCol.absorb (c : EaCol) (v : Val) : EaCol × Flags :=
  match v with
  | .nan => ({ c with nn := true }, fNV)
  | .inf neg => (if neg then { c with ni := true } else { c with pi := true }, 0)
  | w => ({ c with a := c.a + onEaGrid w }, 0)

/-- xout of one column (Table 5.8): output encoding, flags, the column afterwards. -/
def EaCol.out (c : EaCol) (f : FloatFmt) (ftz : Bool) : Nat × Flags × EaCol :=
  if c.nn || (c.pi && c.ni) then (f.nanB, fNV, c)
  else if c.pi then (f.infB false, 0, c)
  else if c.ni then (f.infB true, 0, c)
  else
    let r := f.round ftz (.fin (decide (c.a < 0)) c.a.natAbs (-1074))
    if r.2 &&& (fOF ||| fFZ) ≠ 0 then (r.1, r.2, c)
    else (r.1, r.2, { c with a := c.a - onEaGrid (f.decode r.1) })

/-! ### Aster's addition on encodings (R123, R135) and scaling (R164) -/

/-- An element of a plain floating-point format as an operand under FTZ. -/
def plainOperand (f : FloatFmt) (ftz : Bool) (b : Nat) : Val × Flags :=
  if ftz && f.isSub b then (match f.decode b with | .fin n _ _ => .fin n 0 0 | w => w, fFZ) else (f.decode b, 0)

/-- One Aster addition in a format. -/
def addBits (c : Nat) (ftz : Bool) (a b : Nat) : Nat × Flags :=
  match floatFmt c with
  | none => (0, 0)
  | some f =>
    let x := plainOperand f ftz a
    let y := plainOperand f ftz b
    let r := roundOp c ftz (x.1.add y.1)
    (r.1, x.2 ||| y.2 ||| r.2)

/-- 1 / C rounded once to FP32 (R164). -/
def recipF32 (n : Nat) : Word :=
  if n = 0 then 0 else
  let r := recipMag n 0
  word (roundF32 false (.fin false r.1 r.2)).1

/-- An element times an FP32 factor, rounded once to the element's format (R164). -/
def mulBits (c : Nat) (ftz : Bool) (a : Nat) (k : Word) : Nat × Flags :=
  let x := match floatFmt c with | some f => plainOperand f ftz a | none => (.nan, 0)
  let r := roundOp c ftz (x.1.mul (f32 k))
  (r.1, x.2 ||| r.2)

/-! ### The sampling generator (R142) -/

/-- Output `k` of the stream of seed `s`. -/
def sampleGen (s : DWord) (k : DWord) : DWord :=
  let x0 := s + (k + 1) * 0x9E3779B97F4A7C15
  let x1 := (x0 ^^^ (x0 >>> 30)) * 0xBF58476D1CE4E5B9
  let x2 := (x1 ^^^ (x1 >>> 27)) * 0x94D049BB133111EB
  x2 ^^^ (x2 >>> 31)

end Sys2Proof.Machine
end

