-- ==== Sys2Proof/Machine/Buckets.lean ====
section
/-! DEFINITION. The bucket path (R146 to R173): bucket headers, the bucket table, membership, the entry stage, the
fabric rounds, delivery, empty-bucket notices and abandon. -/

namespace Sys2Proof.Machine

open Sys2Proof

/-! ### The bucket header (Table 6.1) -/

/-- KIND of a bucket header. -/
def bhKind (h : List Word) : Nat := fld (nth h 0 0) 0 2
/-- WFMT. -/
def bhWfmt (h : List Word) : Nat := fld (nth h 0 0) 2 2
/-- MEAN. -/
def bhMean (h : List Word) : Bool := bitOf (nth h 0 0) 4
/-- NFPOL. -/
def bhNfpol (h : List Word) : Bool := bitOf (nth h 0 0) 5
/-- DYN. -/
def bhDyn (h : List Word) : Bool := bitOf (nth h 0 0) 6
/-- EXCL. -/
def bhExcl (h : List Word) : Bool := bitOf (nth h 0 0) 7
/-- GROUP. -/
def bhGroup (h : List Word) : Nat := fld (nth h 0 0) 8 6
/-- COUNT. -/
def bhCount (h : List Word) : Nat := fld (nth h 0 0) 16 14
/-- STEP. -/
def bhStep (h : List Word) : Word := nth h 1 0
/-- BUCKET. -/
def bhBucket (h : List Word) : Nat := fld (nth h 2 0) 0 20
/-- DEADLINE. -/
def bhDeadline (h : List Word) : Nat := fld (nth h 3 0) 0 24
/-- TILES. -/
def bhTiles (h : List Word) : Nat := fld (nth h 4 0) 0 16
/-- OUT_ITIN. -/
def bhItin (h : List Word) : Nat := fld (nth h 4 0) 16 12
/-- SENDER. -/
def bhSender (h : List Word) : Nat := fld (nth h 5 0) 0 14
/-- SENDER_KIND. -/
def bhSenderKind (h : List Word) : Nat := fld (nth h 5 0) 14 2
/-- STAGE. -/
def bhStage (h : List Word) : Nat := fld (nth h 5 0) 16 4
/-- HALL_TILES. -/
def bhHall (h : List Word) : Nat := fld (nth h 6 0) 0 16

/-- The format code of a wire format (Table 6.2). -/
def wfmtCode (w : Nat) : Nat := if w = 0 then 1 else if w = 1 then 0 else 5

/-- A header of the bucket's settings (R150). -/
def Bucket.header (b : Bucket) (kind : Nat) (excl : Bool) (count tiles sender stage hall : Nat) : List Word :=
  [word (kind + b.wfmt * 2 ^ 2 + b2n b.mean * 2 ^ 4 + b2n b.nfpol * 2 ^ 5 + b2n b.dyn * 2 ^ 6 + b2n excl * 2 ^ 7 +
      b.group * 2 ^ 8 + count % 2 ^ 14 * 2 ^ 16),
   b.step, word b.bucket, word b.dline, word (tiles + b.outItin * 2 ^ 16),
   word (sender % 2 ^ 14 + 2 ^ 14 + stage * 2 ^ 16), word hall, 0]

/-! ### The hall's shape (R15, R18, R148) -/

/-- D, the number of devices. -/
def State.hallD (s : State) : Nat := s.img.g * s.img.p
/-- L = lcm(256, D). -/
def State.hallL (s : State) : Nat := max 256 s.hallD
/-- The compact index of this device. -/
def State.compact (s : State) : Nat := s.rank / 16 * s.img.p + s.rank % 16

/-- The rounds that R18 does not skip. -/
def State.rounds (s : State) : List Nat :=
  (List.range 9).filter (fun r => if r < 4 then decide (r < Nat.log2 s.img.p) else decide (r - 4 < Nat.log2 s.img.g))

/-- The compact-index bit of a round. -/
def State.roundBit (s : State) (r : Nat) : Nat := if r < 4 then r else r - 4 + Nat.log2 s.img.p

/-- The partner in a round. -/
def State.partner (s : State) (r : Nat) : Nat := s.rank ^^^ 2 ^ r

/-- This device still keeps shard `sh` after the given rounds. -/
def State.keeps (s : State) (rs : List Nat) (sh : Nat) : Bool :=
  rs.all (fun r => sh.testBit (s.roundBit r) == s.compact.testBit (s.roundBit r))

/-- The reducing station of tile `k` (R154); none where no station is reducing. -/
def State.redStn (s : State) (k : Nat) : Option StnId := s.redStns[k % s.redStns.length]?

/-- The slot that a station serves (Table 6.8). -/
def State.slotOf (s : State) (n : StnId) : Option Nat :=
  firstBelow 16 (fun e =>
    !s.rbit (Reg.crsRedEpstn (e / 4)) (8 * (e % 4) + 7) && s.rf (Reg.crsRedEpstn (e / 4)) (8 * (e % 4)) 6 == n.val)

/-- The slot is expected in a group (R149). -/
def State.expects (s : State) (g e : Nat) : Bool := s.rbit (Reg.crsRedGroup g) e

/-! ### The table -/

/-- The entry at an index. -/
def State.bkt (s : State) (i : Nat) : Option Bucket := Cells.look s.buckets i

/-- The state with an entry set. -/
def State.setBkt (s : State) (b : Bucket) : State := { s with buckets := Cells.ins s.buckets (b.bucket % 4096) b }

/-- Raise a RED code: BUCKET and SENDER are its details; a remote sender names its device (R404). -/
def State.raiseRed (s : State) (n : Nat) (bucket sender : Nat) (remote : Bool) : State :=
  s.raise ⟨.red, n⟩ (if remote then uRemote sender else uDevice) [word bucket, word sender]

/-- Frees what a tile holds: its block at the reducing station of tile `k`, or its staging place. -/
def State.freeB (s : State) (k : Nat) (t : BTile) : State :=
  let s1 := match t.blk, s.redStn k with | some b, some n => s.freeTile n (some b) | _, _ => s
  match t.stg with | some i => { s1 with stgUsed := s1.stgUsed.erase i } | none => s1

/-- Frees a list of tiles by index. -/
def State.freeBs (s : State) (l : Cells BTile) : State := l.foldl (fun t e => t.freeB e.1 e.2) s

/-- The number under which a tile of a bucket asks for its block: `who` is its slot, 16 and its round, or 31 for a sum. -/
def tileKey (bucket k who : Nat) : Nat := 2 * ((bucket * 16384 + k) * 32 + who) + 1

/-- A tile of index `k` waits for a block of its reducing station (R157, R297). -/
def State.waitB (s : State) (bucket k who : Nat) : State :=
  match s.redStn k with | some n => s.clkWait n .wicket (tileKey bucket k who) 4352 | none => s

/-- A tile takes a block at the reducing station, where its payload then stands. -/
def State.takeB (s : State) (bucket k who : Nat) (bytes : List Byte) (nf fz : Bool) : Option (BTile × State) :=
  match s.redStn k with
  | none => none
  | some n => match s.allocTile n .wicket (tileKey bucket k who) with
    | none => none
    | some (b, s1) => some (⟨some b, none, nf, fz⟩, s1.putBlk n b bytes)

/-- The DRAM offset of place `i` of the staging region (R165). -/
def State.stageAt (s : State) (i : Nat) : Nat := (s.rg64 Reg.crsRedStageLo).toNat % 2 ^ 40 + i * 4096

/-- A tile of index `k` takes a place in the staging region of EXCLUDE buckets (R165), the lowest free one, and is written
through the station port of its reducing station (log entry 138). -/
def State.stageB (s : State) (k : Nat) (bytes : List Byte) (nf fz : Bool) : Option (BTile × State) :=
  match s.redStn k, firstBelow (16 * s.rf Reg.crsRedStageSize 0 16) (fun i => !s.stgUsed.contains i) with
  | some n, some i => some (⟨none, some i, nf, fz⟩,
      ({ s with stgUsed := i :: s.stgUsed }).dramWriteWords (s.stageAt i) bytes (.station n))
  | _, _ => none

/-- The payload of a tile that the device holds. -/
def State.tileBytes (s : State) (k : Nat) (t : BTile) : List Byte :=
  match t.blk, t.stg, s.redStn k with
  | some b, _, some n => (s.st n).vitBytes ((s.st n).lay.blkAddr b) 4096
  | none, some i, _ => Cells.read zeroByte s.dram (s.stageAt i) 4096
  | _, _, _ => []

/-- The words of a tile are read, in its block (R352) or in the staging region (R345, R346); whether every one was good. -/
def State.readTile (s : State) (k : Nat) (t : BTile) : State × Bool :=
  match t.blk, t.stg, s.redStn k with
  | some b, _, some n => s.vitCheck n ((s.st n).lay.blkAddr b) 4096
  | none, some i, some n => let r := s.dramRead (s.stageAt i) 4096 (.station n); (r.1, r.2.isSome)
  | _, _, _ => (s, true)

/-- The words of tiles are read before they are added or sent. An uncorrectable one halts the reducing station with MEM-02,
and what was to be done with them waits; a halted station's bad words are not read again (R346, R352, log entry 138). -/
def State.readTiles (s : State) : List (Nat × BTile) → State × Bool
  | [] => (s, true)
  | (k, t) :: r =>
    let c := s.readTile k t
    if c.2 then c.1.readTiles r
    else match s.redStn k with
      | some n => ((if (s.st n).st = .halted then s else c.1.haltMem n (match t.stg with
        | some i => s.ueOf (dword (s.stageAt i)) 4096
        | none => 0) none), false)
      | none => (s, false)

/-- The settings of a stream are the entry's (R150, R166). -/
def Bucket.agrees (b : Bucket) (h : List Word) : Bool :=
  bhWfmt h == b.wfmt && bhMean h == b.mean && bhNfpol h == b.nfpol && bhDyn h == b.dyn && bhGroup h == b.group &&
  bhDeadline h == b.dline && bhItin h == b.outItin &&
  (b.dyn || bhKind h != 0 || b.tiles == 0 || bhTiles h == b.tiles)

/-- The entry takes TILES from the first stream that carries it. -/
def Bucket.learn (b : Bucket) (h : List Word) : Bucket :=
  if !b.dyn && bhKind h == 0 && b.tiles == 0 then { b with tiles := bhTiles h } else b

/-- A new entry (R158). -/
def State.newBucket (s : State) (h : List Word) : Bucket :=
  let d := if bhDeadline h = 0 then s.rf Reg.crsRedDeadline 0 24 else bhDeadline h
  { step := bhStep h, bucket := bhBucket h, st := .open_, wfmt := bhWfmt h, mean := bhMean h, nfpol := bhNfpol h,
    dyn := bhDyn h, group := bhGroup h, dline := bhDeadline h, outItin := bhItin h, tiles := 0,
    deadline := s.ht + dword d, m := none, contrs := [],
    disc := (s.redDisc.filter (fun x => x.bad && x.step == bhStep h && x.bucket == bhBucket h)).filterMap
      (fun x => s.slotOf (stnOf x.port)), excl := false, nf := false,
    nfTiles := [], settled := false, entryCnt := 0, count := 0, sizeCnt := 0, hmax := 0, sizeNext := 0,
    sizeSent := [], sizes := [], stage := 0, entryCh := 0, bhSent := [], sent := [], roundCh := [], own := [],
    fabs := [], collide := false }

/-! ### Membership (R159, R160) -/

/-- The members that R165 has not excluded. -/
def Bucket.present (b : Bucket) : List Contr := b.contrs.filter (fun c => !c.excl)

/-- The members are settled: the entry count, and the largest size (R163, R171). -/
def Bucket.settle (b : Bucket) : Bucket :=
  let n := b.present.length
  { b with settled := true, entryCnt := n, count := n, sizeCnt := n,
           hmax := (b.present.map (fun c => c.tiles)).foldl max 0 }

/-- DEADLINE_EXCL and CRS_RED_STATUS.EXCL (R160). -/
def State.exclFlags (s : State) : State := (s.stepFlag 0).redStatus 2

/-- The membership tick comes (R159): expected slots that are neither members nor discarded are excluded and counted. -/
def State.fixM (s : State) (b : Bucket) : State :=
  let late := (List.range 16).filter (fun e =>
    s.expects b.group e && !b.contrs.any (fun c => c.slot = e) && !b.disc.contains e)
  let b1 := { b with m := some s.ht, st := .members, excl := b.excl || !late.isEmpty }
  let b2 := if b1.nfpol then b1 else b1.settle
  let s1 := s.setBkt b2
  if late.isEmpty then s1 else (s1.addSat Reg.crsRedLate late.length).exclFlags

/-- M comes when every expected slot has arrived or been discarded. -/
def State.checkM (s : State) (i : Nat) : State :=
  match s.bkt i with
  | some b =>
    if b.st = .open_ && (List.range 16).all (fun e =>
        !s.expects b.group e || b.contrs.any (fun c => c.slot = e) || b.disc.contains e) then s.fixM b else s
  | none => s

/-- BUCKET_DEADLINE (R158, R159): D_b fixes the membership of an entry whose M has not come. -/
def execBucketDeadline (b : Fin 4096) (s : State) : Host.Outcome State Fault Refusal :=
  .next (match s.bkt b.val with
    | some e => if e.st = .open_ && e.m.isNone && decide (e.deadline.toNat ≤ s.ht.toNat) then s.fixM e else s
    | none => s)

/-! ### Bucket headers (R151, R166) -/

/-- The bucket's tag is held by an entry that can take streams. -/
def Bucket.isTag (b : Bucket) (step : Word) (bucket : Nat) : Bool := b.step == step && b.bucket == bucket

/-- A stream that counts no more is noted. -/
def State.noteRed (s : State) (p : PortId) (step : Word) (bucket : Nat) (bad : Bool) : State :=
  if s.redDisc.contains ⟨p, step, bucket, bad⟩ then s else { s with redDisc := ⟨p, step, bucket, bad⟩ :: s.redDisc }

/-- The port's stream of a tag was discarded under R151 or R166. -/
def State.redBad (s : State) (p : PortId) (step : Word) (bucket : Nat) : Bool := s.redDisc.contains ⟨p, step, bucket, true⟩

/-- The stream that a device's header begins. -/
def strayOf (h : List Word) : StrayStream := ⟨bhStep h, bhBucket h, bhStage h - 1, bhSender h, bhTiles h⟩

/-- A stray stream's header (R161): counted, with RED-02 for the stream; a device's is kept in mind for its tiles. -/
def State.strayHead (s : State) (p : PortId) (h : List Word) (remote : Bool) : State :=
  let s1 := ((s.inc Reg.crsRedStray).raiseRed 2 (bhBucket h) (bhSender h) remote).noteRed p (bhStep h) (bhBucket h) false
  if remote && bhKind h == 0 && !s1.redStray.contains (strayOf h) then { s1 with redStray := strayOf h :: s1.redStray } else s1

/-- A tile of a stream that counts no more (R161): counted, with RED-02 once for the stream. -/
def State.strayTile (s : State) (p : PortId) (step : Word) (bucket sender : Nat) (remote : Bool) : State :=
  let s1 := s.inc Reg.crsRedStray
  if s.redDisc.contains ⟨p, step, bucket, false⟩ then s1
  else (s1.raiseRed 2 bucket sender remote).noteRed p step bucket false

/-- The last tile of a stray stream has come: nothing more of it is awaited. -/
def State.lastStray (s : State) (t : TH) : State :=
  if !t.last then s
  else { s with redStray := s.redStray.filter (fun x =>
    !(x.step == t.step && x.bucket == t.tag.toNat % 2 ^ 20 && x.sender == t.origin)) }

/-- A discarded contribution (R151, R166): CRS_RED_BAD, the code, and the stream is noted. Its slot counts as arrived and
excluded, but for the slot of a member, whose own stream stands. -/
def State.badStream (s : State) (p : PortId) (bucket sender code : Nat) (step : Word) : State :=
  let s1 := (s.inc Reg.crsRedBad).raiseRed code bucket sender false
  let s2 := s1.noteRed p step bucket true
  match s1.slotOf (stnOf p), s1.bkt (bucket % 4096) with
  | some e, some b =>
    if !b.isTag step bucket then s2
    else if b.contrs.any (fun c => c.slot = e) then s1
    else if b.disc.contains e then s2
    else (s2.setBkt { b with disc := e :: b.disc }).checkM (bucket % 4096)
  | _, _ => s2

/-- An endpoint's header breaks R151. -/
def State.bhMalformed (s : State) (slot : Option Nat) (h : List Word) : Bool :=
  bhKind h != 0 || bhWfmt h == 3 || bhCount h != 1 || bhSenderKind h != 0 ||
  (match slot with
    | none => true
    | some e => bhSender h != s.rank * 16 + e || !s.expects (bhGroup h) e) ||
  bhStage h != 0 ||
  (if bhDyn h then decide (bhTiles h < 1 ∨ 16384 < bhTiles h)
   else decide (bhTiles h < 1024 ∨ 16384 < bhTiles h) || bhTiles h % s.hallL != 0) ||
  bhHall h != 0

/-- What a header finds in the table (R166): an entry that takes it, a stray, or a wait behind another tag. -/
inductive Found where
  | entry (b : Bucket) (s : State)
  | stray
  | waits (s : State)

/-- The table is consulted; a free or finished entry opens for the new tag. -/
def State.findEntry (s : State) (h : List Word) : Found :=
  let open_ : Found :=
    let b := s.newBucket h
    .entry b (s.setBkt b)
  match s.bkt (bhBucket h % 4096) with
  | none => open_
  | some b =>
    if b.running then
      if b.isTag (bhStep h) (bhBucket h) then .entry b s
      else if b.collide then .waits s
      else .waits (((s.setBkt { b with collide := true }).redStatus 4).raiseRed 6 (bhBucket h) (bhSender h) false)
    else if b.isTag (bhStep h) (bhBucket h) then .stray
    else open_

/-- An entry that opens after the close tick takes M at once (R159). -/
def State.afterClose (s : State) (i : Nat) : State :=
  if s.stepState = 1 then s.checkM i
  else match s.bkt i with
    | some b => if b.st = .open_ then s.fixM b else s
    | none => s

/-- The close tick of the step has come: it is D_b of every entry whose M has not (R34, R159). -/
def State.closeCame (s : State) : Bool :=
  s.stepState != 1 || decide ((s.rg64 Reg.htStepCloseLo).toNat ≤ s.ht.toNat)

/-- The slot was a member or was discarded, and counts no more (R151, R161, R165): its later frames are stray after M. -/
def Bucket.gone (b : Bucket) (e : Nat) : Bool :=
  b.m.isSome && (b.disc.contains e || b.contrs.any (fun c => c.slot = e && c.excl))

/-- A second header of a slot (R166): discarded with RED-08, and stray where the slot is excluded and M has come (R161). -/
def State.secondHead (s : State) (p : PortId) (e : Nat) (b : Bucket) (h : List Word) : State :=
  (if b.gone e then s.strayHead p h false else s).raiseRed 8 (bhBucket h) (bhSender h) false

/-- A stream of the endpoint of slot `e` meets the entry of its tag (R159, R166). -/
def State.joinEntry (s : State) (p : PortId) (e : Nat) (b : Bucket) (h : List Word) : State :=
  if b.contrs.any (fun c => c.slot = e) then s.secondHead p e b h
  else if !b.agrees h then (s.redStatus 3).badStream p (bhBucket h) (bhSender h) 3 (bhStep h)
  else if b.disc.contains e then s.secondHead p e b h
  else if b.m.isSome || decide (b.deadline.toNat ≤ s.ht.toNat) || s.closeCame then s.strayHead p h false
  else s.setBkt { b.learn h with contrs := b.contrs ++ [⟨e, bhTiles h, [], false, false⟩] }

/-- An endpoint's bucket header arrives at port `p`: the state, and whether the frame still waits. -/
def State.endpointBh (s : State) (p : PortId) (h : List Word) : State × Bool :=
  let slot := s.slotOf (stnOf p)
  if s.bhMalformed slot h then (s.badStream p (bhBucket h) (bhSender h) 1 (bhStep h), false)
  else if bhStep h ≠ s.stepCur then (s.strayHead p h false, false)
  else match s.findEntry h with
    | .stray => (s.strayHead p h false, false)
    | .waits s1 => (s1, true)
    | .entry b s1 => ((s1.joinEntry p (slot.getD 0) b h).afterClose (bhBucket h % 4096), false)

/-- A device's bucket header of stage 1 to 9 at port `p`. -/
def State.deviceBh (s : State) (p : PortId) (h : List Word) : State × Bool :=
  let r := bhStage h - 1
  let i := bhBucket h % 4096
  if bhStage h = 0 ∨ !s.rounds.contains r ∨ bhSender h ≠ s.partner r ∨ bhSenderKind h ≠ 1 ∨ bhKind h = 3 ∨
      bhWfmt h = 3 ∨ bhStep h ≠ s.stepCur then (s.strayHead p h true, false)
  else match s.findEntry h with
    | .stray => (s.strayHead p h true, false)
    | .waits s1 => (s1, true)
    | .entry b s1 =>
      let dup := if bhKind h = 2 then b.sizes.any (fun x => x.1 = r) else b.fabs.any (fun x => x.round = r)
      if dup then ((s1.raiseRed 8 (bhBucket h) (bhSender h) true).afterClose i, false)
      else if !b.agrees h then
        let b0 := { b with excl := b.excl || bhExcl h }
        let b1 := if bhKind h = 2 then { b0 with sizes := (r, 0, 0) :: b0.sizes }
          else { b0 with fabs := b0.fabs ++ [⟨r, bhSender h, 0, bhTiles h, []⟩] }
        ((((s1.setBkt b1).redStatus 3).raiseRed 4 (bhBucket h) (bhSender h) true).afterClose i, false)
      else
        let b1 := { b.learn h with excl := b.excl || bhExcl h }
        let b2 :=
          if bhKind h = 2 then { b1 with sizes := (r, bhCount h, bhHall h) :: b1.sizes }
          else { b1 with fabs := b1.fabs ++ [⟨r, bhSender h, if bhKind h = 1 then 0 else bhCount h, bhTiles h, []⟩] }
        ((s1.setBkt b2).afterClose i, false)

/-! ### Empty-bucket notices (R169) -/

/-- The notice at hop 0 of OUT_ITIN, with the header that a port sends in its place. -/
def State.emptyNotice (s : State) (step : Word) (bucket origin itin : Nat) (h : List Word) : State :=
  let n := (s.redStns.head?).getD 0
  let s1 := { s with notices := ((step, bucket), h) :: s.notices.filter (fun x => x.1 ≠ (step, bucket)) }
  s1.arrive n (TH.headerOnly 1 step bucket origin 1 n.val itin 0) [] .none

/-- The notice of an entry. -/
def State.bucketNotice (s : State) (b : Bucket) : State :=
  s.emptyNotice b.step b.bucket s.rank b.outItin (b.header 1 b.excl 0 0 s.rank 10 (if b.dyn then b.hmax else 0))

/-- A STAGE 10 header from a device: the notice is formed again with ORIGIN equal to the SENDER. -/
def State.relayNotice (s : State) (h : List Word) : State :=
  s.emptyNotice (bhStep h) (bhBucket h) (bhSender h) (bhItin h)
    (h.set 5 (setFld (setFld (nth h 5 0) 0 14 s.rank) 14 2 1))

/-- A header-only frame that is an empty-bucket notice. -/
def TH.isNotice (t : TH) : Bool := t.hdrOnly && t.tagKind == 1 && t.contrib == 0

/-! ### Bucket tiles (R147, R161, R165, R166) -/

/-- A tile has the properties of R147 for a stream of the entry. -/
def Bucket.tileOk (b : Bucket) (t : TH) (contrib : Nat) : Bool :=
  let c := wfmtCode b.wfmt
  !t.hdrOnly && t.fmt == c && t.sblk == 0 && t.rows == rowCap c && t.cols == 64 && t.valid == rowCap c &&
  t.tscale == 0x7F && t.contrib == contrib

/-- The scan of R165. -/
def scanNf (t : TH) (data : List Byte) : Bool :=
  ((elemsOf t.code data).zipIdx).any (fun p => t.inShape p.2 && nonFin t.code p.1)

/-- A contribution replaced in the entry. -/
def Bucket.setContr (b : Bucket) (c : Contr) : Bucket :=
  { b with contrs := b.contrs.map (fun d => if d.slot = c.slot then c else d) }

/-- A tile of an endpoint's stream ends the stream (R151): its contribution is malformed from this tile on. -/
def State.badTile (s : State) (p : PortId) (b : Bucket) (c : Contr) (sender : Nat) : State :=
  let b1 := { b with contrs := b.contrs.filter (fun d => !(d.slot = c.slot)) }
  let b2 := if b1.settled then { b1 with entryCnt := b1.present.length, count := b1.present.length,
                                         sizeCnt := b1.present.length } else b1
  ((s.freeBs c.data).setBkt b2).badStream p b.bucket sender 1 b.step

/-- A member tile of index `k` has NF (R165). -/
def Bucket.noteNf (b : Bucket) (k : Nat) (nf : Bool) : Bucket :=
  if nf && !b.nfTiles.contains k then { b with nfTiles := k :: b.nfTiles } else b

/-- A good tile of a member is held for the entry stage: in a block, or staged for EXCLUDE; whether it still waits. -/
def State.holdTile (s : State) (b : Bucket) (c : Contr) (t : TH) (data : List Byte) (sender : Nat) : State × Bool :=
  let k := t.seq.toNat
  let nf := scanNf t data
  match (if b.nfpol then s.stageB k data nf t.fz else s.takeB b.bucket k c.slot data nf t.fz) with
  | none => (if b.nfpol then s else s.waitB b.bucket k c.slot, true)
  | some (bt, s1) =>
    let b1 := ({ b with nf := b.nf || nf }.noteNf k nf).setContr
      { c with data := Cells.ins c.data k bt, nf := c.nf || nf }
    let s2 := s1.setBkt b1
    let s3 := if nf && !c.nf && !b.nfpol then s2.addSat Reg.crsRedNfCnt 1 else s2
    (if t.last && k + 1 != c.tiles then s3.raiseRed 1 b.bucket sender false else s3, false)

/-- A tile of a member's stream has arrived before: its data, or the sum that they went into, are held. -/
def Bucket.hasTile (b : Bucket) (c : Contr) (k : Nat) : Bool :=
  (Cells.look c.data k).isSome || (Cells.look b.own k).isSome || decide (k < 256 * b.entryCh)

/-- A tile from an endpoint at port `p` (R151, R161, R165, R166); whether it still waits. A stream discarded as malformed
loses its tiles uncounted before M; what comes for the tag when it can count no more is stray. -/
def State.endpointTile (s : State) (p : PortId) (t : TH) (data : List Byte) : State × Bool :=
  let bucket := t.tag.toNat % 2 ^ 20
  let bad := s.redBad p t.step bucket
  match s.slotOf (stnOf p), s.bkt (bucket % 4096) with
  | some e, some b =>
    let sender := s.rank * 16 + e
    let stray : State × Bool := (s.strayTile p t.step bucket sender false, false)
    if !b.isTag t.step bucket then (if bad then (s, false) else stray)
    else if !b.running then stray
    else if b.disc.contains e then (if b.m.isSome then stray else (s, false))
    else match b.contrs.find? (fun c => c.slot = e) with
      | none => stray
      | some c =>
        if c.excl then stray
        else if !b.tileOk t 1 then (s.badTile p b c sender, false)
        else if c.tiles ≤ t.seq.toNat then stray
        else if b.hasTile c t.seq.toNat then (s.raiseRed 8 bucket sender false, false)
        else s.holdTile b c t data sender
  | _, _ => if bad then (s, false) else (s.strayTile p t.step bucket t.origin false, false)

/-- The size T of a bucket in tiles: its TILES, or hmax rounded up to L and at most 16,384 (R171). -/
def State.bucketT (s : State) (b : Bucket) : Nat :=
  if b.dyn then min 16384 (cdiv b.hmax s.hallL * s.hallL) else b.tiles

/-- Chunks of a bucket (R157). -/
def State.chunks (s : State) (b : Bucket) : Nat := max 1 (cdiv (s.bucketT b) 256)

/-- The shard of tile `k` of `t` tiles (R148). -/
def State.shardIn (s : State) (t k : Nat) : Nat := k / (t / s.hallD)

/-- The shard of tile `k` of a bucket. -/
def State.shardOf (s : State) (b : Bucket) (k : Nat) : Nat := s.shardIn (s.bucketT b) k

/-- The rounds before `r`. -/
def State.before (s : State) (r : Nat) : List Nat := s.rounds.filter (fun q => decide (q < r))

/-- This device receives tile `k` in round `r`. -/
def State.keepsTile (s : State) (b : Bucket) (r k : Nat) : Bool := s.keeps (s.before (r + 1)) (s.shardOf b k)

/-- This device gives tile `k` away in round `r`. -/
def State.givesTile (s : State) (b : Bucket) (r k : Nat) : Bool :=
  s.keeps (s.before r) (s.shardOf b k) && !s.keeps (s.before (r + 1)) (s.shardOf b k)

/-- What tile `k` that a device sent is to its stream of round `r`, whose header gives `tiles` (R155, R171): none where it is no
tile of the stream, such as one of the sender's own shard, which the sender delivers; else whether it lies below T and this
device takes it. -/
def State.fabTakes (s : State) (r tiles k : Nat) : Option Bool :=
  let t := min 16384 tiles
  if tiles = 0 then none
  else if t ≤ k then some false
  else if s.keeps (s.before (r + 1)) (s.shardIn t k) then some true else none

/-- Whose a device's bucket tile is: a stream of the entry of its tag takes it, it is stray, or it is of no stream. -/
inductive Whose where
  | part (b : Bucket) (f : FabStream)
  | stray
  | none

/-- The tile is of a stream whose header was discarded as stray (R166). -/
def State.isStray (s : State) (t : TH) : Bool :=
  s.redStray.any (fun x => x.step == t.step && x.bucket == t.tag.toNat % 2 ^ 20 && x.sender == t.origin &&
    (s.fabTakes x.round x.tiles t.seq.toNat).isSome)

/-- The stream to which a device's tile belongs (R155, R161, R166, R170, R171): that of the round of its tag's entry whose
partner is the tile's origin, or one that is stray. A stream of an entry that is DONE or ABANDONED, and a tile at or beyond T,
are stray. -/
def State.whose (s : State) (t : TH) : Whose :=
  let bucket := t.tag.toNat % 2 ^ 20
  let out : Whose := if s.isStray t then .stray else .none
  if fld t.w5 14 2 ≠ 1 then .none
  else match s.bkt (bucket % 4096) with
  | some b =>
    if !b.isTag t.step bucket then out
    else match b.fabs.find? (fun f => f.sender = t.origin) with
      | some f =>
        match s.fabTakes f.round f.tiles t.seq.toNat with
        | some ok => if b.running && (ok || f.count = 0) then .part b f else .stray
        | none => out
      | none => out
  | none => out

/-- The NF of a partner's partial that a member tile brought; the spec does not say how its owner learns it from one that an
addition made elsewhere, so that this is a free value (R165, log entry 123). -/
def State.fabNf (s : State) (nf : Bool) : Bool × State :=
  if nf then (((s.fresh 1).1 == 1#1), (s.fresh 1).2) else (false, s)

/-- A tile of a partner's stream; whether it still waits. -/
def State.deviceTile (s : State) (b : Bucket) (f : FabStream) (t : TH) (data : List Byte) : State × Bool :=
  let k := t.seq.toNat
  if f.count = 0 then (s, false)
  else if (Cells.look f.data k).isSome || decide (k < 256 * Cells.get zeroNat b.roundCh f.round) then
    (s.raiseRed 8 b.bucket f.sender true, false)
  else match s.takeB b.bucket k (16 + f.round) data t.nf t.fz with
    | none => (s.waitB b.bucket k (16 + f.round), true)
    | some (bt, s1) =>
      let m := s1.fabNf t.nf
      let s2 := m.2.setBkt ({ b with
        nf := b.nf || t.nf
        fabs := b.fabs.map (fun (g : FabStream) => if g.round = f.round then { f with data := Cells.ins f.data k bt } else g) }.noteNf k m.1)
      (if t.last && k + 1 != f.tiles then s2.raiseRed 1 b.bucket f.sender true else s2, false)

/-- A bucket frame at port `p`: its header first, then its tile; what still waits in the ingress room. A header that has
been taken is taken once. -/
def State.redFrame (s : State) (p : PortId) (w : Wire) : State × Option Wire :=
  let r1 : State × Bool := match w.xh with
    | .bh h =>
      if s.isEndpoint p then s.endpointBh p h
      else if bhStage h = 10 then (s.relayNotice h, false) else s.deviceBh p h
    | _ => (s, false)
  if r1.2 then (r1.1, some w)
  else match w.th with
    | none => (r1.1, none)
    | some t =>
      let r2 :=
        if s.isEndpoint p then r1.1.endpointTile p t w.data
        else match r1.1.whose t with
          | .part b f => r1.1.deviceTile b f t w.data
          | _ => ((r1.1.strayTile p t.step (t.tag.toNat % 2 ^ 20) t.origin true).lastStray t, false)
      (r2.1, if r2.2 then some { w with xh := .none } else none)

/-- The bucket tag of a frame (R146). -/
def Wire.redTag (w : Wire) : Option (Word × Nat) :=
  match w.xh, w.th with
  | .bh h, _ => some (bhStep h, bhBucket h)
  | _, some t => some (t.step, t.tag.toNat % 2 ^ 20)
  | _, none => none

/-- A bucket frame leaves its ingress room for the bucket path: its words are read there, and an uncorrectable one halts the
station of the region, where the frame waits on (R352). -/
def State.redTake (s : State) (x : RedIn) : State × Option Wire :=
  let len := 32 + x.wire.data.length
  let r := s.redFrame x.port x.wire
  if r.2.isSome then r
  else
    let c := s.readHold x.stn x.hold len
    if c.2 then (((c.1.redFrame x.port x.wire).1).releaseHold x.stn x.hold, none)
    else if (s.st x.stn).st = .halted then (s, some x.wire)
    else (c.1.halt x.stn ⟨.mem, 2⟩ none, some x.wire)

/-- A bucket frame arrives with its ingress room: it is taken and the room returns, or it waits behind what waits of its
stream, the port's frames of its tag (R157, R166). -/
def State.redArrive (s : State) (x : RedIn) : State :=
  if s.redWait.any (fun y => y.port = x.port && y.wire.redTag = x.wire.redTag) then { s with redWait := s.redWait ++ [x] }
  else
    let r := s.redTake x
    match r.2 with
    | some v => { r.1 with redWait := r.1.redWait ++ [{ x with wire := v }] }
    | none => r.1

/-- Waiting bucket frames are tried again in the order of their arrival. -/
def State.retryRed (s : State) : State := s.redWait.foldl State.redArrive { s with redWait := [] }

/-! ### The commands of the path -/

/-- BUCKET_HEADER_RECEIVE (R150, R151, R166). -/
def execBucketHeaderReceive (p : PortId) (bh : List Word) (s : State) : Host.Outcome State Fault Refusal :=
  .next (if (s.pt p).acc = .admitted ∧ (s.isEndpoint p ∨ s.isFabric p) then
    s.redArrive ⟨p, stnOf p, ⟨3, 0, false, s.rank, .bh bh, none, []⟩, .none⟩ else s)

/-- BUCKET_TILE_RECEIVE (R58, R147, R165, R166): the tile frame's header is checked as any arrival's. -/
def execBucketTileReceive (p : PortId) (tile : List Byte) (s : State) : Host.Outcome State Fault Refusal :=
  .next (if (s.pt p).acc = .admitted ∧ (s.isEndpoint p ∨ s.isFabric p) then
    let t := TH.ofBytes (tile.take 32)
    if !t.ok || tile.length != t.frameLen || t.tagKind != 1 then
      (s.inc (Reg.stnBadTh (stnOf p).val)).raise ⟨.stn, 1⟩ (uStn (stnOf p)) []
    else s.redArrive ⟨p, stnOf p, ⟨3, 0, false, s.rank, .none, some t.clean, tile.drop 32⟩, .none⟩
   else s)

/-- SIZE_EXCHANGE_ROUND (R171): the SIZE header goes to the partner, and the partner's, once here, is added. -/
def execSizeExchangeRound (b : Fin 4096) (r : Fin 9) (s : State) : Host.Outcome State Fault Refusal :=
  .next (match s.bkt b.val with
    | none => s
    | some e =>
      if !(e.dyn && e.settled && e.running && s.rounds.contains r.val && decide (e.sizeNext ≤ r.val) &&
          (s.before r.val).all (fun q => decide (q < e.sizeNext))) then s
      else
        let s1 :=
          if e.sizeSent.contains r.val then s
          else (s.setBkt { e with sizeSent := r.val :: e.sizeSent }).sendToDevice
            (Wire.ofXh 3 (s.partner r.val) (.bh (e.header 2 e.excl e.sizeCnt 0 s.rank (r.val + 1) e.hmax))) (s.rank + e.bucket)
        match s1.bkt b.val with
        | none => s1
        | some e1 =>
          match e1.sizes.find? (fun x => x.1 = r.val) with
          | none => s1
          | some (_, c, h) =>
            s1.setBkt { e1 with sizeCnt := e1.sizeCnt + c, hmax := max e1.hmax h, sizeNext := r.val + 1 })

/-- Every tile of a member has arrived. -/
def Contr.complete (c : Contr) : Bool := c.data.length == c.tiles

/-- EXCLUDE_SCAN (R165): after M and with every member complete, members with a non-finite tile are excluded. -/
def execExcludeScan (b : Fin 4096) (s : State) : Host.Outcome State Fault Refusal :=
  .next (match s.bkt b.val with
    | none => s
    | some e =>
      if !(e.nfpol && e.st = .members && !e.settled && e.contrs.all Contr.complete) then s
      else
        let out := e.contrs.filter (fun c => c.nf)
        let s1 := out.foldl (fun t c => t.freeBs c.data) s
        let e1 := { e with contrs := e.contrs.map (fun (c : Contr) => if c.nf then { c with excl := true, data := [] } else c) }
        ((s1.setBkt e1.settle).addSat Reg.crsRedNfExcl out.length).retryRed)

/-- The size exchange of a dynamic bucket is over. -/
def State.sized (s : State) (b : Bucket) : Bool := !b.dyn || s.rounds.all (fun r => decide (r < b.sizeNext))

/-- A term of the tree of R135: encodings, NF and FZ. -/
abbrev Term2 := List Nat × Bool × Bool

/-- An addition of two tiles, element by element (R152, R155): the sum and the flags. -/
def addTiles (c : Nat) (ftz : Bool) (a b : Term2) : Term2 × Flags :=
  let m := gather c (List.zipWith (addBits c ftz) a.1 b.1)
  ((m.elems, a.2.1 || b.2.1 || m.nf, a.2.2 || b.2.2 || (m.flags &&& fFZ != 0)), m.flags)

/-- One round of the tree of R135 over terms by rank. -/
def treeRound (c : Nat) (ftz : Bool) : List (Option Term2) → List (Option Term2) × Flags
  | some a :: some b :: r =>
    let t := addTiles c ftz a b
    let q := treeRound c ftz r
    (some t.1 :: q.1, t.2 ||| q.2)
  | some a :: none :: r => let q := treeRound c ftz r; (some a :: q.1, q.2)
  | none :: b :: r => let q := treeRound c ftz r; (b :: q.1, q.2)
  | l => (l, 0)

/-- The tree of R135 over 2^n terms. -/
def treeSum (c : Nat) (ftz : Bool) : Nat → List (Option Term2) → Option Term2 × Flags
  | 0, l => ((l.head?).getD none, 0)
  | n + 1, l =>
    let r := treeRound c ftz l
    let q := treeSum c ftz n r.1
    (q.1, r.2 ||| q.2)

/-- The elements of a bucket tile of index `k`. -/
def State.term (s : State) (c k : Nat) (t : BTile) : Term2 := (elemsOf c (s.tileBytes k t), t.nf, t.fz)

/-- FTZ of a station. -/
def State.ftz (s : State) (n : StnId) : Bool := s.rbit (Reg.stnNumCtrl n.val) 0

/-- The header of a tile of the bucket, sent or delivered by this device (R147, R155, R168). -/
def State.bucketTh (s : State) (b : Bucket) (n : StnId) (k cnt : Nat) (nf fz last : Bool) : TH :=
  let c := wfmtCode b.wfmt
  let t : TH := ⟨TH.shape c 0 (rowCap c) 64 (rowCap c), word (2 ^ 4), word k, b.step, word b.bucket,
    word (s.rank + 2 ^ 14 + n.val * 2 ^ 16), word (0x7F + b.outItin * 2 ^ 8), 0⟩
  (((t.setContrib cnt).setNf nf).setFz fz).setLast last

/-- The partial of tile `k` from the entry stage: in the block of the first member's tile, else in a new one; its flags at
its station, and the members' tiles freed. None while no block is free. -/
def State.entryTile (s : State) (b : Bucket) (k : Nat) : Option (State × Option BTile) :=
  match s.redStn k with
  | none => none
  | some n =>
    let c := wfmtCode b.wfmt
    let tiles := b.present.filterMap (fun m => Cells.look m.data k)
    let home := tiles.findSome? (fun x => x.blk)
    let s1 := tiles.foldl (fun t x => if x.blk.isSome && x.blk == home then t else t.freeB k x) s
    let zero : Term2 := (List.replicate (rowCap c * 64) 0, false, false)
    let terms := (List.range 16).map (fun e =>
      (b.present.find? (fun m => m.slot = e)).map (fun m =>
        match Cells.look m.data k with | some x => s.term c k x | none => zero))
    let r := treeSum c (s.ftz n) 4 terms
    match r.1 with
    | none => some (s1, none)
    | some t =>
      let bytes := payloadOf c t.1
      let made : Option (BTile × State) := match home with
        | some blk => some (⟨some blk, none, t.2.1, t.2.2⟩, s1.putBlk n blk bytes)
        | none => s1.takeB b.bucket k 31 bytes t.2.1 t.2.2
      match made with
      | none => none
      | some (bt, s2) => some (s2.numFlags n r.2 (s.bucketTh b n k b.entryCnt t.2.1 t.2.2 false), some bt)

/-- The entry after the entry stage of tile `k`. -/
def Bucket.entered (b : Bucket) (k : Nat) (bt : Option BTile) : Bucket :=
  { b with
    own := match bt with | some x => Cells.ins b.own k x | none => b.own
    nf := b.nf || bt.any (fun x => x.nf)
    contrs := b.contrs.map (fun c => { c with data := Cells.erase c.data k }) }

/-- The entry stage over a list of tiles of entry `i`, as far as blocks are free and words can be read. -/
def State.entryTiles (i : Nat) : List Nat → State → State
  | [], s => s
  | k :: ks, s =>
    match s.bkt i with
    | none => s
    | some b =>
      let c := s.readTiles (b.present.filterMap (fun m => (Cells.look m.data k).map (fun x => (k, x))))
      if !c.2 then c.1
      else match c.1.entryTile b k with
      | none => c.1.waitB b.bucket k 31
      | some (s1, bt) => State.entryTiles i ks (s1.setBkt (b.entered k bt))

/-- The tiles of chunk `h` below T (R157). -/
def State.chunkTiles (s : State) (b : Bucket) (h : Nat) : List Nat :=
  ((List.range 256).map (fun i => 256 * h + i)).filter (fun k => decide (k < s.bucketT b))

/-- The entry stage is done with tile `k`: its sum is held, or no member is present. -/
def Bucket.entryDone (b : Bucket) (k : Nat) : Bool := b.present.isEmpty || (Cells.look b.own k).isSome

/-- ENTRY_STAGE_CHUNK (R157, R162, R165): chunk `h` in its turn, once every present member's tiles of it are here, as far
as blocks are free; with its last tile the chunk passes on. -/
def execEntryStageChunk (b : Fin 4096) (h : Nat) (s : State) : Host.Outcome State Fault Refusal :=
  .next (match s.bkt b.val with
    | none => s
    | some e =>
      let ks := s.chunkTiles e h
      let left := ks.filter (fun k => !e.entryDone k)
      if !(e.running && e.settled && s.sized e && h == e.entryCh && decide (h < s.chunks e) &&
          e.present.all (fun c => left.all (fun k => decide (c.tiles ≤ k) || (Cells.look c.data k).isSome))) then s
      else
        let s1 := State.entryTiles b.val left s
        match s1.bkt b.val with
        | none => s1
        | some e1 => (if ks.all e1.entryDone then s1.setBkt { e1 with entryCh := h + 1 } else s1).retryRed)

/-- The count of the sum that a round starts with (R155, R163). -/
def State.cntBefore (s : State) (b : Bucket) (r : Nat) : Nat :=
  b.entryCnt + (((s.before r).filterMap (fun q => b.fabs.find? (fun f => f.round = q))).map (fun f => f.count)).foldl (· + ·) 0

/-- Chunk `h` has its result from the stage before round `r`. -/
def State.stageBefore (s : State) (b : Bucket) (r h : Nat) : Bool :=
  match (s.before r).getLast? with
  | some q => decide (h < Cells.get zeroNat b.roundCh q)
  | none => decide (h < b.entryCh)

/-- The header of a round's stream, sent before its tiles. -/
def State.sendRoundBh (s : State) (b : Bucket) (r : Nat) : State :=
  let cnt := s.cntBefore b r
  if b.bhSent.contains r then s
  else
    let h := if cnt = 0 then b.header 1 b.excl 0 0 s.rank (r + 1) (if b.dyn then b.hmax else 0)
      else b.header 0 b.excl cnt (s.bucketT b) s.rank (r + 1) (if b.dyn then b.hmax else 0)
    (s.setBkt { b with bhSent := r :: b.bhSent, st := .rounds }).sendToDevice (Wire.ofXh 3 (s.partner r) (.bh h))
      (s.rank + b.bucket)

/-- A tile of a round's stream leaves. -/
def State.sendRoundTile (s : State) (i r k : Nat) : State :=
  match s.bkt i with
  | none => s
  | some b =>
    let s0 := s.setBkt { b with own := Cells.erase b.own k, sent := Cells.ins b.sent r (k + 1) }
    match Cells.look b.own k, s.redStn k with
    | some t, some n =>
      (s0.freeB k t).sendToDevice ⟨3, 0, false, s.partner r, .none,
        some (s.bucketTh b n k (s.cntBefore b r) t.nf t.fz (k + 1 == s.bucketT b)), s.tileBytes k t⟩ (s.rank + b.bucket)
    | _, _ => s0

/-- The sum of this device's partial of tile `k` and the partner's (R155): the lower rank is the left operand. -/
def State.roundTile (s : State) (i : Nat) (r k : Nat) : State :=
  match s.bkt i with
  | none => s
  | some b =>
    match b.fabs.find? (fun f => f.round = r) with
    | none => s
    | some f =>
      let p := Cells.look f.data k
      let setF (t : State) (own : Cells BTile) (nf : Bool) : State :=
        t.setBkt { b with
          own := own, nf := b.nf || nf,
          fabs := b.fabs.map (fun g => if g.round = r then { g with data := Cells.erase g.data k } else g) }
      match Cells.look b.own k, p, s.redStn k with
      | some x, some y, some n =>
        let c := wfmtCode b.wfmt
        let a := if s.rank < f.sender then addTiles c (s.ftz n) (s.term c k x) (s.term c k y)
          else addTiles c (s.ftz n) (s.term c k y) (s.term c k x)
        let bytes := payloadOf c a.1.1
        let s1 := (s.freeB k y).numFlags n a.2 (s.bucketTh b n k (s.cntBefore b r + f.count) a.1.2.1 a.1.2.2 false)
        let s2 := match x.blk with | some blk => s1.putBlk n blk bytes | none => s1
        setF s2 (Cells.ins b.own k { x with nf := a.1.2.1, fz := a.1.2.2 }) a.1.2.1
      | none, some y, _ => setF s (Cells.ins b.own k y) false
      | _, _, _ => setF s b.own false

/-- The tiles of an entry's own partials at a list of indices. -/
def Bucket.ownTiles (b : Bucket) (ks : List Nat) : List (Nat × BTile) := ks.filterMap (fun k => (Cells.look b.own k).map (fun x => (k, x)))

/-- FABRIC_ROUND_CHUNK (R155, R157): what the chunk gives away is sent once the stage before is done with it; what it
keeps is added once the partner's partials are here. Words that cannot be read hold it up (R352). -/
def execFabricRoundChunk (b : Fin 4096) (r : Fin 9) (h : Nat) (s : State) : Host.Outcome State Fault Refusal :=
  .next (match s.bkt b.val with
    | none => s
    | some e =>
      if !(e.running && e.settled && s.sized e && s.rounds.contains r.val && s.stageBefore e r.val h &&
          h == Cells.get zeroNat e.roundCh r.val && decide (h < s.chunks e)) then s
      else
        let ks := s.chunkTiles e h
        let out := ks.filter (fun k => s.givesTile e r.val k && decide (Cells.get zeroNat e.sent r.val ≤ k))
        let c := (s.sendRoundBh e r.val).readTiles (e.ownTiles out)
        let s1 := c.1
        if !c.2 then s1 else
        let s2 := out.foldl (fun t k => t.sendRoundTile b.val r.val k) s1
        match s2.bkt b.val with
        | none => s2
        | some e2 =>
          match e2.fabs.find? (fun f => f.round = r.val) with
          | none => s2.retryRed
          | some f =>
            let mine := ks.filter (fun k => s.keepsTile e r.val k)
            if f.count ≠ 0 ∧ !mine.all (fun k => (Cells.look f.data k).isSome) then s2.retryRed
            else
              let d := s2.readTiles (if f.count = 0 then [] else e2.ownTiles mine ++ mine.filterMap (fun k =>
                (Cells.look f.data k).map (fun y => (k, y))))
              if !d.2 then d.1 else
              let s3 := mine.foldl (fun t k => t.roundTile b.val r.val k) d.1
              match s3.bkt b.val with
              | none => s3
              | some e3 =>
                let done := h + 1 == s.chunks e3
                (s3.setBkt { e3 with
                  roundCh := Cells.ins e3.roundCh r.val (h + 1),
                  count := if done then s.cntBefore e3 r.val + f.count else e3.count,
                  stage := if done then r.val + 1 else e3.stage }).retryRed)

/-- An owner's tile, scaled when MEAN = 1 (R164), enters its itinerary from the reducing station (R168). -/
def State.deliverTile (s : State) (b : Bucket) (cnt k : Nat) (last : Bool) : State :=
  match s.redStn k, Cells.look b.own k with
  | some n, some t =>
    let c := wfmtCode b.wfmt
    let m : Made :=
      if b.mean then gather c ((elemsOf c (s.tileBytes k t)).map (fun x => mulBits c (s.ftz n) x (recipF32 cnt)))
      else ⟨elemsOf c (s.tileBytes k t), 0, false⟩
    let nf := t.nf || m.nf
    let th := s.bucketTh b n k cnt nf (t.fz || (m.flags &&& fFZ != 0)) last
    let bytes := payloadOf c m.elems
    let s1 := s.numFlags n m.flags th
    let s2 := match t.blk with | some blk => s1.putBlk n blk bytes | none => s1
    let s3 := if nf then s2.redStatus 0 else s2
    let s4 := if nf && !b.nfTiles.contains k then s3.redStatus 1 else s3
    s4.arrive n th bytes (match t.blk with | some blk => .vitrine blk | none => .none)
  | _, _ => s

/-- The entry ends: it keeps no tile, and of its partners' streams what tells their later tiles (R161, R170). -/
def Bucket.ended (b : Bucket) (st : BState) : Bucket :=
  { b with st := st, own := [], contrs := [], fabs := b.fabs.map (fun f => { f with data := [] }) }

/-- The entry is DONE (Table 6.3). -/
def State.bucketDone (s : State) (b : Bucket) : State := ((s.setBkt (b.ended .done)).inc Reg.crsRedDone).retryRed

/-- SHARD_DELIVERY (R164, R168, R169): after the last round the shard, or the empty-bucket notice, is delivered. -/
def execShardDelivery (b : Fin 4096) (s : State) : Host.Outcome State Fault Refusal :=
  .next (match s.bkt b.val with
    | none => s
    | some e =>
      let n := s.chunks e
      let done := match s.rounds.getLast? with
        | some r => decide (n ≤ Cells.get zeroNat e.roundCh r)
        | none => decide (n ≤ e.entryCh)
      if !(e.running && e.settled && s.sized e && done) then s
      else
        let cnt := s.cntBefore e 9
        let s1 := if e.excl then s.exclFlags else s
        if cnt = 0 then
          (((s1.redStatus 5).raiseRed 5 e.bucket s.rank false).bucketNotice e).bucketDone e
        else
          let sz := s.bucketT e / s.hallD
          let ks := (List.range sz).map (fun i => s.compact * sz + i)
          let c := s1.readTiles (e.ownTiles ks)
          if !c.2 then c.1 else
          (ks.foldl (fun t k => t.deliverTile e cnt k (k + 1 == (s.compact + 1) * sz)) c.1).bucketDone e)

/-- The entry of a tag in the current step is abandoned (R170). -/
def State.abandon (s : State) (bucket : Nat) : State :=
  match s.bkt (bucket % 4096) with
  | none => s
  | some b =>
    if b.running && b.isTag s.stepCur bucket then
      let s1 := b.contrs.foldl (fun t c => t.freeBs c.data) (s.freeBs b.own)
      let s2 := b.fabs.foldl (fun t f => t.freeBs f.data) s1
      let s3 := (s2.bucketNotice b).setBkt (b.ended .abandoned)
      ((s3.redStatus 6).raiseRed 7 bucket s.rank false).retryRed
    else s

/-- CRS_RED_ABANDON (R170). -/
def execCrsRedAbandon (value : Word) (s : State) : Host.Outcome State Fault Refusal := .next (s.abandon (fld value 0 20))

end Sys2Proof.Machine
end

