-- ==== Sys2Proof/Machine/Crypto.lean ====
section
/-! DEFINITION. The two algorithms that the manual names for images (R360, R361, R367): SHA-384, and the verification of an
ECDSA signature on brainpoolP384r1. The manual does not restate them: they are FIPS 180-4, and FIPS 186 on the curve of RFC
5639 (log entry 7). -/

namespace Sys2Proof.Machine

open Sys2Proof

/-! ### SHA-384 -/

/-- The round constants: the fractions of the cube roots of the first 80 primes. -/
def shaK0 : List DWord :=
  [0x428A2F98D728AE22, 0x7137449123EF65CD, 0xB5C0FBCFEC4D3B2F, 0xE9B5DBA58189DBBC,
   0x3956C25BF348B538, 0x59F111F1B605D019, 0x923F82A4AF194F9B, 0xAB1C5ED5DA6D8118,
   0xD807AA98A3030242, 0x12835B0145706FBE, 0x243185BE4EE4B28C, 0x550C7DC3D5FFB4E2,
   0x72BE5D74F27B896F, 0x80DEB1FE3B1696B1, 0x9BDC06A725C71235, 0xC19BF174CF692694,
   0xE49B69C19EF14AD2, 0xEFBE4786384F25E3, 0x0FC19DC68B8CD5B5, 0x240CA1CC77AC9C65,
   0x2DE92C6F592B0275, 0x4A7484AA6EA6E483, 0x5CB0A9DCBD41FBD4, 0x76F988DA831153B5,
   0x983E5152EE66DFAB, 0xA831C66D2DB43210, 0xB00327C898FB213F, 0xBF597FC7BEEF0EE4,
   0xC6E00BF33DA88FC2, 0xD5A79147930AA725, 0x06CA6351E003826F, 0x142929670A0E6E70,
   0x27B70A8546D22FFC, 0x2E1B21385C26C926, 0x4D2C6DFC5AC42AED, 0x53380D139D95B3DF,
   0x650A73548BAF63DE, 0x766A0ABB3C77B2A8, 0x81C2C92E47EDAEE6, 0x92722C851482353B]

/-- The round constants 40 to 79. -/
def shaK1 : List DWord :=
  [0xA2BFE8A14CF10364, 0xA81A664BBC423001, 0xC24B8B70D0F89791, 0xC76C51A30654BE30,
   0xD192E819D6EF5218, 0xD69906245565A910, 0xF40E35855771202A, 0x106AA07032BBD1B8,
   0x19A4C116B8D2D0C8, 0x1E376C085141AB53, 0x2748774CDF8EEB99, 0x34B0BCB5E19B48A8,
   0x391C0CB3C5C95A63, 0x4ED8AA4AE3418ACB, 0x5B9CCA4F7763E373, 0x682E6FF3D6B2B8A3,
   0x748F82EE5DEFB2FC, 0x78A5636F43172F60, 0x84C87814A1F0AB72, 0x8CC702081A6439EC,
   0x90BEFFFA23631E28, 0xA4506CEBDE82BDE9, 0xBEF9A3F7B2C67915, 0xC67178F2E372532B,
   0xCA273ECEEA26619C, 0xD186B8C721C0C207, 0xEADA7DD6CDE0EB1E, 0xF57D4F7FEE6ED178,
   0x06F067AA72176FBA, 0x0A637DC5A2C898A6, 0x113F9804BEF90DAE, 0x1B710B35131C471B,
   0x28DB77F523047D84, 0x32CAAB7B40C72493, 0x3C9EBE0A15C9BEBC, 0x431D67C49C100D4C,
   0x4CC5D4BECB3E42B6, 0x597F299CFC657E2A, 0x5FCB6FAB3AD6FAEC, 0x6C44198C4A475817]

/-- The eight working values. -/
structure ShaState where
  a : DWord
  b : DWord
  c : DWord
  d : DWord
  e : DWord
  f : DWord
  g : DWord
  h : DWord
  deriving DecidableEq, Repr

/-- The initial hash value of SHA-384. -/
def sha384Init : ShaState :=
  ⟨0xCBBB9D5DC1059ED8, 0x629A292A367CD507, 0x9159015A3070DD17, 0x152FECD8F70E5939,
   0x67332667FFC00B31, 0x8EB44A8768581511, 0xDB0C2E0D64F98FA7, 0x47B5481DBEFA4FA4⟩

/-- One round with a constant and the schedule word at the head of the window of sixteen; the window moves on by one word. -/
def shaRound (z : ShaState × List DWord) (k : DWord) : ShaState × List DWord :=
  let s := z.1
  let w (i : Nat) : DWord := nth z.2 i 0
  let rot (x : DWord) (n : Nat) : DWord := x.rotateRight n
  let ch := (s.e &&& s.f) ^^^ (~~~s.e &&& s.g)
  let maj := (s.a &&& s.b) ^^^ (s.a &&& s.c) ^^^ (s.b &&& s.c)
  let t1 := s.h + (rot s.e 14 ^^^ rot s.e 18 ^^^ rot s.e 41) + ch + k + w 0
  let t2 := (rot s.a 28 ^^^ rot s.a 34 ^^^ rot s.a 39) + maj
  let s0 := rot (w 1) 1 ^^^ rot (w 1) 8 ^^^ (w 1 >>> 7)
  let s1 := rot (w 14) 19 ^^^ rot (w 14) 61 ^^^ (w 14 >>> 6)
  (⟨t1 + t2, s.a, s.b, s.c, s.d + t1, s.e, s.f, s.g⟩, z.2.drop 1 ++ [s1 + w 9 + s0 + w 0])

/-- A number in `n` bytes, the most significant first. -/
def toBE (n v : Nat) : List Byte := (toLE n v).reverse

/-- One block of 128 bytes joins the hash. -/
def shaBlock (s : ShaState) (b : List Byte) : ShaState :=
  let w := (List.range 16).map (fun i => dword (ofBE (slice b (8 * i) 8)))
  let z := ((shaK0 ++ shaK1).foldl shaRound (s, w)).1
  ⟨s.a + z.a, s.b + z.b, s.c + z.c, s.d + z.d, s.e + z.e, s.f + z.f, s.g + z.g, s.h + z.h⟩

/-- A message with its padding: a one bit, zeros, and its length in bits in 16 bytes. -/
def shaPad (m : List Byte) : List Byte := m ++ [0x80] ++ zeros ((239 - m.length % 128) % 128) ++ toBE 16 (8 * m.length)

/-- `n` blocks join the hash. -/
def shaBlocks : Nat → List Byte → ShaState → ShaState
  | 0, _, s => s
  | n + 1, m, s => shaBlocks n (m.drop 128) (shaBlock s (m.take 128))

/-- SHA-384 (R360): 48 bytes. -/
def sha384 (m : List Byte) : List Byte :=
  let p := shaPad m
  let s := shaBlocks (p.length / 128) p sha384Init
  [s.a, s.b, s.c, s.d, s.e, s.f].flatMap (fun x => toBE 8 x.toNat)

/-! ### The curve brainpoolP384r1 -/

/-- The prime of the field. -/
def ecP : Nat := 0x8CB91E82A3386D280F5D6F7E50E641DF152F7109ED5456B412B1DA197FB71123ACD3A729901D1A71874700133107EC53

/-- The order of the base point. -/
def ecN : Nat := 0x8CB91E82A3386D280F5D6F7E50E641DF152F7109ED5456B31F166E6CAC0425A7CF3AB6AF6B7FC3103B883202E9046565

/-- The curve is y^2 = x^3 + a x + b. -/
def ecA : Nat := 0x7BC382C63D8C150C3C72080ACE05AFA0C2BEA28E4FB22787139165EFBA91F90F8AA5814A503AD4EB04A8C7DD22CE2826

/-- The constant of the curve. -/
def ecB : Nat := 0x04A8C7DD22CE28268B39B55416F0447C2FB77DE107DCD2A62E880EA53EEB62D57CB4390295DBC9943AB78696FA504C11

/-- A point in Jacobian form, X / Z^2 and Y / Z^3; Z = 0 is the point at infinity. -/
structure EcPoint where
  x : Nat
  y : Nat
  z : Nat
  deriving DecidableEq, Repr

/-- The point at infinity. -/
def EcPoint.zero : EcPoint := ⟨1, 1, 0⟩

/-- The base point. -/
def ecBase : EcPoint :=
  ⟨0x1D1C64F068CF45FFA2A63A81B7C13F6B8847A3E77EF14FE3DB7FCAFE0CBD10E8E826E03436D646AAEF87B2E247D4AF1E,
   0x8ABE1D7520F9C2A45CB1EB8E95CFD55262B70B29FEEC5864E19C054FF99129280E4646217791811142820341263C5315, 1⟩

/-- A difference in the field. -/
def ecSub (a b : Nat) : Nat := (a + ecP - b % ecP) % ecP

/-- The double of a point. -/
def EcPoint.dbl (p : EcPoint) : EcPoint :=
  let yy := p.y * p.y % ecP
  let s := 4 * p.x * yy % ecP
  let zz := p.z * p.z % ecP
  let m := (3 * p.x * p.x + ecA * (zz * zz)) % ecP
  let x := ecSub (m * m) (2 * s)
  ⟨x, ecSub (m * ecSub s x) (8 * (yy * yy)), 2 * p.y * p.z % ecP⟩

/-- The sum of two points. -/
def EcPoint.add (p q : EcPoint) : EcPoint :=
  if p.z = 0 then q
  else if q.z = 0 then p
  else
    let pz := p.z * p.z % ecP
    let qz := q.z * q.z % ecP
    let u1 := p.x * qz % ecP
    let u2 := q.x * pz % ecP
    let s1 := p.y * qz % ecP * q.z % ecP
    let s2 := q.y * pz % ecP * p.z % ecP
    if u1 = u2 then (if s1 = s2 then p.dbl else EcPoint.zero)
    else
      let h := ecSub u2 u1
      let r := ecSub s2 s1
      let hh := h * h % ecP
      let hhh := hh * h % ecP
      let v := u1 * hh % ecP
      let x := ecSub (ecSub (r * r) hhh) (2 * v)
      ⟨x, ecSub (r * ecSub v x) (s1 * hhh), h * p.z % ecP * q.z % ecP⟩

/-- The multiple of a point by the number in the highest `n` of the 384 bits of `k`. -/
def EcPoint.mul (p : EcPoint) (k : Nat) : Nat → EcPoint
  | 0 => EcPoint.zero
  | n + 1 => let q := (p.mul k n).dbl; if k.testBit (383 - n) then q.add p else q

/-- A power modulo `m`, of the exponent in the highest `n` of its 384 bits. -/
def powMod (m b e : Nat) : Nat → Nat
  | 0 => 1
  | n + 1 => let r := powMod m b e n; let q := r * r % m; if e.testBit (383 - n) then q * b % m else q

/-- The inverse modulo a prime. -/
def invMod (m a : Nat) : Nat := powMod m (a % m) (m - 2) 384

/-- The affine x of a point. -/
def EcPoint.affX (p : EcPoint) : Nat := let i := invMod ecP p.z; p.x * (i * i % ecP) % ecP

/-- A key as Table 14.4 stores it: an uncompressed point of 97 bytes, on the curve. -/
def ecKey (k : List Byte) : Option EcPoint :=
  let x := ofBE (slice k 1 48)
  let y := ofBE (slice k 49 48)
  if k.length = 97 ∧ k.head? = some 0x04 ∧ x < ecP ∧ y < ecP ∧ y * y % ecP = (x * x % ecP * x + ecA * x + ecB) % ecP then
    some ⟨x, y, 1⟩
  else none

/-- A signature, r then s, of a SHA-384 digest verifies under a key (R360, Table 14.4). -/
def ecdsaVerify (key digest sig : List Byte) : Bool :=
  let r := ofBE (slice sig 0 48)
  let s := ofBE (slice sig 48 48)
  match ecKey key with
  | none => false
  | some q =>
    if r = 0 ∨ ecN ≤ r ∨ s = 0 ∨ ecN ≤ s then false
    else
      let w := invMod ecN s
      let p := (ecBase.mul (ofBE digest * w % ecN) 384).add (q.mul (r * w % ecN) 384)
      p.z != 0 && p.affX % ecN == r

end Sys2Proof.Machine
end

