-- ==== Sys2Proof/Machine/Sittings.lean ====
section
/-! DEFINITION. Sitting headers (R215 to R217), and what the Curator sums, reads and raises after a step's Closing: the
optimizer and mixture summaries (R194, R229), the exact-sum loss report (R273), and the Tally ring (R198). -/

namespace Sys2Proof.Machine

open Sys2Proof

/-! ### The sitting header (Table 8.4) -/

/-- KIND of a sitting header. -/
def shKind (h : List Word) : Nat := fld (nth h 0 0) 0 3
/-- POLICY. -/
def shPolicy (h : List Word) : Bool := bitOf (nth h 0 0) 4
/-- FMT. -/
def shFmt (h : List Word) : Nat := fld (nth h 0 0) 8 5
/-- ITIN. -/
def shItin (h : List Word) : Nat := fld (nth h 0 0) 16 12
/-- STEP. -/
def shStep (h : List Word) : Word := nth h 1 0
/-- EXPERT. -/
def shExpert (h : List Word) : Nat := fld (nth h 2 0) 0 10
/-- The tag: EXPERT and LAYER. -/
def shTag (h : List Word) : Nat := fld (nth h 2 0) 0 22
/-- COUNT. -/
def shCount (h : List Word) : Nat := fld (nth h 3 0) 0 17
/-- TILES. -/
def shTiles (h : List Word) : Nat := fld (nth h 4 0) 0 16
/-- SLICES. -/
def shSlices (h : List Word) : Nat := fld (nth h 4 0) 16 11
/-- SENDER. -/
def shSender (h : List Word) : Nat := fld (nth h 5 0) 0 14
/-- SENDER_KIND. -/
def shSenderKind (h : List Word) : Nat := fld (nth h 5 0) 14 2

/-- The formats that DFMT and RFMT permit (Table 8.2). -/
def segmentFmt (f : Nat) : Bool := f == 1 || f == 0x13 || f == 0x14

/-- COUNT lies in the range of the POLICY (R216): under DROP no tile and no token are in range too. -/
def shCountOk (h : List Word) : Bool :=
  let t := shTiles h
  let low := if shPolicy h then max 1 (16 * t + 2 - 32) else 16 * t + 1 - 16
  decide (low ≤ shCount h ∧ shCount h ≤ 16 * t)

/-- Why a sitting header is discarded (R216), in the order of the rule: malformed, or stray. -/
inductive ShBad where
  | malformed
  | stray
  deriving DecidableEq, Repr

/-- The check of R216; a request for an expert with VALID = 0 is stray (Table 8.13). -/
def State.shBad (s : State) (h : List Word) : Option ShBad :=
  let k := shKind h
  let map := Reg.crsExpMap (shExpert h)
  let segment := k == 2 || k == 3
  if 5 ≤ k then some .malformed
  else if shStep h ≠ s.stepCur then some .stray
  else if (k == 0 || k == 2) && (s.rf map 0 9 != s.rank || (k == 0 && !s.rbit map 31)) then some .stray
  else if segment && (shSlices h == 0 || !segmentFmt (shFmt h)) then some .malformed
  else if segment && !shCountOk h then some .malformed
  else if shSenderKind h = 0 ∧ k ≠ 3 then some .malformed
  else none

/-- Raise an EXP code; a code for what another device sent names that device (R404). -/
def State.raiseExp (s : State) (n : Nat) (h : List Word) : State :=
  s.raise ⟨.exp, n⟩ (if n = 2 ∧ shSenderKind h = 1 then uRemote (shSender h) else uDevice)
    [nth h 2 0 &&& 0x003FFFFF, word (shSender h)]

/-- The GRANT notice tile (R217): row 0 holds the eight words. -/
def grantTh (h : List Word) : TH :=
  let t := TH.headerOnly 2 (shStep h) (shTag h) (shSender h) 1 0 (shItin h) 0
  { t with w0 := TH.shape 9 0 1 8 1, w1 := setBit t.w1 0 false, w6 := setFld t.w6 0 8 0x7F }

/-- The segment whose header `h` came to port `p` and was discarded: its tiles carry the origin's hall rank, a result's the
home's (R218, R223). Where TILES or SLICES is 0 the header does not say how many they are (log entry 128). -/
def State.badSeg (s : State) (p : PortId) (h : List Word) : BadSeg :=
  { port := p, step := shStep h, tag := word (shTag h), origin := if shSenderKind h = 0 then s.rank else shSender h,
    left := if shTiles h * shSlices h = 0 then none else some (shTiles h * shSlices h) }

/-- A segment's size as a header has given it; a grant of the second round adds to that of the first (R214). -/
def Sittings.note (x : Sittings) (h : List Word) (own : Bool) (party : Nat) : Sittings :=
  let mine (g : SitSeg) : Bool := g.step == shStep h && g.tag == word (shTag h) && g.own == own && g.party == party
  match x.segs.find? mine with
  | some g =>
    let g1 := if own then { g with count := g.count + shCount h, tiles := g.tiles + shTiles h }
      else { g with count := shCount h, tiles := shTiles h }
    { x with segs := g1 :: x.segs.filter (fun e => !mine e) }
  | none => { x with segs := ⟨shStep h, word (shTag h), own, party, shCount h, shTiles h⟩ :: x.segs }

/-- A sitting header at port `p` (R216, R217). `hold` is the ingress room of a header that came alone. -/
def State.sittingHeader (s : State) (p : PortId) (h : List Word) (hold : Hold) : State :=
  let n := stnOf p
  match s.shBad h with
  | some b =>
    let s1 := if b = .stray then ((s.inc Reg.crsExpStray).expStatus 1).raiseExp 2 h
      else ((s.inc Reg.crsExpBad).expStatus 0).raiseExp 1 h
    let s2 := s1.releaseHold n hold
    if shKind h = 2 ∨ shKind h = 3 then
      { s2 with expDisc := s2.expDisc ++ [s2.badSeg p h] }
    else s2
  | none =>
    let k := shKind h
    if k = 0 ∨ k = 4 then
      s.arrive n (TH.headerOnly 2 (shStep h) (shTag h) (shSender h) 1 0 (shItin h) (if k = 0 then word (shCount h) else (0 : Word))) [] hold
    else if k = 1 then
      ({ s with sit := s.sit.note h true 0 }).arrive n (grantTh h) (fit 4096 (wordsToBytes h)) hold
    else if k = 2 then ({ s with sit := s.sit.note h false (shSender h) }).releaseHold n hold
    else s.releaseHold n hold

/-- The segment has a tile with header `t` at port `p`. -/
def BadSeg.has (x : BadSeg) (p : PortId) (t : TH) : Bool :=
  x.port == p && x.step == t.step && x.tag == t.tag && x.origin == t.origin && x.left != some 0

/-- A tile belongs to a segment whose header was discarded. -/
def State.ofBadSegment (s : State) (p : PortId) (t : TH) : Bool := t.tagKind == 2 && s.expDisc.any (fun x => x.has p t)

/-- One tile less is to be discarded of the first segment that has it. -/
def countBadTile (p : PortId) (t : TH) : List BadSeg → List BadSeg
  | [] => []
  | x :: r => if x.has p t then { x with left := x.left.map (fun n => n - 1) } :: r else x :: countBadTile p t r

/-- A tile of a discarded segment goes (R216). -/
def State.dropSegmentTile (s : State) (p : PortId) (t : TH) : State := { s with expDisc := countBadTile p t s.expDisc }

/-! ### Sitting headers that the device sends (R208, R211, R215, R220, R221, R223) -/

/-- Word 0 of a sitting header. -/
def shWord0 (kind : Nat) (round policy : Bool) (fmt sblk itin : Nat) : Word :=
  word (kind + b2n round * 2 ^ 3 + b2n policy * 2 ^ 4 + fmt % 32 * 2 ^ 8 + sblk % 8 * 2 ^ 13 + itin % 4096 * 2 ^ 16)

/-- The layer entry of a sitting's tag in the router table (R203): its DRAM offset. -/
def State.layerAt (s : State) (tag : Word) : Nat :=
  let root := (s.rg64 Reg.crsExpRootLo).toNat % 2 ^ 40
  leAt (Cells.read zeroByte s.dram root 4) 0 4 % 2 ^ 28 * 4096 + tag.toNat / 1024 % 4096 * 128

/-- POLICY and SLICES of a sitting's layer (Table 8.2). -/
def State.layerOf (s : State) (tag : Word) : Bool × Nat :=
  let e := bytesToWords 2 (Cells.read zeroByte s.dram (s.layerAt tag) 8)
  (bitOf (nth e 0 0) 7, fld (nth e 1 0) 16 11)

/-- The sitting header that a header-only frame becomes at a port, the reverse of R217: EMPTY at an endpoint's port (R221), at
a fabric port a REQUEST of SEQ tokens, the second of its tag in the step with ROUND = 1 (R208, R213, log entry 103). -/
def State.requestSh (s : State) (p : PortId) (t : TH) : State × List Word :=
  let n := t.seq.toNat % 2 ^ 17
  let tag := t.tag &&& 0x003FFFFF
  if s.isEndpoint p then (s, [shWord0 4 false (s.layerOf tag).1 0 0 t.itin, t.step, tag, 0, 0, word (s.rank + 2 ^ 14), 0, 0])
  else
    let round := s.sit.reqs.contains (t.step, tag)
    ({ s with sit := { s.sit with reqs := (t.step, tag) :: s.sit.reqs } },
     [shWord0 0 round (s.layerOf tag).1 0 0 t.itin, t.step, tag, word n, word (cdiv n 16), word (s.rank + 2 ^ 14), 0, 0])

/-- The home of the sitting's expert is this device. -/
def State.homeHere (s : State) (t : TH) : Bool := s.rf (Reg.crsExpMap (t.tag.toNat % 1024)) 0 9 == s.rank

/-- COUNT and TILES of a segment that leaves (R214, R215): at its origin what the home has granted; at the home what the
segment's own header said, that of origin `party`. A free value where no header said it (log entry 103). -/
def State.segSize (s : State) (t : TH) (party : Nat) : State × Nat × Nat :=
  let own := !s.homeHere t || party == s.rank
  match s.sit.segs.find? (fun g => g.step == t.step && g.tag == t.tag &&& 0x003FFFFF && g.own == own && (own || g.party == party)) with
  | some g => (s, g.count, g.tiles)
  | none => let f := s.fresh 33; (f.2, f.1.toNat % 2 ^ 17, f.1.toNat / 2 ^ 17)

/-- The header that precedes a segment's tiles on its link: a RESULT from the home to origin `dst`, else DATA; POLICY and SLICES
are the layer's (Table 8.4). -/
def State.segmentSh (s : State) (p : PortId) (t : TH) (dst : Nat) : State × List Word :=
  let result := s.homeHere t && s.isFabric p
  let z := s.segSize t (if result then dst else t.origin)
  let tag := t.tag &&& 0x003FFFFF
  let lay := s.layerOf tag
  (z.1, [shWord0 (if result then 3 else 2) false lay.1 t.fmt t.sblk t.itin, t.step, tag, word (z.2.1 % 2 ^ 17),
    word (z.2.2 % 2 ^ 16 + lay.2 * 2 ^ 16), word (s.rank + 2 ^ 14), 0, 0])

/-- The tile is a GRANT notice: row 0 holds the eight words of its header (R217). -/
def TH.isGrant (t : TH) : Bool := t.fmt == 9 && t.rows == 1 && t.cols == 8

/-- The key of a segment on a link: port, destination, step, tag, origin. -/
def segKey (p : PortId) (dst : Nat) (t : TH) : PortId × Nat × Word × Word × Nat := (p, dst, t.step, t.tag, t.origin)

/-- A sitting frame as a port sends it (R215): a header-only frame and a GRANT notice leave as their SH alone, and an SH goes
before the first tile of a segment on the link to its destination. -/
def State.withSh (s : State) (p : PortId) (w : Wire) (t : TH) : State × Wire :=
  if t.hdrOnly then
    let r := s.requestSh p t
    (r.1, { w with xh := .sh r.2, th := none, data := [] })
  else if t.isGrant then (s, { w with xh := .sh (bytesToWords 8 w.data), th := none, data := [] })
  else if s.sit.sent.contains (segKey p w.dst t) then (s, w)
  else
    let r := s.segmentSh p t w.dst
    ({ r.1 with sit := { r.1.sit with sent := segKey p w.dst t :: r.1.sit.sent } }, { w with xh := .sh r.2 })

/-- SITTING_HEADER_RECEIVE (R216, R217). -/
def execSittingHeaderReceive (p : PortId) (sh : List Word) (s : State) : Host.Outcome State Fault Refusal :=
  .next (if (s.pt p).acc = .admitted ∧ (s.isEndpoint p ∨ s.isFabric p) then s.sittingHeader p sh .none else s)

/-! ### Step summaries (R194, R229) -/

/-- A record of 16 words of the DRAM, as the Curator reads it. -/
def State.curatorRecord (s : State) (a : Nat) : State × List Word :=
  let r := s.curatorRead a 64
  (r.1, bytesToWords 16 r.2)

/-- The step's contribution records of 64 stations at SUMSTN, for a step: (words, sealed), the record's step first. -/
def State.contributions (s : State) (sumstn : Nat) (step : Word) : State × List (List Word × Bool) :=
  (List.range 64).foldl (fun p n =>
    let r := p.1.curatorRecord (sumstn * 4096 + (n * 16 + step.toNat % 16) * 64)
    (r.1, if nth r.2 0 0 == step then p.2 ++ [(r.2, fld (nth r.2 15 0) 0 8 == 0xA5)] else p.2)) (s, [])

/-- The summary record of the step: sums of words 1 to `k`, word 13, word 14 and the seal. -/
def summaryWords (step : Word) (k : Nat) (recs : List (List Word × Bool)) : List Word :=
  let good := recs.filter (fun r => r.2)
  let sum (i : Nat) : Word := (good.map (fun r => nth r.1 i 0)).foldl (· + ·) 0
  (List.range 16).map (fun i =>
    if i = 0 then step
    else if i ≤ k then sum i
    else if i = 13 then word (recs.length - good.length)
    else if i = 14 then word good.length
    else if i = 15 then 0xA5
    else 0)

/-- OPT_STEP_SUMMARY (R194): of the first step whose Closing has ended and which has no summary yet, be the next step open
already (Table 1.4). -/
def execOptStepSummary (s : State) : Host.Outcome State Fault Refusal :=
  .next (match s.curReady, s.cur.optDue with
    | true, step :: due =>
      let root := (s.rg64 Reg.crsOptRootLo).toNat % 2 ^ 40
      let a := s.curatorWord (root + 12)
      let b := a.1.curatorWord (root + 24)
      let c := b.1.contributions (fld b.2 0 28) step
      let ws := summaryWords step 6 c.2
      let w := (c.1.dramWrite (fld a.2 0 28 * 4096 + step.toNat % 16 * 64) (wordsToBytes ws) .curator).1
      let s1 := { w with cur := { w.cur with optDue := due } }
      let s2 := if nth ws 3 0 ≠ 0 ∨ nth ws 6 0 ≠ 0 then s1.raise ⟨.num, 2⟩ uDevice [] else s1
      let s3 := s2.addSat Reg.crsOptRefill (nth ws 6 0).toNat
      if nth ws 13 0 ≠ 0 then s3.raise ⟨.num, 4⟩ uDevice [] else s3
    | _, _ => s)

/-- An EXP code on the summed record. -/
def State.raiseSum (s : State) (b : Bool) (n bit : Nat) (step : Word) : State :=
  if b then (s.expStatus bit).raise ⟨.exp, n⟩ uDevice [0, step] else s

/-- MOE_STEP_SUMMARY (R229): of the first step whose Closing has ended and which has no summary yet. -/
def execMoeStepSummary (s : State) : Host.Outcome State Fault Refusal :=
  .next (match s.curReady, s.cur.moeDue with
    | true, step :: due =>
      let root := (s.rg64 Reg.crsExpRootLo).toNat % 2 ^ 40
      let a := s.curatorWord (root + 4)
      let b := a.1.curatorWord (root + 12)
      let c := b.1.contributions (fld b.2 0 28) step
      let ws := summaryWords step 9 c.2
      let w := (c.1.dramWrite (fld a.2 0 28 * 4096 + step.toNat % 16 * 64) (wordsToBytes ws) .curator).1
      let s1 := { w with cur := { w.cur with moeDue := due } }
      (((s1.raiseSum (nth ws 6 0 != 0) 3 2 0).raiseSum (nth ws 7 0 != 0) 4 3 0).raiseSum (nth ws 9 0 != 0) 2 1 0).raiseSum
        (nth ws 13 0 != 0) 5 4 0
    | _, _ => s)

/-- EXACT_SUM_LOSS_REPORT (R273): after a Closing a record with LOSS set raises NUM-05. -/
def execExactSumLossReport (loss : Bool) (s : State) : Host.Outcome State Fault Refusal :=
  .next (if loss && s.curReady && s.cur.closed.isSome then s.raise ⟨.num, 5⟩ uDevice [] else s)

/-! ### The Tally ring (R197, R198) -/

/-- The Tally station that CRS_TAL_CTRL.WIDX names (Table 7.9). -/
def State.tallyStn (s : State) : StnId :=
  stnId (16 * (s.rf Reg.crsTalCtrl 1 4 / 4) + s.rf Reg.crsTalCtrl 1 4 % 4)

/-- A NUM-03 is a repeat (R419): one of the station's last four lies within 3 degrees at the same ladder step. -/
def numRepeats (l : List (Byte × Nat)) (t : Byte) (step : Nat) : Bool :=
  (l.take 4).any (fun e => decide ((Int.natAbs ((e.1.toNat : Int) - t.toNat)) ≤ 3) && e.2 == step)

/-- The distance of two ticks. -/
def apart (a b : Nat) : Nat := (a - b) + (b - a)

/-- The temperature of station `n` in the Curator's sample nearest to tick `t` (R198), of the samples that it keeps (log entry
129). -/
def State.tempAt (s : State) (n : StnId) (t : Nat) : Byte :=
  match s.cur.smps with
  | [] => s.unitTemp (uStn n)
  | e :: r => nth ((r.foldl (fun m x => if apart x.1.toNat t < apart m.1.toNat t then x else m) e).2) n.val 0

/-- A verdict of the ring (log entry 31): words 0 and 1 are its HT, words 3, 5, 6, 8, 9, 10 are ITIN, ORIGIN_STN, tensor,
verdict, max |N - W| and the bound; verdict 1 is a mismatch, 2 a skipped sample. -/
def State.verdict (s : State) (ws : List Word) : State :=
  let v := (nth ws 8 0).toNat
  if v = 1 then
    let n := stnId (fld (nth ws 5 0) 0 6)
    let s1 := ((s.inc Reg.crsTalMismatch).vector 79).setRg Reg.crsTalLast (word (n.val + fld (nth ws 3 0) 0 12 * 2 ^ 6))
    let past := (Cells.look s1.cat.num03 n.val).getD []
    let temp := s1.tempAt n ((nth ws 0 0).toNat + (nth ws 1 0).toNat * 2 ^ 32)
    let step := s1.rf Reg.pwrStatus 3 3
    let rep := numRepeats past temp step
    let s2 := { s1 with cat := { s1.cat with num03 := Cells.ins s1.cat.num03 n.val ((temp, step) :: past.take 3) } }
    (s2.raiseAt ⟨.num, 3⟩ (uStn n) temp [s2.rg Reg.crsTalLast, nth ws 6 0, nth ws 9 0, nth ws 10 0,
      word (b2n rep + s.tallyStn.val * 2 ^ 8)]).addScore (uStn n) (if rep then 8192 else 2048)
  else if v = 2 then s.inc Reg.crsTalSkipped
  else s

/-- TALLY_RING_DRAIN (R198): every record between the tail and head index is taken, and new drops are added. -/
def execTallyRingDrain (s : State) : Host.Outcome State Fault Refusal :=
  .next (
    let a := (s.rg64 Reg.crsTalRingLo).toNat % 2 ^ 40
    let size := s.rf Reg.crsTalRingSize 0 16
    if !s.curReady || size == 0 then s
    else
      let h := s.curatorWord a
      let t := h.1.curatorWord (a + 4)
      let d := t.1.curatorWord (a + 8)
      let tail := t.2.toNat
      let drops := d.2.toNat
      let n := min size ((h.2.toNat + 2 ^ 32 - tail) % 2 ^ 32)
      let s1 := (List.range n).foldl (fun u i =>
        let r := u.curatorRecord (a + 64 + (tail + i) % size * 64)
        r.1.verdict r.2) d.1
      let s2 := s1.addSat Reg.crsTalDropped (drops - s.cur.talSeen)
      let s3 := { s2 with cur := { s2.cur with talSeen := drops } }
      if n = 0 then s3 else (s3.dramWrite (a + 4) (toLE 4 (tail + n)) .curator).1)

end Sys2Proof.Machine
end

