-- ==== Sys2Proof/Machine/StepEvents.lean ====
section
/-! DEFINITION. The step (R33 to R40): the close tick, drain, overrun, the opening, and Stopped. -/

namespace Sys2Proof.Machine

open Sys2Proof

/-- STEP_STATE takes a value (Table 1.3). -/
def State.setStep (s : State) (v : Nat) : State := s.setRf Reg.htStatus 4 2 v

/-- HOLD is read as active (R394) and is not masked (R396): PLT1. -/
def State.holding (s : State) : Bool := s.plt.reading && s.plt.hold.level && !s.rbit Reg.pltMask 1

/-- A register pair advanced by the period, when it is not 0 (R40). -/
def State.addPeriod (s : State) (a : Nat) : State :=
  let p := (s.rg Reg.htStepPeriod).toNat
  if p = 0 then s else s.setRg64 a (s.rg64 a + dword p)

/-- CLOSING_BEGIN (R34, R40): the state is Open and HT has reached HT_STEP_CLOSE. The close tick is D_b of every entry
whose M has not come. -/
def execClosingBegin (s : State) : Host.Outcome State Fault Refusal :=
  .next (if s.stepState = 1 ∧ (s.rg64 Reg.htStepCloseLo).toNat ≤ s.ht.toNat then
    let s1 := (s.setStep 2).addPeriod Reg.htStepCloseLo
    let s2 := { s1 with clk := { s1.clk with closeAt := some s.ht, overrun := false } }
    s2.buckets.foldl (fun t e => match t.bkt e.1 with
      | some b => if b.st = .open_ && b.m.isNone then t.fixM b else t
      | none => t) s2
    else s)

/-- Landing credit or a reply reservation is outstanding (R285). -/
def State.creditOut (s : State) : Bool :=
  !s.xbar.xfers.isEmpty || allStns.any (fun n => !(s.st n).resv.isEmpty || (s.st n).voq.any (fun f => f.credit))

/-- Drain is complete (R36). -/
def State.drained (s : State) : Bool := allStns.all s.stnEmpty && !s.creditOut && s.redWait.isEmpty

/-- DRAIN_COMPLETE (R36): a Closing ends in Closed, or in Stopped under R28 or R396. -/
def execDrainComplete (s : State) : Host.Outcome State Fault Refusal :=
  .next (if s.stepState = 2 ∧ s.drained then
    let c := s.stepCur
    let s1 := { s with
      clk := { s.clk with closeAt := none, stopWanted := false }
      cur := { s.cur with optDue := s.cur.optDue ++ [c], moeDue := s.cur.moeDue ++ [c], closed := some c } }
    if s.clk.stopWanted || s.holding then s1.setStep 3 else s1.setStep 0
    else s)

/-- CLOSE_OVERRUN (R37): once in each Closing, when HT has reached the close tick plus HT_CLOSE_LIMIT. -/
def execCloseOverrun (s : State) : Host.Outcome State Fault Refusal :=
  .next (match s.clk.closeAt with
    | none => s
    | some t =>
      if s.stepState = 2 ∧ !s.clk.overrun ∧ !s.drained ∧ t.toNat + (s.rg Reg.htCloseLimit).toNat ≤ s.ht.toNat then
        (({ s with clk := { s.clk with overrun := true } }).stepFlag 2).raise ⟨.tim, 4⟩ uDevice []
      else s)

/-- What a step opening resets: the bucket table, what the step's codes remember, halts and reported flags, and the
credit of admitted endpoints starts (R167, R402, R409, R145, R320). -/
def State.freshStep (s : State) : State :=
  let s1 := { s with buckets := [], redDisc := [], expDisc := [], sit := Sittings.zero, notices := [], stgUsed := [],
                     cat := { s.cat with raised := [] },
                     stn := s.stn.map (fun (x : Stn) => { x with numDone := 0, halts := 0 }) }
  let s2 := s.buckets.foldl (fun t e => e.2.contrs.foldl (fun u c => u.freeBs c.data) t) s1
  let s3 := s.buckets.foldl (fun t e => e.2.fabs.foldl (fun u f => u.freeBs f.data) (t.freeBs e.2.own)) s2
  { s3 with prt := Vector.ofFn (fun (p : PortId) =>
      let x := s3.pt p
      if s3.isEndpoint p && decide (x.acc = .admitted) then { x with creditOn := true } else x) }

/-- STEP_OPEN (R38, R40): the state is Closed and HT has reached HT_STEP_OPEN. BEAT is driven when BEAT_EN is 1. -/
def execStepOpen (s : State) : Host.Outcome State Fault Refusal :=
  .next (if s.stepState = 0 ∧ (s.rg64 Reg.htStepOpenLo).toNat ≤ s.ht.toNat then
    let late := decide ((s.rg64 Reg.htStepOpenLo).toNat < s.ht.toNat)
    let n := s.rg Reg.htStepNum
    let s1 := ((s.setStep 1).setRg Reg.htStepCur n).setRg Reg.htStepNum (n + 1)
    let s2 := (s1.setRg64 Reg.htOpenActualLo s.ht).addPeriod Reg.htStepOpenLo
    let s3 := s2.freshStep.retryRed
    let s4 := s3.vector 68
    let s5 := if s4.plt.driven && s4.rbit Reg.pltCtrl 0 then
        { (s4.emit .beat) with plt := { s4.plt with beatTil := s4.ht + 8 } }
      else s4
    if late then (s5.stepFlag 3).raise ⟨.tim, 5⟩ uDevice [] else s5
    else s)

/-- STOPPED_TO_CLOSED (R39). -/
def execStoppedToClosed (s : State) : Host.Outcome State Fault Refusal :=
  .next (if s.stepState = 3 ∧ s.rbit Reg.htStatus 0 ∧ s.rbit Reg.htStatus 2 ∧ s.stage = 6 ∧ !s.holding then s.setStep 0
    else s)

end Sys2Proof.Machine
end

