-- ==== Sys2Proof/Machine/Links.lean ====
section
/-! DEFINITION. Receiving on ports: the Carade header and cells (R310, R311), endpoint frames (R314 to R316), link
retry and the checks that follow it (R305 to R307, R58, R291), and where a received frame goes (R63, R321). -/

namespace Sys2Proof.Machine

open Sys2Proof

/-! ### Ports and sub-links (R306) -/

/-- The port that a sub-link belongs to; a sub-link has the number of the mode-0 port whose lanes it uses. -/
def State.bundlePort (s : State) (p : PortId) : PortId :=
  if s.bundle = 1 then portId (p.val / 2 * 2) else if s.bundle = 2 then portId (p.val / 4 * 4) else p

/-- An Ethernet port: endpoint or service mode. -/
def State.isEther (s : State) (p : PortId) : Bool := s.portMode p == 2 || s.portMode p == 3

/-- The station that takes a frame arriving with an LSEQ: in bundling mode 2 stations 2m and 2m + 1 alternate (R303). -/
def State.takerOf (s : State) (p : PortId) (q : BitVec 16) : StnId :=
  if s.bundle = 2 ∧ q.toNat % 2 = 1 then stnId (p.val / 2 + 1) else stnOf p

/-! ### The Carade header (Table 12.2) -/

/-- A Carade header. -/
structure CH where
  control : Bool
  tc      : Nat
  esc     : Nat
  xh      : Nat
  mc      : Bool
  dst     : Nat
  lseq    : BitVec 16
  len     : Nat
  deriving DecidableEq, Repr

/-- The header that 16 bytes hold. -/
def chOf (b : List Byte) : CH :=
  let w0 := word (leAt b 0 4)
  ⟨bitOf w0 0, fld w0 1 3, fld w0 4 2, fld w0 6 2, bitOf w0 8, fld w0 16 9, BitVec.ofNat 16 (leAt b 4 2),
    leAt b 8 4 % 2 ^ 13⟩

/-- The frame that follows a CH: the BH or SH that XH names, then the tile frame. -/
def wireOf (c : CH) (tc : TClass) (dst : Nat) (body : List Byte) : Wire :=
  let headed := c.xh = 1 ∨ c.xh = 2
  if headed ∧ body.length < 32 then ⟨tc, c.esc, c.mc, dst, .none, none, body⟩
  else
    let r := if headed then body.drop 32 else body
    let xh : XHdr := if c.xh = 1 then .bh (bytesToWords 8 body) else if c.xh = 2 then .sh (bytesToWords 8 body) else .none
    if r.length < 32 then ⟨tc, c.esc, c.mc, dst, xh, none, r⟩
    else ⟨tc, c.esc, c.mc, dst, xh, some (TH.ofBytes (r.take 32)), r.drop 32⟩

/-- The checks of Table 2.6 on an arriving frame. -/
def Wire.good (w : Wire) : Bool :=
  match w.th with
  | some t => t.ok && 32 + w.data.length == t.frameLen
  | none => w.data.isEmpty && w.xh != .none

/-! ### Discards and NAK -/

/-- A frame is discarded under Table 12.4 (R316). -/
def State.rxOther (s : State) (p : PortId) : State := (s.inc (Reg.prtRxOther p.val)).raiseOnce ⟨.lnk, 6⟩ (uPort p) 0 []

/-- A data frame was discarded: a NAK of the expected LSEQ, at the first discard (R307). -/
def State.nak (s : State) (p : PortId) : State :=
  if (s.pt p).nakOut then s
  else (s.modPt p (fun x => { x with nakOut := true })).sendControl p (.nak p (s.pt p).rxSeq)

/-- Codewords that the FEC corrected and could not correct under an arrival (R305, R415). -/
def State.fec (s : State) (p : PortId) (corr uncorr : Nat) : State :=
  let s1 := (s.addSat (Reg.prtFecCorr p.val) corr).addSat (Reg.prtFecUncorr p.val) uncorr
  let s2 := if corr = 0 then s1 else
    { s1 with cat := { s1.cat with fecNow := Cells.set zeroNat s1.cat.fecNow p.val (Cells.get zeroNat s1.cat.fecNow p.val + corr) } }
  if uncorr = 0 then s2
  else (s2.addScore (uPort p) (64 * uncorr)).addScore (uOpt (engineOf p.val)) (16 * uncorr)

/-- A cell or frame failed its CRC-32 (R305). One that overlaps uncorrected codewords is treated as failing it, and its weight
is theirs alone (Table 16.12, log entry 140). -/
def State.crcFail (s : State) (p : PortId) (uncorr : Nat) : State :=
  let t := s.inc (Reg.prtCrcErr p.val)
  if uncorr = 0 then t.addScore (uPort p) 16 else t

/-- The CRC-32 at the end of the bytes is right. -/
def crcGood (b : List Byte) : Bool := crc32 (b.take (b.length - 4)) == ofLE (b.drop (b.length - 4))

/-! ### Where an accepted frame goes -/

/-- A TC_MGT frame of a service port goes to the Curator (R304, R379); one that no Cloakroom pool fits is discarded and
counted. Its block of a pool is taken before it crosses (R296). -/
def State.toCurator (s : State) (p : PortId) (n : StnId) (w : Wire) (hold : Hold) : State :=
  if w.tc ≠ 4 then (s.releaseHold n hold).rxOther p
  else if ((s.st n).lay.fitPool w.len).isNone then (s.releaseHold n hold).inc Reg.curRxDrop
  else s.enterVoq n 4 n .curator w hold false false

/-- A frame for another device goes on by R321; an escape frame's second link is hop 2 (R291). -/
def State.transit (s : State) (n : StnId) (w : Wire) (hold : Hold) : State :=
  match s.routeOut w.dst w.key w.tc (if w.esc = 1 then 2 else w.esc) with
  | none => (s.releaseHold n hold).noItin n
  | some (q, c, e) => s.enterVoqAs n c (s.outStn q w.key) (.port q) { w with tc := c, esc := e } hold false true
      (w.esc == 0 && e != 0)

/-- A tile for this device: of a discarded segment, or delivered to hop 0. -/
def State.tileHome (s : State) (p : PortId) (n : StnId) (t : TH) (data : List Byte) (hold : Hold) : State :=
  if s.ofBadSegment p t then (s.dropSegmentTile p t).releaseHold n hold else s.arrive n t data hold

/-- A bucket tile on a fabric port is a partner's stream's: one of the table, one that is stray, or one whose header still waits
(R155, R161, R166). A multicast copy is a delivered tile. -/
def State.ofStream (s : State) (p : PortId) (w : Wire) (t : TH) : Bool :=
  !w.mc && ((match s.whose t with | .none => false | _ => true) || s.redWait.any (fun x => x.port == p &&
    (match x.wire.xh with
     | .bh h => bhStep h == t.step && bhBucket h == t.tag.toNat % 2 ^ 20 && bhSender h == t.origin &&
        (s.fabTakes (bhStage h - 1) (bhTiles h) t.seq.toNat).isSome
     | _ => false)))

/-- A tile that the bucket path takes. -/
def State.forBuckets (s : State) (p : PortId) (w : Wire) (t : TH) : Bool :=
  t.tagKind == 1 && (s.isEndpoint p || s.ofStream p w t)

/-- A frame whose destination is this device. -/
def State.home (s : State) (p : PortId) (n : StnId) (w : Wire) (hold : Hold) : State :=
  match w.xh, w.th with
  | .bh _, _ => s.redArrive ⟨p, n, w, hold⟩
  | .sh h, none => s.sittingHeader p h hold
  | .sh h, some t => (s.sittingHeader p h .none).tileHome p n t w.data hold
  | .none, some t => if s.forBuckets p w t then s.redArrive ⟨p, n, w, hold⟩ else s.tileHome p n t w.data hold
  | .none, none => s.releaseHold n hold

/-- The device that sent a frame over a fabric link, as the unit of a code (R404): the partner of the link. -/
def State.linkUnit (s : State) (p : PortId) : UnitId :=
  match s.linkRank p with
  | some r => uRemote r
  | none => uDevice

/-- Where a good frame goes that passed link retry; `hold` is the ingress room that it takes (R292). -/
def State.sortFrame (s : State) (p : PortId) (n : StnId) (w : Wire) (hold : Hold) : State :=
  if s.portMode p = 3 then s.toCurator p n w hold
  else if s.isFabric p && !w.mc && w.dst != s.rank then
    if w.esc = 2 then (((s.releaseHold n hold).inc Reg.crsEscBad).xstatus 3).raise ⟨.crs, 4⟩ (s.linkUnit p) []
    else s.transit n w hold
  else s.home p n w hold

/-- A frame that passed link retry and for which the partner held credit, its reserved bits cleared (R53). `ab` says that it
ended in ABORT (R309). -/
def State.takeFrame (s : State) (p : PortId) (n : StnId) (v : Wire) (ab : Bool) : State :=
  let w := { v with th := v.th.map TH.clean }
  if ab then s.returnRoom p w
  else if !w.good then ((s.returnRoom p w).inc (Reg.stnBadTh n.val)).raise ⟨.stn, 1⟩ (uStn n) []
  else if w.hdrOnly then
    s.sortFrame p n w (.ingress (poolOf w.tc w.esc).val true (s.credPort p) none)
  else
    let b := s.takeIngress n (32 + w.data.length)
    b.1.sortFrame p n w (.ingress (poolOf w.tc w.esc).val false (s.credPort p) b.2)

/-- A frame that came without credit is discarded; an endpoint's, outside the open step, under R35. -/
def State.uncredited (s : State) (p : PortId) : State :=
  if !s.isEndpoint p then s
  else
    let s1 := s.inc (Reg.prtRxOther p.val)
    if s.stepState = 1 then s1 else (s1.stepFlag 1).raise ⟨.tim, 7⟩ uDevice []

/-! ### Link retry (R306, R307) -/

/-- The data frame with the expected LSEQ is accepted. -/
def State.acceptNext (s : State) (p : PortId) (q : BitVec 16) (w : Wire) (ab : Bool) : State :=
  let s1 := s.modPt p (fun x => { x with rxSeq := q + 1, lastAcc := some q, ackDue := true, nakOut := false })
  match s1.chargePartner p w with
  | none => s1.uncredited p
  | some s2 => s2.takeFrame p (s.takerOf p q) w ab

/-- Frames that waited for the one just accepted follow it, at most `k`. -/
def State.drainEarly : Nat → State → PortId → State
  | 0, s, _ => s
  | k + 1, s, p =>
    match (s.pt p).early.find? (fun e => e.1 = (s.pt p).rxSeq) with
    | none => s.modPt p (fun x => { x with gapAt := if x.early.isEmpty then none else some s.ht })
    | some e =>
      State.drainEarly k
        ((s.modPt p (fun x => { x with early := x.early.filter (fun g => g.1 != e.1) })).acceptNext p e.1 e.2.1 e.2.2) p

/-- The frame waits in its sub-link's receive buffer of 8 frames (R306). -/
def State.waitsEarly (s : State) (p : PortId) (q : BitVec 16) : Bool :=
  let x := s.pt p
  let k := 2 ^ s.bundle
  s.bundle != 0 && decide ((q - x.rxSeq).toNat < 32768) && !x.early.any (fun e => e.1 == q) &&
    decide ((x.early.filter (fun e => e.1.toNat % k == q.toNat % k)).length < 8)

/-- A data frame whose bytes passed the CRC. -/
def State.rxData (s : State) (p : PortId) (q : BitVec 16) (w : Wire) (ab : Bool) : State :=
  if q = (s.pt p).rxSeq then (s.acceptNext p q w ab).drainEarly 33 p
  else if s.waitsEarly p q then
    s.modPt p (fun x => { x with early := x.early ++ [(q, w, ab)], gapAt := some (x.gapAt.getD s.ht) })
  else s.nak p

/-! ### Sending side of link retry -/

/-- The replay buffer after the frames up to an LSEQ. -/
def afterLseq (l : List (BitVec 16 × Wire)) (q : BitVec 16) : List (BitVec 16 × Wire) :=
  match l.findIdx? (fun e => e.1 == q) with
  | some i => l.drop (i + 1)
  | none => l

/-- An ACK record releases the frames that it acknowledges. -/
def State.ackRec (s : State) (p : PortId) (q : BitVec 16) : State :=
  s.modPt p (fun x =>
    let l := afterLseq x.replay q
    { x with replay := l, replays := x.replays.filter (fun c => l.any (fun e => e.1.toNat == c.1)) })

/-- A NAK record makes the port replay from the named LSEQ; a fifth replay of one LSEQ fails the port (R307, R308). Only an
ADMITTED port carries data frames (R319). -/
def State.nakRec (s : State) (p : PortId) (q : BitVec 16) : State :=
  match (if (s.pt p).acc = .admitted then (s.pt p).replay.findIdx? (fun e => e.1 == q) else none) with
  | none => s
  | some i =>
    let n := Cells.get zeroNat (s.pt p).replays q.toNat + 1
    if 5 ≤ n then s.portFail p
    else
      let l := (s.pt p).replay.drop i
      let s1 := s.modPt p (fun x => { x with
        replays := Cells.set zeroNat x.replays q.toNat n,
        txUntil := max x.txUntil s.cycle + (l.map (fun e => s.timeCharge p e.2)).foldl (· + ·) 0 })
      let s2 := l.foldl (fun t e => t.sendFrame p e.1 e.2) s1
      ((s2.inc (Reg.prtRetry p.val)).addScore (uPort p) 32).raiseOnce ⟨.lnk, 1⟩ (uPort p) 0 []

/-- A CREDIT record returns blocks and headers of each pool to this end (R312). -/
def State.creditRec (s : State) (p : PortId) (ws : List Word) : State :=
  s.modPt (s.credPort p) (fun x => { x with
    crBlk := Vector.ofFn (fun (i : Fin 6) => x.crBlk[i.val] + fld (nth ws i.val 0) 0 16),
    crHdr := Vector.ofFn (fun (i : Fin 6) => x.crHdr[i.val] + fld (nth ws i.val 0) 16 16) })

/-! ### Accession (R319, R320) -/

/-- A partner is refused: LNK-04, ACC_EVENT.REFUSE; one that was admitted leaves, and its credits are cleared. -/
def State.refuse (s : State) (p : PortId) : State :=
  let was := decide ((s.pt p).acc = .admitted)
  let s1 := (s.modPt p (fun x => { x with acc := .refused, creditOn := false })).prtStatus p 0 false
  let s2 := if was then s1.accEvent 1 else s1
  (((s2.partnerGone p).raise ⟨.lnk, 4⟩ (uPort p) []).accEvent 2).parents

/-- The station and the port that an identity gives can lead back here (R320): the port is one of that station, and the twin's
partner, where it has shown itself, is the same station (log entry 68). -/
def State.leadsBack (s : State) (p : PortId) (w1 : Word) : Bool :=
  (if s.bundle = 2 then fld w1 15 7 / 4 == fld w1 9 6 / 2 else fld w1 15 7 / 2 == fld w1 9 6) &&
  (s.bundle != 0 || (match (s.pt (twinOf p)).ident with
    | some (v1, _) => fld v1 9 6 == fld w1 9 6 && fld v1 15 7 != fld w1 15 7
    | none => true))

/-- The partner's identity matches: a fabric partner's hall rank, station and port, an endpoint's transport version and
EtherType. None where no identity has come. -/
def State.matches_ (s : State) (p : PortId) : Option Bool :=
  if s.isFabric p then
    match (s.pt p).ident with
    | none => none
    | some (w1, _) => some (s.linkRank p == some (fld w1 0 9) && s.leadsBack p w1)
  else
    match (s.pt p).nbr with
    | none => none
    | some nb =>
      if nb.du.tlv then some (nb.du.version == 1 && nb.du.etype.toNat == s.rf (Reg.prtEtype p.val) 0 16) else none

/-- Accession looks at a locked port's partner. -/
def State.examine (s : State) (p : PortId) : State :=
  if !(s.curReady && s.rbit Reg.accCtrl 0 && (s.pt p).locked) then s
  else match (s.pt p).acc, s.matches_ p with
    | .discovered, some true => s.admitPort p
    | .discovered, some false => s.refuse p
    | .admitted, some false => s.refuse p
    | .refused, some true => if s.isFabric p then s else s.admitPort p
    | _, _ => s

/-- An IDENT record at a locked fabric port. -/
def State.identRec (s : State) (p : PortId) (w1 w2 : Word) : State :=
  if s.isFabric p && (s.pt p).locked then (s.modPt p (fun x => { x with ident := some (w1, w2) })).examine p else s

/-! ### Epitaph (R309) -/

/-- The local port whose partner calls itself `failed`: the port itself, its twin, else any. -/
def State.portOfPartner (s : State) (p failed : PortId) : Option PortId :=
  ([twinOf p, p] ++ allPorts).find? (fun q => match (s.pt q).ident with
    | some (w1, _) => fld w1 15 7 == failed.val
    | none => false)

/-- The failed port's unacknowledged frames above an LSEQ, or all, are sent again as new frames. -/
def State.resendAbove (s : State) (p : PortId) (q : Option (BitVec 16)) : State :=
  let l := match q with | some v => afterLseq (s.pt p).replay v | none => (s.pt p).replay
  l.foldl (fun t e => t.resendOn p e.2)
    (s.modPt p (fun x => { x with replay := [], replays := [], epitaph := false, epiAt := none }))

/-- An EPITAPH record: the link end here fails with the partner's, and what the partner lacks is resent. -/
def State.epitaphRec (s : State) (p failed : PortId) (q : BitVec 16) : State :=
  match s.portOfPartner p failed with
  | none => s
  | some f =>
    let s1 := s.portFail f
    if (s1.pt f).epitaph then s1.resendAbove f (some q) else s1

/-! ### Control records (Table 12.3) -/

/-- One control record at a port; a reserved one is ignored. -/
def State.record (s : State) (p : PortId) (ws : List Word) : State :=
  let w0 := nth ws 0 0
  let w1 := nth ws 1 0
  let pair (i : Nat) : DWord := dword ((nth ws i 0).toNat + (nth ws (i + 1) 0).toNat * 2 ^ 32)
  match fld w0 0 4 with
  | 1 => s.ackRec p (BitVec.ofNat 16 (fld w0 16 16))
  | 2 => s.nakRec p (BitVec.ofNat 16 (fld w0 16 16))
  | 3 => s.creditRec p (ws.drop 1)
  | 4 => s.tstampRec p (pair 2) (pair 4) (pair 6) (s.ht * 16)
  | 5 => s.identRec p w1 (nth ws 2 0)
  | 6 => s.epitaphRec p (portId (fld w0 16 7)) (BitVec.ofNat 16 (fld w1 0 16))
  | _ => s

/-- An EPITAPH for another device goes on toward it (R309, R321), as the frame of an escape hop does (R291); where no port leads
there it is lost, and the 10 us of the waiting end run out. -/
def State.passEpitaph (s : State) (dst esc : Nat) (failed : PortId) (q : BitVec 16) : State :=
  match s.routeOut dst 0 4 (if esc = 1 then 2 else esc) with
  | some (v, _, _) => s.sendControl v (.epitaph v failed q (some dst))
  | none => s

/-- A control record that came under a CH at port `p`: an EPITAPH in TC_MGT for another device is passed on; every other record
is of this link (R312, log entry 139). -/
def State.recordUnder (s : State) (p : PortId) (c : CH) (ws : List Word) : State :=
  if s.isFabric p && c.tc == 4 && c.dst != s.rank && fld (nth ws 0 0) 0 4 == 6 then
    s.passEpitaph c.dst c.esc (portId (fld (nth ws 0 0) 16 7)) (BitVec.ofNat 16 (fld (nth ws 1 0) 0 16))
  else s.record p ws

/-- Control records that follow a CH, at most `k`. -/
def State.recordsIn (s : State) (p : PortId) (c : CH) : Nat → List Byte → State
  | 0, _ => s
  | k + 1, b => if b.length < 32 then s else (s.recordUnder p c (bytesToWords 8 b)).recordsIn p c k (b.drop 32)

/-! ### Cells (R311) -/

/-- A whole frame that a fabric port assembled. -/
def State.rxFabric (s : State) (p : PortId) (b : List Byte) (ab : Bool) : State :=
  let c := chOf b
  let body := (b.drop 16).take c.len
  if b.length < 16 then s.nak p
  else if c.control then s.recordsIn p c 32 body
  else if (s.pt p).acc = .admitted then s.rxData p c.lseq (wireOf c (tclass c.tc) c.dst body) ab
  else s

/-- FABRIC_CELL_RECEIVE (R305, R311): the cell is checked, and joins its sub-link's frame. -/
def execFabricCellReceive (p : PortId) (cell : List Byte) (corr uncorr : Nat) (s : State) :
    Host.Outcome State Fault Refusal :=
  .next (
    let q := s.bundlePort p
    if !(s.isFabric q && (s.pt q).locked) then s
    else
      let s1 := s.fec q corr uncorr
      if uncorr ≠ 0 || cell.length != 248 || !crcGood cell then
        ((s1.crcFail q uncorr).modPt p (fun x => { x with cellBuf := [] })).nak q
      else
        let h := word (leAt cell 0 4)
        let body := (cell.drop 4).take (min 240 (fld h 8 8))
        let done (buf : List Byte) : State :=
          if bitOf h 2 then (s1.modPt p (fun x => { x with cellBuf := [] })).rxFabric q buf (bitOf h 3)
          else s1.modPt p (fun x => { x with cellBuf := buf })
        match fld h 0 2 with
        | 0 => s1.recordsIn q (chOf body) 7 (body.drop 16)
        | 1 => if (s1.pt p).cellBuf.isEmpty then done body
          else
            let s2 := s1.nak q
            if bitOf h 2 then s2.modPt p (fun x => { x with cellBuf := [] }) else s2.modPt p (fun x => { x with cellBuf := body })
        | 2 => if (s1.pt p).cellBuf.isEmpty then s1 else done ((s1.pt p).cellBuf ++ body)
        | _ => s1)

/-! ### Ethernet frames (R314 to R316) -/

/-- The parts of an Ethernet frame before the frame check sequence: destination, the tag's TCI, EtherType, the rest. -/
structure Ether where
  dst  : Nat
  tci  : Option Nat
  type : Nat
  rest : List Byte
  deriving DecidableEq, Repr

/-- The frame that bytes without their frame check sequence hold. -/
def etherOf (b : List Byte) : Ether :=
  let t := ofBE (slice b 12 2)
  if t = 0x8100 then ⟨ofBE (slice b 0 6), some (ofBE (slice b 14 2)), ofBE (slice b 16 2), b.drop 18⟩
  else ⟨ofBE (slice b 0 6), none, t, b.drop 14⟩

/-- The standard multicast addresses of LLDP and PTP. -/
def groupAddr (type dst : Nat) : Bool :=
  if type = 0x88CC then dst == 0x0180C200000E || dst == 0x0180C2000003 || dst == 0x0180C2000000
  else if type = 0x88F7 then dst == 0x011B19000000 || dst == 0x0180C200000E
  else false

/-- The tag breaks R315. -/
def State.badTag (s : State) (p : PortId) (e : Ether) : Bool :=
  s.rbit (Reg.prtCfg p.val) 4 &&
    (match e.tci with | none => true | some v => v % 4096 != s.rf (Reg.prtVlan p.val) 0 12)

/-- The class of a Carade frame at an Ethernet port (R315). -/
def State.etherClass (s : State) (p : PortId) (e : Ether) (c : CH) : TClass :=
  match s.rbit (Reg.prtCfg p.val) 4, e.tci with
  | true, some v => tclass (s.rf (Reg.prtPcp p.val) (3 * (v / 8192)) 3)
  | _, _ => tclass c.tc

/-- ENDPOINT_FRAME_RECEIVE (R314 to R316). LLDP and PTP frames go to the Curator's agents, whose receipt of their
contents is a row of its own (log entry 14). -/
def execEndpointFrameReceive (p : PortId) (frame : List Byte) (corr uncorr : Nat) (s : State) :
    Host.Outcome State Fault Refusal :=
  .next (
    let q := s.bundlePort p
    if !(s.isEther q && (s.pt q).locked) then s
    else
      let s1 := s.fec q corr uncorr
      let e := etherOf (frame.take (frame.length - 4))
      let ours := e.type == s.rf (Reg.prtEtype q.val) 0 16
      if uncorr ≠ 0 || decide (frame.length < 4) || !crcGood frame then
        let s2 := (s1.crcFail q uncorr).rxOther q
        if ours && decide ((s.pt q).acc = .admitted) then s2.nak q else s2
      else if 4454 < frame.length || s.badTag q e then s1.rxOther q
      else if (e.type == 0x88CC || e.type == 0x88F7) && (groupAddr e.type e.dst || e.dst == s.macOf q) then s1
      else if e.dst != s.macOf q || !ours then s1.rxOther q
      else
        let c := chOf e.rest
        let body := (e.rest.drop 16).take c.len
        if c.control then s1.recordsIn q c 32 body
        else if (s.pt q).acc = .admitted then s1.rxData q c.lseq (wireOf { c with esc := 0, mc := false } (s.etherClass q e c) s.rank body) false
        else s1.rxOther q)

/-! ### The link's own commands -/

/-- REASSEMBLY_GAP_TIMEOUT (R306): a gap of 256 tk is a discard, and so are the frames that waited behind it; the receiver
sends a NAK. -/
def execReassemblyGapTimeout (p : PortId) (s : State) : Host.Outcome State Fault Refusal :=
  .next (match (s.pt p).gapAt with
    | none => s
    | some t =>
      if t.toNat + 256 ≤ s.ht.toNat then (s.modPt p (fun x => { x with early := [], gapAt := none, nakOut := false })).nak p else s)

/-- ACK_SEND (R307): the last LSEQ accepted, while data arrive; credit that is owed goes with it. -/
def execAckSend (p : PortId) (s : State) : Host.Outcome State Fault Refusal :=
  .next (match (s.pt p).ackDue, (s.pt p).lastAcc with
    | true, some q => ((s.modPt p (fun x => { x with ackDue := false })).sendControl p (.ack p q)).sendCredit p
    | _, _ => s.sendCredit p)

/-- ACK_RECORD (R307). -/
def execAckRecord (p : PortId) (lseq : BitVec 16) (s : State) : Host.Outcome State Fault Refusal :=
  .next (if (s.pt p).locked then s.ackRec p lseq else s)

/-- NAK_RECORD (R307, R308). -/
def execNakRecord (p : PortId) (lseq : BitVec 16) (s : State) : Host.Outcome State Fault Refusal :=
  .next (if (s.pt p).locked then s.nakRec p lseq else s)

/-- CREDIT_RECORD (R312): words j = 0 to 5 are those of pools 0 to 5. -/
def execCreditRecord (p : PortId) (words : List Word) (s : State) : Host.Outcome State Fault Refusal :=
  .next (if (s.pt p).locked then s.creditRec p words else s)

/-- IDENT_RECORD (R320). -/
def execIdentRecord (p : PortId) (w1 w2 : Word) (s : State) : Host.Outcome State Fault Refusal := .next (s.identRec p w1 w2)

/-- EPITAPH_RECORD (R309). -/
def execEpitaphRecord (p failed : PortId) (lseq : BitVec 16) (s : State) : Host.Outcome State Fault Refusal :=
  .next (if (s.pt p).locked then s.epitaphRec p failed lseq else s)

/-- EPITAPH_TIMEOUT (R309): 10 us after the failure every unacknowledged frame is resent, with LNK-05. -/
def execEpitaphTimeout (p : PortId) (s : State) : Host.Outcome State Fault Refusal :=
  .next (match (s.pt p).epitaph, (s.pt p).epiAt with
    | true, some t => if t.toNat ≤ s.ht.toNat then (s.resendAbove p none).raise ⟨.lnk, 5⟩ (uPort p) [] else s
    | _, _ => s)

/-- PCS_LOCK (R319, R320): a port in training, or a failed one that retrained, is locked while its engine's lasers are on; a
fabric port sends its IDENT. -/
def execPcsLock (p : PortId) (s : State) : Host.Outcome State Fault Refusal :=
  .next (if s.portMode p ≠ 0 ∧ ((s.pt p).acc = .training ∨ (s.pt p).acc = .failed) ∧
      !s.cur.engOff[p.val / 8]! then
    let s1 := (s.dropPartial p).modPt p (fun x => { x with acc := .discovered, locked := true, ident := none, nbr := none, rxSeq := 0, txSeq := 0 })
    if s.isFabric p then
      s1.emit (.identity p (word (s.rank + (stnOf p).val * 2 ^ 9 + p.val * 2 ^ 15)) (s.rg (Reg.glbImgMeas 0)))
    else s1
   else s)

/-- BLOCK_LOCK_LOSS_TIMEOUT (R306, R308): a PCS or sub-link without block lock for more than 1 us fails its port. -/
def execBlockLockLossTimeout (p : PortId) (s : State) : Host.Outcome State Fault Refusal :=
  .next (if (s.pt (s.bundlePort p)).locked then s.portFail (s.bundlePort p) else s)

/-- TWIN_TAKEOVER (R308): at a gate boundary of the twin of the failed port `p`, the twin carries its traffic: frames
in VOQs that land on the port, and those that wait at it. -/
def execTwinTakeover (p : PortId) (s : State) : Host.Outcome State Fault Refusal :=
  .next (
    let w := twinOf p
    if !(s.bundle == 0 && s.portBad p && !s.portBad w && s.gateBoundary w && !s.rbit (Reg.prtStatus w.val) 1) then s
    else
      let s1 := s.prtStatus w 1 true
      let move (x : Stn) : Stn :=
        { x with
          voq := x.voq.map (fun (f : VoqFrame) => if f.land == Landing.port p then { f with land := Landing.port w } else f) }
      let s2 := { s1 with stn := s1.stn.map move }
      let e := (s2.pt p).egress
      (s2.modPt p (fun x => { x with egress := [] })).modPt w (fun x => { x with egress := x.egress ++ e }))

/-- RETRAIN_TIMEOUT (R319, Table 16.9): 100 ms of failed retraining put the port into DOWN. -/
def execRetrainTimeout (p : PortId) (s : State) : Host.Outcome State Fault Refusal :=
  .next (if (s.pt p).acc = .failed then (s.portDown p).addScore (uPort p) 8192 else s)

/-- FABRIC_CREDIT_START (R320): at a gate boundary of an admitted fabric port. -/
def execFabricCreditStart (p : PortId) (s : State) : Host.Outcome State Fault Refusal :=
  .next (if s.isFabric p && (s.pt p).acc == .admitted && !(s.pt p).creditOn && s.gateBoundary p then
    (s.modPt p (fun x => { x with creditOn := true })).sendCredit p
    else s)

/-- The REFUSED ports are examined again (R320). -/
def State.retryPorts (s : State) : State :=
  allPorts.foldl (fun t p => if (t.pt p).acc = .refused then
    (t.modPt p (fun x => { x with acc := .discovered })).examine p else t) s

/-- ACC_RETRY (R320): ACC_CTRL.RETRY is written. -/
def execAccRetry (s : State) : Host.Outcome State Fault Refusal := .next s.retryPorts

/-! ### LLDP and PTP (R317, R318) -/

/-- The hall endpoint index of a port's slot (R17). -/
def State.endpointIndex (s : State) (p : PortId) : Nat := s.rank * 16 + (s.slotOf (stnOf p)).getD 0

/-- The time to live of the LLDPDU (R317). -/
def State.lldpTtl (s : State) : Nat := s.rf Reg.accLldp 0 8 * s.rf Reg.accLldp 8 8

/-- The organisationally specific TLV of a port's LLDPDU (R317): the identifier of ACC_OUI, the hall rank, the hall endpoint
index of the port's slot, the transport version, PRT_ETYPE. -/
def State.lldpContent (s : State) (p : PortId) : List Word :=
  [word (s.rf Reg.accOui 0 24), word s.rank, word (s.endpointIndex p), 1, word (s.rf (Reg.prtEtype p.val) 0 16)]

/-- The LLDP agent of port `p` has an LLDPDU to send: the first, every ACC_LLDP.TX seconds, and on a change of content. -/
def State.lldpDue (s : State) (p : PortId) : Bool :=
  s.curReady && s.isEther p && (s.pt p).locked &&
  (match (s.pt p).lldpSent with
   | none => true
   | some (t, c) =>
     decide (max 1 (s.rf Reg.accLldp 0 8) * 1250000000 ≤ s.ht.toNat - t.toNat) || c != word s.lldpTtl :: s.lldpContent p)

/-- LLDPDU_TRANSMIT (R317): on a locked endpoint or service port, when bit 5 of its gate list is open (R326). -/
def execLldpduTransmit (p : PortId) (s : State) : Host.Outcome State Fault Refusal :=
  .next (if s.curReady && s.isEther p && (s.pt p).locked && s.isOpen p 5 then
    let h := (s.modPt p (fun x => { x with lldpSent := some (s.ht, word s.lldpTtl :: s.lldpContent p) })).agentHdr p
      0x0180C200000E 0x88CC
    h.1.emit (.lldp p Config.serial s.lldpTtl (s.lldpContent p) h.2)
    else s)

/-- LLDPDU_RECEIVE (R317, R320): the neighbour of the port; a time to live of 0 withdraws it. -/
def execLldpduReceive (p : PortId) (du : Lldpdu) (s : State) : Host.Outcome State Fault Refusal :=
  .next (if !(s.curReady && s.isEther p && (s.pt p).locked) then s
    else if du.ttl = 0 then (s.modPt p (fun x => { x with nbr := none })).portFail p
    else (s.modPt p (fun x => { x with nbr := some ⟨du, s.ht + dword (du.ttl.toNat * 1250000000)⟩ })).examine p)

/-- LLDP_NEIGHBOUR_EXPIRY (R317, R320): the partner is withdrawn and the port's credits are cleared. -/
def execLldpNeighbourExpiry (p : PortId) (s : State) : Host.Outcome State Fault Refusal :=
  .next (match (s.pt p).nbr with
    | none => s
    | some nb =>
      if s.isEther p && decide (nb.until_.toNat ≤ s.ht.toNat) then
        (s.modPt p (fun x => { x with nbr := none })).portFail p
      else s)

/-- The PTP timescale value of a time in HT x 16, in tenths of ns (R318): HT_TAI_BASE + 0.8 x HT. -/
def State.ptpTime (s : State) (t : Nat) : Nat := 10 * (s.rg64 Reg.htTaiBaseLo).toNat + t / 2

/-- The PTP agent of port `p` has a Sync to send: every 2^-SYNC seconds (R318). -/
def State.syncDue (s : State) (p : PortId) : Bool :=
  s.curReady && s.isEndpoint p && (s.pt p).locked &&
  (match (s.pt p).ptpSent with
   | none => true
   | some t => decide (1250000000 / 2 ^ s.rf Reg.accPtp 8 4 ≤ s.ht.toNat - t.toNat))

/-- PTP_SYNC_TRANSMIT (R318): Announce with ACC_PTP.CLASS, Sync and Follow_Up on a locked endpoint port, when bit 5 of its gate
list is open. -/
def execPtpSyncTransmit (p : PortId) (s : State) : Host.Outcome State Fault Refusal :=
  .next (if s.curReady && s.isEndpoint p && (s.pt p).locked && s.isOpen p 5 then
    let q := (s.pt p).ptpSeq
    let s1 := s.modPt p (fun x => { x with ptpSeq := q + 1, ptpSent := some s.ht })
    (s1.sendPtp p (.ptpAnnounce p (s.rf Reg.accPtp 0 8) (s.rf Reg.accPtp 16 8))).sendPtp p
      (.ptpSync p (s.rf Reg.accPtp 0 8) q.toNat (s.ptpTime (s.ht.toNat * 16)))
    else s)

/-- The Delay_Resp messages of a port go out when bit 5 of its gate list is open (R326). -/
def State.sendDelayResps (s : State) (p : PortId) : State :=
  if (s.pt p).ptpWait.isEmpty || !s.isOpen p 5 then s
  else (s.pt p).ptpWait.foldl (fun t e => t.sendPtp p (.ptpDelayResp p e.1 e.2)) (s.modPt p (fun x => { x with ptpWait := [] }))

/-- PTP_MESSAGE_RECEIVE (R318): Delay_Req of the domain is answered with its receive time; Announce is ignored, and
peer delay and management are not supported. -/
def execPtpMessageReceive (p : PortId) (msg : PtpMsg) (s : State) : Host.Outcome State Fault Refusal :=
  .next (if s.curReady && s.isEndpoint p && (s.pt p).locked && msg.domain.toNat == s.rf Reg.accPtp 0 8 then
    match msg.kind with
    | .delayReq =>
      (s.modPt p (fun x => { x with ptpWait := x.ptpWait ++ [(msg.seq.toNat, s.ptpTime msg.rxTime.toNat)] })).sendDelayResps p
    | .announce => s
    | .peerDelay => s
    | .management => s
    | .other => s
    else s)

/-! ### Transmission (R326 to R330) -/

/-- Frames of the class move in the step state (R33). -/
def State.classMoves (s : State) (c : TClass) : Bool := c == 4 || s.stepState == 1 || s.stepState == 2

/-- The frame as it goes onto the lanes: on an endpoint port the pad rows are zeros (R314) and DST is 0. -/
def State.onLanes (s : State) (p : PortId) (w : Wire) : Wire :=
  if s.isFabric p then w
  else match w.th with
    | none => { w with dst := 0 }
    | some t =>
      let stride := 64 * elemSize t.code
      let a := stride * t.valid
      { w with
        dst := 0
        data := if t.hdrOnly then w.data else patch w.data a (zeros (min 4096 (stride * t.rows) - a)) }

/-- FRAME_TRANSMIT_START (R307, R325, R328): the oldest frame of the class that waits at the port; a diverted one leaves from
the next gate boundary (R323). -/
def execFrameTransmitStart (p : PortId) (c : TClass) (s : State) : Host.Outcome State Fault Refusal :=
  .next (match (s.pt p).egress.findIdx? (fun e => e.wire.tc == c) with
    | none => s
    | some i =>
      match (s.pt p).egress[i]? with
      | none => s
      | some e =>
        if s.classMoves c && (e.paid || s.linkCredit p e.wire) && s.pastBoundary p e.since && s.canStart p e.wire then
          let s1 := s.modPt p (fun x => { x with egress := x.egress.eraseIdx i })
          (if e.paid then s1 else s1.takeLink p e.wire).startFrame p (s.onLanes p e.wire)
        else s)

/-- The frame stands at the head of its landing order at its source station (R280). -/
def headOfLanding (l : List VoqFrame) (f : VoqFrame) : Bool :=
  match l.find? (fun g => g.tc == f.tc && g.dst == f.dst && g.land == f.land) with
  | some g => g.id == f.id
  | none => false

/-- SLOT_END (R329). -/
def execSlotEnd (p : PortId) (c : TClass) (s : State) : Host.Outcome State Fault Refusal :=
  .next (if !s.slotEnds p c.val then s
    else
      let slips (x : Stn) (f : VoqFrame) : Bool :=
        f.tc == c && f.land == .port p && !f.slipped && headOfLanding x.voq f
      let n := (allStns.map (fun k => ((s.st k).voq.filter (slips (s.st k))).length)).foldl (· + ·) 0
      let mark (x : Stn) : Stn :=
        { x with
          voq := x.voq.map (fun (f : VoqFrame) => if slips x f then { f with slipped := true } else f) }
      let s1 := { s with stn := s.stn.map mark }
      if n = 0 then s1 else (s1.addSat (Reg.prtSlip p.val c.val) n).addSat Reg.crsSlip n)

/-- One port's telemetry record (R330): HT, port, depths, sojourns. -/
def State.telRecord (s : State) (p : PortId) : List Word :=
  let fr (c : Nat) : List VoqFrame :=
    (allStns.map (fun n => (s.st n).voq.filter (fun f => f.tc.val == c && f.land == .port p))).flatten
  let soj (c : Nat) : Nat := (fr c).foldl (fun m f => max m (s.ht.toNat - f.entry.toNat)) 0
  [word s.ht.toNat, word (s.ht.toNat / 2 ^ 32), word p.val] ++
    (List.range 5).map (fun c => word (fr c).length) ++
    (List.range 5).map (fun c => word (min 0xFFFFFFFF (soj c))) ++ [0, 0, 0]

/-- A telemetry record goes to the ring, or is dropped (R330). The header's word 0 is the head index and word 1 the
tail index (log entry 32). -/
def State.telWrite (s : State) (ws : List Word) : State :=
  let a := (s.rg64 Reg.crsTelRingLo).toNat % 2 ^ 40
  let size := s.rf Reg.crsTelRingSize 0 24
  let h := s.curatorWord a
  let t := h.1.curatorWord (a + 4)
  let head := h.2.toNat
  if size ≤ (head + 2 ^ 32 - t.2.toNat) % 2 ^ 32 then t.1.inc Reg.crsTelDropped
  else
    let s1 := (t.1.dramWrite (a + 64 + head % size * 64) (wordsToBytes ws) .curator).1
    (s1.dramWrite a (toLE 4 (head + 1)) .curator).1

/-- TELEMETRY_SAMPLE (R330). -/
def execTelemetrySample (s : State) : Host.Outcome State Fault Refusal :=
  .next (
    let k := clamp 8 24 (s.rf Reg.crsTelCtrl 0 5)
    if s.rbit Reg.crsTelCtrl 5 && s.atMultiple (2 ^ k) then
      (allPorts.filter (fun p => s.rbit (Reg.prtTel p.val) 0)).foldl (fun t p => t.telWrite (s.telRecord p)) s
    else s)

end Sys2Proof.Machine
end

