-- ==== Sys2Proof/Machine/Crossing.lean ====
section
/-! DEFINITION. The Crossing (R276 to R294): landing credit, arbitration, transfers with the mirror, delivery with the
Tally taps, ageing and the lapse of reply reservations. -/

namespace Sys2Proof.Machine

open Sys2Proof

/-! ### Landing credit (R280 to R284, R289) -/

/-- The oldest frame of class `c` for a landing at a station, if it waits for landing credit. -/
def Stn.requester (x : Stn) (l : Landing) (c : TClass) : Option VoqFrame :=
  match x.voq.find? (fun f => f.tc == c && f.land == l) with
  | some f => if f.credit then none else some f
  | none => none

/-- The frame is marked as holding its landing credit: a block, and the link credit of ports. -/
def State.markCredit (s : State) (n : StnId) (f : VoqFrame) (blk : Option Nat) (paid : List PortId) : State :=
  s.modSt n (fun x => { x with
    voq := x.voq.map (fun g => if g.id = f.id then { g with credit := true, landBlk := blk, paid := paid } else g) })

/-- The block of a queue landing: the oldest reply reservation for TC_RSP, else one of the Cloakroom (R283, R289). A
header-only frame needs none. -/
def State.landBlock (s : State) (t : StnId) (f : VoqFrame) : Option (Option Nat × State) :=
  if f.wire.hdrOnly then some (none, s)
  else match (if f.tc = 1 then (s.st t).resv else []) with
    | (_, b) :: r => some (some b, s.modSt t (fun x => { x with resv := r }))
    | [] =>
      match s.allocTile t .landing f.id with
      | some (b, s1) => some (some b, s1)
      | none => none

/-- A queue landing's credit: an entry of the queue, which no other producer takes in this cycle (R75), and a block of the
Cloakroom. -/
def State.reserveQueue (s : State) (n t : StnId) (q : Fin 4) (f : VoqFrame) : State :=
  if s.offStation t then (s.dropFrame n f).noItin n
  else
    let i : Fin 8 := Fin.ofNat 8 q.val
    if (s.st t).st = .halted || !(s.st t).landMayPush s.ht i then s
    else match s.landBlock t f with
      | none => s.clkWait t .landing f.id 4352
      | some (b, s1) => (s1.modSt t (fun x => x.push i ⟨⟨f.wire.th.getD TH.zero, b⟩, .frame f.id⟩)).markCredit n f b []

/-- The ports whose link credit a landing takes: a port itself; of a group those whose link has not failed (R322). -/
def State.livePorts (s : State) (l : Landing) : List PortId :=
  match l with
  | .group m => (s.members m.val).filter (fun p => !s.linkFailed p)
  | .port p => [p]
  | _ => []

/-- The link credit of every port of a list is taken for a frame; none unless every one can be had (R284). -/
def State.takeLinks (s : State) (w : Wire) : List PortId → Option State
  | [] => some s
  | p :: r => if s.linkCredit p w && !s.portBad (s.orTwin p) then (s.takeLink p w).takeLinks w r else none

/-- A frame for the Curator takes a block of the pool that fits it, or waits for one as its port's Wicket (R296, R297). -/
def State.reserveCurator (s : State) (n : StnId) (f : VoqFrame) : State :=
  match s.alloc n .wicket (2 * f.id) f.wire.len with
  | some (_, b, s1) => s1.markCredit n f (some b) []
  | none => s.clkWait n .wicket (2 * f.id) f.wire.len

/-- The landing credit of a frame is reserved when it is free. -/
def State.reserve (s : State) (n : StnId) (f : VoqFrame) : State :=
  match f.land with
  | .queue t q => s.reserveQueue n t q f
  | .curator => s.reserveCurator n f
  | l =>
    match s.takeLinks f.wire (s.livePorts l) with
    | some s1 => s1.markCredit n f none (s.livePorts l)
    | none => s

/-- A landing as Table 11.2 names it: that of a port is in a class. -/
def landKey (l : Landing) (c : TClass) : Landing × Option TClass :=
  match l with
  | .port p => (.port p, some c)
  | k => (k, none)

/-- The sources of a list in turn, until one of them gets the landing's credit. -/
def State.reserveFirst (l : Landing) (c : TClass) : List Nat → State → State
  | [], s => s
  | n :: r, s =>
    match (s.st (stnId n)).requester l c with
    | none => State.reserveFirst l c r s
    | some f =>
      let s1 := s.reserve (stnId n) f
      if (s1.st (stnId n)).voq.any (fun g => g.id == f.id && g.credit) then
        { s1 with xbar := { s1.xbar with
            landSrc := (landKey l c, n) :: s1.xbar.landSrc.filter (fun e => !(e.1 == landKey l c)) } }
      else State.reserveFirst l c r s1

/-- LANDING_CREDIT_RESERVE (R282): of the sources that ask and whose credit is free, the one first after the source granted
last. -/
def execLandingCreditReserve (l : Landing) (c : TClass) (s : State) : Host.Outcome State Fault Refusal :=
  .next (
    let asks := (List.range 64).filter (fun n => ((s.st (stnId n)).requester l c).isSome)
    let last := ((s.xbar.landSrc.find? (fun e => e.1 == landKey l c)).map (fun e => e.2)).getD (noPointer 0)
    State.reserveFirst l c (asks.filter (fun n => decide (last < n)) ++ asks.filter (fun n => decide (n ≤ last))) s)

/-! ### Arbitration (R276, R277, R288) -/

/-- Ticks for which a frame occupies its input and its output. -/
def Wire.xticks (w : Wire) : Nat := cdiv w.len 240

/-- The quarter of a station (R43). -/
def quarter (n : StnId) : Nat := n.val / 16

/-- A station's Crossing input is free. -/
def State.inputFree (s : State) (n : StnId) : Bool := s.xbar.xfers.all (fun x => x.src != n || decide (x.until_ < s.cycle))

/-- A station's Crossing output is free; the Curator has no station's output. -/
def State.outputFree (s : State) (t : StnId) : Bool :=
  s.xbar.xfers.all (fun x => x.fr.dst != t || x.fr.land == .curator || decide (x.until_ < s.cycle))

/-- Transfers at once on the die-to-die link between two quarters. -/
def State.linkLoad (s : State) (a b : Nat) : Nat :=
  (s.xbar.xfers.filter (fun x => quarter x.src == a && quarter x.fr.dst == b && decide (s.cycle ≤ x.until_))).length

/-- Ticks from a grant to the landing of the first bytes (Table 11.1). -/
def xlatency (n t : StnId) : Nat := if quarter n = quarter t then 10 else 22

/-- The cycle from which port `p` is free for a further frame: after the one on its lanes, and after those that wait at the
port or are crossing to it. -/
def State.freeFrom (s : State) (p : PortId) : Nat :=
  ((s.pt p).egress.map (fun e => e.wire) ++
    (s.xbar.xfers.filter (fun x => x.fr.land == .port p && !x.out)).map (fun x => x.fr.wire)).foldl
    (fun t w => max t s.cycle + s.timeCharge p w) (s.pt p).txUntil

/-- The Wicket of port `p` draws a frame whose first bytes arrive in `d` ticks, in the tick in which it may start it (R328). -/
def State.draws (s : State) (p : PortId) (f : VoqFrame) (d : Nat) : Bool :=
  s.mayStartIn p f.wire d && decide (s.freeFrom p ≤ s.cycle + d) && s.pastBoundary p f.since

/-- A cut has frozen the station and no fault has been found since (R113). -/
def State.settles (s : State) (n : StnId) : Bool := s.rbit (Reg.stnCutStat n.val) 0 && !s.rbit (Reg.stnCutStat n.val) 2

/-- A frame is ready: its credit is held, its class moves, the ports that it goes to draw it (R288, R328), and its words in
the ingress region can be read, or the station has not faulted on them yet, which a station frozen by a cut does too (R352,
R113). -/
def State.ready (s : State) (n : StnId) (f : VoqFrame) : Bool :=
  let x := s.st n
  let d := xlatency n f.dst
  f.credit && s.classMoves f.tc && headOfLanding x.voq f &&
  !(decide (x.st = .halted) && !s.settles n && x.ingLost f.hold (32 + f.wire.data.length)) &&
  (match f.land with
   | .port p => s.draws (s.orTwin p) f d
   | .group m => (s.livePorts (.group m)).all (fun p => s.draws (s.orTwin p) f d)
   | _ => true)

/-- The ready frames of free inputs for an output, with their sources. A Curator landing has no output. -/
def State.readyFor (s : State) (t : StnId) : List (Nat × VoqFrame) :=
  (allStns.filter s.inputFree).flatMap (fun n =>
    ((s.st n).voq.filter (fun f => f.dst == t && !(f.land == .curator) && s.ready n f)).map (fun f => (n.val, f)))

/-- The weight of a class (Table 11.9). -/
def State.weight (s : State) (c : Nat) : Nat := max 1 (s.rf Reg.crsXctrl (4 * c) 4)

/-- The turn of an output before its first grant. -/
def noTurn (_ : Nat) : Nat × Nat := (0, 0)

/-- The class that an output serves: TC_MGT first, else by weighted round robin; with the turn if it is accepted. -/
def State.chooseClass (s : State) (turn : Nat × Nat) (has : Nat → Bool) : Option (Nat × (Nat × Nat)) :=
  if has 4 then some (4, turn)
  else
    let opts := (List.range 5).filterMap (fun k =>
      let c := (turn.1 + k) % 4
      let used := if k = 0 then turn.2 else 0
      if has c && decide (used < s.weight c) then some (c, (c, used + 1)) else none)
    opts.head?

/-- An output's choice: source, frame, the output's turn if accepted. -/
structure Choice where
  out  : StnId
  src  : Nat
  fr   : VoqFrame
  turn : Nat × Nat
  deriving DecidableEq, Repr

/-- The choice of one output (R288, 1). -/
def State.choose (s : State) (t : StnId) : Option Choice :=
  let l := s.readyFor t
  if !s.outputFree t then none
  else match s.chooseClass (Cells.get noTurn s.xbar.outTurn t.val) (fun c => l.any (fun e => e.2.tc.val == c)) with
    | none => none
    | some (c, turn) =>
      let m := l.filter (fun e => e.2.tc.val == c)
      match firstAfter (Cells.get noPointer s.xbar.outSrc t.val) (m.map (fun e => e.1)) with
      | none => none
      | some n => (m.find? (fun e => e.1 == n)).map (fun e => ⟨t, n, e.2, turn⟩)

/-- The choices that inputs accept (R288, 2). -/
def State.accepted (s : State) (l : List Choice) : List Choice :=
  l.filter (fun c =>
    firstAfter (Cells.get noPointer s.xbar.inOut c.src) ((l.filter (fun d => d.src == c.src)).map (fun d => d.out.val)) ==
      some c.out.val)

/-! ### The mirror (R294) -/

/-- A landing's kind and index in a mirror header (Table 11.4). -/
def landCode : Landing → Nat × Nat
  | .queue _ q => (0, q.val)
  | .port p => (1, p.val)
  | .group m => (2, m.val)
  | .curator => (3, 0)

/-- The bytes of a tile frame. -/
def Wire.frameBytes (w : Wire) : List Byte := (match w.th with | some t => t.bytes | none => []) ++ w.data

/-- A mirror copy is dropped (CRS-02). -/
def State.mirrorDrop (s : State) : State :=
  ({ s with cur := { s.cur with mirDrops := s.cur.mirDrops + 1 } }.inc Reg.crsMirDropped |>.xstatus 1).raiseOnce
    ⟨.crs, 2⟩ uDevice 0 []

/-- The frame is selected for mirroring. -/
def State.mirrored (s : State) (n : StnId) (f : VoqFrame) : Bool :=
  let c := s.rg Reg.crsMirCtrl
  match f.wire.th with
  | none => false
  | some t =>
    let k := (t.step.toNat % 2 ^ 14) * 2 ^ 50 + n.val * 2 ^ 44 + t.itin * 2 ^ 32 + t.seq.toNat
    bitOf c 11 && bitOf c (6 + f.tc.val) && s.rbit (if n.val < 32 then Reg.crsMirStnLo else Reg.crsMirStnHi) (n.val % 32) &&
      (sampleGen (s.rg64 Reg.crsMirSeedLo) (dword k)).toNat % 2 ^ (min 20 (fld c 0 5)) == 0

/-- The ring has room for one more copy beside those that wait for their blocks. -/
def State.mirrorRoom (s : State) : Bool := decide (s.cur.mirrors.length + s.cur.mirWait.length < Config.mirrorRing)

/-- A block of the pool that serves `size` bytes stands free at a station. -/
def Stn.anyFree (x : Stn) (size : Nat) : Bool := ((x.lay.fitPool size).bind x.lowestFree).isSome

/-- A copy enters the ring with the number of those dropped before it; its block `b` of pool `i` is held until the end of the
tick, when the Curator has taken it (log entry 127). -/
def State.mirrorPut (s : State) (n : StnId) (i b : Nat) (m : Mirror) : State :=
  let v : Mirror := { m with words := m.words.set 4 (word (min 0xFFFFFFFF s.cur.mirDrops)) }
  { s with cur := { s.cur with mirrors := s.cur.mirrors ++ [v], mirDrops := 0, staged := (n, i, b) :: s.cur.staged } }.inc
    Reg.crsMirCopied

/-- A copy takes its 1 KiB block of the source station's Cloakroom: it is dropped where none is free, and waits while the pool
serves others first (R294, R297). -/
def State.mirrorStage (s : State) (n : StnId) (key : Nat) (m : Mirror) : State :=
  if !(s.st n).anyFree 1024 then s.mirrorDrop
  else match s.alloc n .curator key 1024 with
  | some (i, b, s1) => s1.mirrorPut n i b m
  | none => ({ s with cur := { s.cur with mirWait := s.cur.mirWait ++ [(n, key, m)] } }).clkWait n .curator key 1024

/-- The copy of a frame granted at station `n` (Table 11.4). -/
def State.mirrorOf (s : State) (n : StnId) (f : VoqFrame) : Mirror :=
  let len := if s.rbit Reg.crsMirCtrl 5 then 256 else 128
  let b := f.wire.frameBytes
  let k := landCode f.land
  { words := [word s.ht.toNat, word (s.ht.toNat / 2 ^ 32),
      word (n.val + f.dst.val * 2 ^ 8 + f.tc.val * 2 ^ 16 + k.1 * 2 ^ 20 + k.2 * 2 ^ 24),
      word (b.length % 2 ^ 13 + b2n (decide (len < b.length)) * 2 ^ 16), 0] ++ List.replicate 11 0
    bytes := fit len b }

/-- A frame granted at station `n` is mirrored when it is selected. -/
def State.mirror (s : State) (n : StnId) (f : VoqFrame) : State :=
  if !s.mirrored n f then s
  else if !s.mirrorRoom then s.mirrorDrop
  else s.mirrorStage n (f.id + 1) (s.mirrorOf n f)

/-- The copies that wait ask again. -/
def State.mirrorRetry (s : State) : State :=
  s.cur.mirWait.foldl (fun t e => t.mirrorStage e.1 e.2.1 e.2.2) { s with cur := { s.cur with mirWait := [] } }

/-- The blocks of the copies that the Curator has taken are freed. -/
def State.mirrorsTaken (s : State) : State :=
  s.cur.staged.foldl (fun t e => t.modSt e.1 (fun x => x.freeBlk e.2.1 e.2.2)) { s with cur := { s.cur with staged := [] } }

/-! ### The grant -/

/-- The transfer of a frame starts in the next tick. -/
def State.transfer (s : State) (n : StnId) (f : VoqFrame) : State :=
  let dur := f.wire.xticks
  let x : Xfer := ⟨n, f, s.cycle + dur, s.cycle + xlatency n f.dst + dur - 1, false⟩
  let s1 := s.modSt n (fun y => { y with voq := y.voq.filter (fun g => !(g.id = f.id)) })
  ({ s1 with xbar := { s1.xbar with xfers := s1.xbar.xfers ++ [x] } }).mirror n f

/-- An accepted grant: the transfer starts, and the pointers move; a ninth transfer on a die-to-die link is not made (R277).
A frame whose words in the ingress region cannot be read halts its station and stays (R352). -/
def State.grant (s : State) (c : Choice) : State :=
  let n := stnId c.src
  if quarter n != quarter c.out && decide (8 ≤ s.linkLoad (quarter n) (quarter c.out)) then s
  else
    let r := s.readHold n c.fr.hold (32 + c.fr.wire.data.length)
    if !r.2 then r.1.halt n ⟨.mem, 2⟩ none
    else
      let s1 := r.1.transfer n c.fr
      { s1 with xbar := { s1.xbar with
        outTurn := Cells.set noTurn s1.xbar.outTurn c.out.val c.turn
        outSrc := Cells.set noPointer s1.xbar.outSrc c.out.val c.src
        inOut := Cells.set noPointer s1.xbar.inOut c.src c.out.val } }

/-- A Curator landing takes the ready frame of a free input, and needs no station's output: no pointer moves. -/
def State.ringGrant (s : State) (n : StnId) : State :=
  if !s.inputFree n then s
  else match (s.st n).voq.find? (fun f => f.land == .curator && s.ready n f) with
    | none => s
    | some f =>
      let r := s.readHold n f.hold (32 + f.wire.data.length)
      if r.2 then r.1.transfer n f else r.1.halt n ⟨.mem, 2⟩ none

/-- CROSSING_GRANT (R288): one pass of the matching. -/
def execCrossingGrant (s : State) : Host.Outcome State Fault Refusal :=
  .next (allStns.foldl State.ringGrant ((s.accepted (allStns.filterMap s.choose)).foldl State.grant s))

/-! ### Delivery (R63, R195, R284, R322, R379) -/

/-- The frame stands at the hop of its itinerary that its header names: it goes to that hop's kind and place. -/
def State.atHop (s : State) (f : VoqFrame) (t : TH) : Bool :=
  let w := s.hopWord t.itin t.hop
  !f.aside && (match f.land with
    | .queue n q => hopKind w == 1 && hopTarget w % 64 == n.val && hopQueue w == q
    | .port _ => hopKind w == 2
    | .group m => hopKind w == 3 && hopTarget w == m.val
    | .curator => false)

/-- A tap selects the tile (Table 7.10, R195). -/
def State.tapped (s : State) (t : TH) (i : Nat) : Bool :=
  let w := s.rg (Reg.crsTalTap i)
  let k := (t.step.toNat % 2 ^ 16) * 2 ^ 48 + t.itin * 2 ^ 36 + t.seq.toNat
  (fld w 21 2 == 1 || fld w 21 2 == 2) && fld w 0 12 == t.itin && fld w 12 4 == t.hop &&
    (sampleGen (s.rg64 Reg.crsTalSeedLo) (dword k)).toNat % 2 ^ (min 20 (fld w 16 5)) == 0

/-- One Tally copy takes its block and enters the VOQ of the source station for the Tally station. It is discarded where the
station has no descriptor or no free block, and waits while the pool serves others first (R196, R297). -/
def State.tallyStage (s : State) (n : StnId) (key : Nat) (t : TH) (data : List Byte) : State :=
  if 4096 ≤ s.descriptors n ∨ !(s.st n).anyFree 4352 then s.inc Reg.crsTalDropped
  else match s.allocTile n .landing key with
  | some (b, s1) =>
    s1.enterVoqAs n 4 s.tallyStn (.queue s.tallyStn (Fin.ofNat 4 (s.rf Reg.crsTalCtrl 5 2)))
      ⟨4, 0, false, s.rank, .none, some t, data⟩ (.vitrine b) false true false
  | none => ({ s with xbar := { s.xbar with taps := s.xbar.taps ++ [(n, key, t, data)] } }).clkWait n .landing key 4352

/-- A Tally copy of a tile, under a number of its own. -/
def State.tallyCopy (s : State) (n : StnId) (t : TH) (data : List Byte) : State :=
  ({ s with xbar := { s.xbar with nextId := s.xbar.nextId + 1 } }).tallyStage n s.xbar.nextId t data

/-- The Tally copies that wait ask again. -/
def State.tallyRetry (s : State) : State :=
  s.xbar.taps.foldl (fun u e => u.tallyStage e.1 e.2.1 e.2.2.1 e.2.2.2) { s with xbar := { s.xbar with taps := [] } }

/-- The copies that the taps take of a delivered tile. -/
def State.taps (s : State) (n : StnId) (f : VoqFrame) : State :=
  match f.wire.th with
  | none => s
  | some t =>
    if !(s.rbit Reg.crsTalCtrl 0 && !t.hdrOnly && s.atHop f t) then s
    else (List.range 16).foldl (fun u i => if u.tapped t i then u.tallyCopy n t f.wire.data else u) s

/-- A tile lands in the queue entry and block reserved for it. -/
def State.landQueue (s : State) (t : StnId) (q : Fin 4) (f : VoqFrame) : State :=
  let i : Fin 8 := Fin.ofNat 8 q.val
  if !((s.st t).q[i.val]).any (fun e => e.fill == .frame f.id) then s
  else
  let s1 := match f.landBlk with | some b => s.putBlk t b f.wire.data | none => s
  let s2 := s1.modSt t (fun x => { x with
    q := x.q.set i.val (x.q[i.val].map (fun e =>
      if e.fill = .frame f.id then ⟨⟨f.wire.th.getD TH.zero, f.landBlk⟩, .ready⟩ else e)) })
  if f.aside && f.tc == 4 then s2.inc Reg.crsTalSampled else s2

/-- The frame as a port sends it: an empty-bucket notice becomes its bucket header (R169), a sitting tile or notice goes with
its sitting header (R215). -/
def State.asSent (s : State) (p : PortId) (w : Wire) : State × Wire :=
  match w.th with
  | none => (s, w)
  | some t =>
    if t.isNotice then
      match s.notices.find? (fun x => x.1 = (t.step, t.tag.toNat % 2 ^ 20)) with
      | some (_, h) => (s, { w with xh := .bh h, th := none, data := [] })
      | none => (s, w)
    else if t.tagKind = 2 ∧ w.xh = .none then s.withSh p w t
    else (s, w)

/-- One copy of a multicast frame: at the member port, or at its twin once that carries its traffic (R308), and a unicast
escape frame where the link has failed (R322). -/
def State.landCopy (s : State) (p : PortId) (w : Wire) : State :=
  let z := if s.isFabric p then s.partnerRank p else 0
  let r := s.asSent p { w with dst := z }
  if !s.linkFailed p then r.1.toEgress (r.1.orTwin p) { r.2 with mc := true, dst := z } true false
  else if s.isFabric p then r.1.sendToDevice { r.2 with mc := false, dst := z, esc := 0 } w.key
  else s

/-- The copies of a multicast frame, one for each member port. -/
def State.landGroup (s : State) (m : Fin 128) (w : Wire) : State := (s.members m.val).foldl (fun t p => t.landCopy p w) s

/-- A frame enters the Curator's receive ring of 512 frames (R379). -/
def State.landCurator (s : State) (w : Wire) : State :=
  if s.cur.rx.length < 512 then { s with cur := { s.cur with rx := s.cur.rx ++ [w] } } else s.inc Reg.curRxDrop

/-- A frame goes on to its port, or where one goes that a failed port leaves (R308, R323): one in transit as it came, one of
this device as the port sends it. -/
def State.landAtPort (s : State) (p : PortId) (f : VoqFrame) : State :=
  let r := if f.aside then (s, f.wire) else s.asSent p f.wire
  r.1.landPort p r.2 false

/-- The end of a transfer: what the frame held at its source is given back (R293). -/
def State.endXfer (s : State) (x : Xfer) : State :=
  ({ s with xbar := { s.xbar with xfers := s.xbar.xfers.filter (fun y => !(y.fr.id = x.fr.id)) } }).releaseHold x.src x.fr.hold

/-- The frame of a transfer lands where its landing is. -/
def State.landFrame (s : State) (x : Xfer) : State :=
  let s1 := s.taps x.src x.fr
  match x.fr.land with
  | .queue t q => s1.landQueue t q x.fr
  | .port p => s1.landAtPort p x.fr
  | .group m => s1.landGroup m x.fr.wire
  | .curator => (s1.landCurator x.fr.wire).modSt x.fr.dst (fun y => y.freeCurator x.fr)

/-- A crossed frame lands; the transfer ends in the tick after its last bytes have crossed (R277, R293). -/
def State.deliver (s : State) (x : Xfer) : State :=
  let s1 := s.landFrame x
  if x.lands < s.cycle then s1.endXfer x
  else { s1 with xbar := { s1.xbar with
      xfers := s1.xbar.xfers.map (fun y => if y.fr.id = x.fr.id then { y with out := true } else y) } }

/-- The tick from which a transfer can be delivered: a frame for a port at its first bytes, any other at its last. -/
def Xfer.due (x : Xfer) : Nat :=
  match x.fr.land with
  | .port _ | .group _ => x.lands + 1 - x.fr.wire.xticks
  | _ => x.lands

/-- CROSSING_DELIVERY (R63): the oldest transfer to station `t` whose bytes have landed. -/
def execCrossingDelivery (t : StnId) (s : State) : Host.Outcome State Fault Refusal :=
  .next (match s.xbar.xfers.find? (fun x => x.fr.dst == t && !x.out && decide (x.due ≤ s.cycle)) with
    | none => s
    | some x => s.deliver x)

/-- Transfers that have been delivered end in the tick after their last bytes (R293). -/
def State.endXfers (s : State) : State :=
  (s.xbar.xfers.filter (fun x => x.out && decide (x.lands < s.cycle))).foldl State.endXfer s

/-! ### Ageing and lapses (R286, R287, R289) -/

/-- The ageing limit in ticks (R287). -/
def State.ageLimit (s : State) : Nat := clamp 1250 81250000 (s.rf Reg.crsAgeLimit 0 27)

/-- A frame of a class that was aged is counted, and CRS-01 raised once for the class in the step. -/
def State.agedOne (s : State) (c : TClass) : State :=
  ((s.inc (Reg.crsAged c.val)).xstatus 0).raiseOnce ⟨.crs, 1⟩ uDevice c.val []

/-- One frame is aged. -/
def State.age (s : State) (n : StnId) (f : VoqFrame) : State := (s.dropFrame n f).agedOne f.tc

/-- A frame that waits at a port for its start has waited too long; its wait counts from when it came there (log entry 137). -/
def State.tooOld (s : State) (e : Egress) : Bool := decide (s.ageLimit < s.ht.toNat - e.entry.toNat)

/-- The frames that wait at a port are aged as those of a VOQ: link credit that one holds is given back. -/
def State.agePort (s : State) (p : PortId) : State :=
  ((s.pt p).egress.filter s.tooOld).foldl (fun t e => (if e.paid then t.giveLink p e.wire else t).agedOne e.wire.tc)
    (s.modPt p (fun x => { x with egress := x.egress.filter (fun e => !s.tooOld e) }))

/-- AGEING_SWEEP (R286). -/
def execAgeingSweep (s : State) : Host.Outcome State Fault Refusal :=
  .next (if s.atMultiple 4096 then
    allPorts.foldl State.agePort (allStns.foldl (fun t n =>
      ((t.st n).voq.filter (fun f => decide (s.ageLimit < s.ht.toNat - f.entry.toNat))).foldl (fun u f => u.age n f) t) s)
    else s)

/-- REPLY_RESERVATION_LAPSE (R289): the oldest reservation of a station, past twice the ageing limit. -/
def execReplyReservationLapse (n : StnId) (s : State) : Host.Outcome State Fault Refusal :=
  .next (match (s.st n).resv with
    | [] => s
    | (t, b) :: r =>
      if 2 * s.ageLimit ≤ s.ht.toNat - t.toNat then
        (((((s.modSt n (fun x => { x with resv := r })).freeTile n (some b)).inc Reg.crsLapsed).xstatus 2).raise
          ⟨.crs, 3⟩ uDevice [])
      else s)

end Sys2Proof.Machine
end

