-- ==== Sys2Proof/Machine/Phlox.lean ====
section
/-! DEFINITION. Phlox's records, key orders, ops and predicate programs (R259 to R265). -/

namespace Sys2Proof.Machine

open Sys2Proof

/-! ### Record tiles (R259) -/

/-- NREC of the TAG word. -/
def TH.nrec (t : TH) : Nat := fld t.tag 0 10
/-- RSZ of the TAG word. -/
def TH.rsz (t : TH) : Nat := fld t.tag 10 3
/-- RB: the bytes of a record. -/
def recSize (rsz : Nat) : Nat := 8 * 2 ^ rsz

/-- The header of a record tile with a defined RSZ and an NREC within its capacity (R259, R263). -/
def TH.isRecords (t : TH) : Bool :=
  !t.hdrOnly && t.fmt == 9 && t.sblk == 0 && t.rows == 16 && t.cols == 64 && t.valid == 16 && t.tscale == 0x7F &&
  t.tagKind == 3 && decide (t.rsz ≤ 4) && decide (t.nrec ≤ 4096 / recSize t.rsz)

/-- The header with NREC set. -/
def TH.setNrec (t : TH) (n : Nat) : TH := { t with w4 := setFld t.w4 0 10 n }

/-- The key width of a key type (Table 10.2). -/
def keyWidth (kt : Nat) : Nat := if kt < 3 then 4 else 8

/-- `n` records of `rb` bytes. -/
def recordsOf (rb : Nat) : Nat → List Byte → List (List Byte)
  | 0, _ => []
  | n + 1, bs => bs.take rb :: recordsOf rb n (bs.drop rb)

/-- The records of a tile. -/
def TH.records (t : TH) (body : List Byte) : List (List Byte) := recordsOf (recSize t.rsz) t.nrec body

/-- A record as Phlox writes it: bytes beyond the key of `w` bytes and a payload of 64 are padding, written 0. -/
def cleanRec (w : Nat) (r : List Byte) : List Byte := fit r.length (r.take (w + 64))

/-- The payload that holds records. -/
def recordPayload (w : Nat) (l : List (List Byte)) : List Byte := fit 4096 (l.flatMap (cleanRec w))

/-! ### Key orders (R260) -/

/-- The unsigned number whose order is the order of a float's encoding of `n` bits with `mb` mantissa bits; every NaN
maps beyond +∞ to one value. -/
def floatRank (n mb b : Nat) : Nat :=
  let mag := b % 2 ^ (n - 1)
  let inf := (2 ^ (n - 1 - mb) - 1) * 2 ^ mb
  if inf < mag then 2 ^ n else if b / 2 ^ (n - 1) % 2 = 1 then 2 ^ n - 1 - b else b + 2 ^ (n - 1)

/-- The rank of a raw field under a type (Table 10.2). -/
def keyRank (kt b : Nat) : Nat :=
  match kt with
  | 0 | 3 => b
  | 1 => (b + 2 ^ 31) % 2 ^ 32
  | 2 => floatRank 32 23 b
  | 4 => (b + 2 ^ 63) % 2 ^ 64
  | _ => floatRank 64 52 b

/-- The rank of a record's key. -/
def recRank (kt : Nat) (r : List Byte) : Nat := keyRank kt (ofLE (r.take (keyWidth kt)))

/-! ### sort and merge (R261) -/

/-- A record put before the first of higher rank: an earlier record stays ahead of later equals. -/
def insertRec (kt : Nat) (r : List Byte) : List (List Byte) → List (List Byte)
  | [] => [r]
  | q :: l => if recRank kt r ≤ recRank kt q then r :: q :: l else q :: insertRec kt r l

/-- The stable sort. -/
def sortRecs (kt : Nat) (l : List (List Byte)) : List (List Byte) := l.foldr (insertRec kt) []

/-- The two-way merge, `k` records long: TB's head goes first only when it ranks below TA's. -/
def mergeRecs (kt : Nat) : Nat → List (List Byte) → List (List Byte) → List (List Byte)
  | 0, _, _ => []
  | _ + 1, [], b => b
  | _ + 1, a, [] => a
  | k + 1, x :: a, y :: b =>
    if recRank kt y < recRank kt x then y :: mergeRecs kt k (x :: a) b else x :: mergeRecs kt k a (y :: b)

/-- ⌈log2 n⌉ for n ≥ 2. -/
def ceilLog2 (n : Nat) : Nat := if 2 ^ Nat.log2 n = n then Nat.log2 n else Nat.log2 n + 1

/-- Occupancy of sort (Table 10.3). -/
def sortOcc (n : Nat) : Nat := max 1 (cdiv n 4 * ceilLog2 (max n 2))

/-! ### Predicate programs (R264, R265) -/

/-- A predicate term. -/
structure Term where
  op   : Nat
  type : Nat
  off  : Nat
  or   : Bool
  last : Bool
  resv : Bool
  c    : Nat
  deriving DecidableEq, Repr

/-- A term of 16 bytes (Table 10.4). -/
def Term.ofBytes (bs : List Byte) : Term :=
  let w := word (leAt bs 0 4)
  { op := fld w 0 3, type := fld w 3 3, off := fld w 6 7, or := bitOf w 13, last := bitOf w 14,
    resv := fld w 15 17 != 0 || leAt bs 4 4 != 0, c := leAt bs 8 8 }

/-- The terms of a program up to and including the last one; none when no term is the last. -/
def termsOf : Nat → List Byte → Option (List Term)
  | 0, _ => none
  | n + 1, bs =>
    let t := Term.ofBytes bs
    if t.last then some [t] else (termsOf n (bs.drop 16)).map (fun l => t :: l)

/-- A term breaks no rule of R265 for records of `rb` bytes. -/
def Term.ok (t : Term) (rb : Nat) : Bool :=
  let w := keyWidth t.type
  t.op != 7 && decide (t.type < 6) && !t.resv && t.off % w == 0 && decide (t.off + w ≤ min rb 72) &&
  (w == 8 || decide (t.c < 2 ^ 32))

/-- A term holds for a record. -/
def Term.holds (t : Term) (r : List Byte) : Bool :=
  let f := leAt r t.off (keyWidth t.type)
  let a := keyRank t.type f
  let b := keyRank t.type t.c
  match t.op with
  | 0 => a == b
  | 1 => a != b
  | 2 => decide (a < b)
  | 3 => decide (a ≤ b)
  | 4 => decide (b < a)
  | 5 => decide (b ≤ a)
  | _ => f &&& t.c != 0

/-- A record satisfies the terms: every term of some clause holds. `cur` is the clause so far. -/
def holdsClauses (r : List Byte) : Bool → List Term → Bool
  | cur, [] => cur
  | cur, t :: l => if t.or then cur || holdsClauses r (t.holds r) l else holdsClauses r (cur && t.holds r) l

/-- A record satisfies a program; OR of term 0 is ignored. -/
def satisfies (r : List Byte) : List Term → Bool
  | [] => false
  | t :: l => holdsClauses r (t.holds r) l

/-- The terms of a well-formed program of 128 bytes; none when it is malformed. -/
def program (rb : Nat) (bs : List Byte) : Option (List Term) :=
  match termsOf 8 bs with
  | some l => if l.all (fun t => t.ok rb) then some l else none
  | none => none

end Sys2Proof.Machine
end

