-- ==== Sys2Proof/Machine/XOps.lean ====
section
/-! DEFINITION. What each op of a bundle computes in its issue cycle (R96, Tables 3.4 to 3.9, R60, R238 to R240). -/

namespace Sys2Proof.Machine

open Sys2Proof

/-! ### What an op does -/

/-- Why an op does not issue: its code, the header named in STN_HALT, the trap's register, kind and cause, and for an
SPA code the element (row, column, word). -/
structure Stop where
  code  : Code
  th    : Option TH
  reg   : Nat
  kind  : Nat
  cause : Nat
  spa   : Option (Nat × Nat × Word)
  deriving DecidableEq, Repr

/-- An operand rule fails (R59): STN-02. -/
def Stop.rule (th : Option TH) : Stop := ⟨⟨.stn, 2⟩, th, 0, 0, 0, none⟩

/-- A result to land: what it does, its flags, the header it names, record counts. -/
structure Landing1 where
  res   : Result
  flags : Flags
  th    : TH
  recs  : Nat
  kept  : Nat
  deriving DecidableEq, Repr

/-- What an issued op does: its occupancy and latency, its result, and the accumulators as issued (R96). -/
structure XDone where
  occ  : Nat
  lat  : Nat
  res  : Option Landing1
  acc  : Option (Fin 4 × Acc)
  ea   : Option (Fin 4 × List EaCol)
  deriving DecidableEq, Repr

/-- An op that only takes a result. -/
def XDone.of (occ lat : Nat) (r : Result) (fl : Flags) (th : TH) : XDone := ⟨occ, lat, some ⟨r, fl, th, 0, 0⟩, none, none⟩

/-- A payload operand: a T register that is neither empty nor header-only (R93). -/
def Stn.payload (x : Stn) (d : Fin 16) : Option (TH × List Byte) :=
  match x.xs.t[d.val] with
  | some t => if t.th.hdrOnly then none else some (t.th, x.body t)
  | none => none

/-- The header of a T register's frame. -/
def Stn.thOf (x : Stn) (d : Fin 16) : Option TH := (x.xs.t[d.val]).map (fun t => t.th)

/-- The header of a result tile (R60). -/
def TH.result (first : TH) (fmt sblk tscale : Nat) (nf fz : Bool) : TH :=
  (((({ first with w0 := TH.shape fmt sblk first.rows first.cols first.valid }).setTscale tscale).setNf nf).setFz fz).clean

/-- The header of dout's and xout's result: every field the op does not state is 0. -/
def TH.made (fmt sblk rows : Nat) (nf fz : Bool) : TH :=
  ((({ TH.zero with w0 := TH.shape fmt sblk rows 64 rows }).setTscale 0x7F).setNf nf).setFz fz

/-- Equal ROWS, COLS and VALID_ROWS (R59). -/
def TH.sameShape (a b : TH) : Bool := a.rows == b.rows && a.cols == b.cols && a.valid == b.valid

/-- An FP32 register as an operand, flushed under FTZ. -/
def x32 (ftz : Bool) (w : Word) : Val × Flags := plainOperand ⟨8, 23, 0x7F7FFFFF, true, 0x7FC00000⟩ ftz w.toNat

/-- The FZ flag is among the flags. -/
def hasFz (f : Flags) : Bool := f &&& fFZ != 0

/-- A tile result of an elementwise op. -/
def tileDone (occ lat : Nat) (td : Fin 16) (blk : Nat) (first : TH) (ops : List TH) (c : Nat) (m : Made) : XDone :=
  let th := first.result c 0 0x7F (ops.any TH.nf || m.nf) (ops.any TH.fz || hasFz m.flags)
  XDone.of occ lat (.tile td th blk (payloadOf c m.elems) none) m.flags th

/-! #### Dahlia -/

/-- The operand formats of dmm are of one kind: 0 FP8, 1 INT8, 2 BF16 or FP16. -/
def dmmKind (a b : TH) : Option Nat :=
  if (a.code = 3 ∨ a.code = 4) ∧ (b.code = 3 ∨ b.code = 4) then some 0
  else if a.code = 7 ∧ b.code = 7 then some 1
  else if (a.fmt = 1 ∧ b.fmt = 1) ∨ (a.fmt = 2 ∧ b.fmt = 2) then some 2
  else none

/-- An operand that needs a wide station (R45). -/
def TH.needsWide (t : TH) : Bool := t.code == 1 || t.code == 2

/-- The accumulator mode that two operands call for (R130). -/
def accMode (a b : TH) : AccMode :=
  if a.fmt = 7 ∧ b.fmt = 7 ∧ a.tscale = 0x7F ∧ b.tscale = 0x7F then .int32 else .fp32

/-- Occupancy of a dense dmm (Table 3.10). -/
def dmmOcc (kind ra rb : Nat) : Nat := max 1 (cdiv (ra * rb) (if kind = 2 then 128 else 256))

/-- The rows of a tile's operands, each cut to COLS. -/
def TH.rowsOf (t : TH) (l : List (Val × Flags)) : List (List (Val × Flags)) :=
  (blocksOf 64 t.rows l).map (fun r => r.take t.cols)

/-- One accumulator element after an op: products at dense positions, none where there is no product. -/
def dotStep (mode : AccMode) (ftz : Bool) (acc : Word) (ps : List (Option (Val × Flags))) : Word × Flags :=
  match mode with
  | .int32 => dotInt acc (ps.filterMap id)
  | _ => ((blocksOf 32 (cdiv ps.length 32) ps).map (fun g => groupSum (g.filterMap id))).foldl (accStep ftz) (acc, 0)

/-- An accumulator after dmm or dmms: `pa` gives row i of A at every dense position. -/
def accAfter (a : Acc) (mode : AccMode) (ftz : Bool) (pa : List (List (Option (Val × Flags))))
    (pb : List (List (Val × Flags))) : Acc × Flags :=
  pa.zipIdx.foldl (fun st ra =>
    pb.zipIdx.foldl (fun st2 rb =>
      let ps := List.zipWith (fun p q => p.map (fun v => product v.1 q.1)) ra.1 rb.1
      let k := 64 * ra.2 + rb.2
      let r := dotStep mode ftz (Cells.get zeroWord st2.1.v k) ps
      (⟨mode, Cells.set zeroWord st2.1.v k r.1⟩, st2.2 ||| r.2)) st) (⟨mode, a.v⟩, 0)

/-- Flags of the operands that an op reads. -/
def readFlags (l : List (Val × Flags)) : Flags := l.foldl (fun f p => f ||| p.2) 0

/-- The common checks of dmm and dmms (Table 3.4, R45, R130); answers the kind. -/
def dmmCheck (wide : Bool) (a : Acc) (ta tb : TH) : Except Stop Nat :=
  if !wide && (ta.needsWide || tb.needsWide) then .error ⟨⟨.stn, 3⟩, some ta, 0, 0, 0, none⟩
  else match dmmKind ta tb with
    | none => .error (Stop.rule (some ta))
    | some k => if a.mode = .free ∨ a.mode = accMode ta tb then .ok k else .error (Stop.rule (some ta))

/-- dmm (Table 3.4). -/
def doDmm (x : Stn) (wide ftz : Bool) (o : XOp) : Except Stop XDone :=
  match x.payload o.ta, x.payload o.tb with
  | some (ta, ba), some (tb, bb) =>
    let a := x.xs.accNext[o.acc.val]
    match dmmCheck wide a ta tb with
    | .error e => .error e
    | .ok k =>
      if ta.cols ≠ tb.cols then .error (Stop.rule (some ta))
      else
        let va := ta.operands ba ftz
        let vb := tb.operands bb ftz
        let r := accAfter a (accMode ta tb) ftz ((ta.rowsOf va).map (fun l => l.map some)) (tb.rowsOf vb)
        .ok { occ := dmmOcc k ta.rows tb.rows, lat := 24, ea := none, acc := some (o.acc, r.1),
              res := some ⟨.acc o.acc r.1, r.2 ||| readFlags va ||| readFlags vb, ta, 0, 0⟩ }
  | _, _ => .error (Stop.rule (x.thOf o.ta))

/-- Group size M of a code (Table 9.4). -/
def groupM (mc : Nat) : Nat := 4 * 2 ^ mc

/-- Bits set in a number of 16 bits. -/
def popCount (n : Nat) : Nat := ((List.range 16).map (fun i => n / 2 ^ i % 2)).foldl (· + ·) 0

/-- The SPA code that a metadata element breaks (R240), against the first element and the widths; SPA-03 before SPA-02
before SPA-01. `first` is the element (0, 0) and `widths` says whether the COLS rules hold. -/
def metaFault (first w : Word) (widths : Bool) : Option Nat :=
  let mc := fld w 20 2
  let nd := fld w 16 4
  if fld w 22 10 ≠ 0 ∨ mc = 3 ∨ nd < 1 ∨ groupM mc / 2 < nd ∨ fld w 16 6 ≠ fld first 16 6 ∨ !widths then some 3
  else if 2 ^ groupM mc ≤ fld w 0 16 then some 2
  else if nd < popCount (fld w 0 16) then some 1
  else none

/-- The values of one row of a structured operand at dense positions: V's slots in ascending position of each group. -/
def expandRow (m nd : Nat) (masks : List Word) (v : List (Val × Flags)) : List (Option (Val × Flags)) :=
  masks.zipIdx.flatMap (fun p =>
    (List.range m).map (fun b =>
      let mask := fld p.1 0 16
      if mask / 2 ^ b % 2 = 1 then v[p.2 * nd + popCount (mask % 2 ^ b)]? else none))

/-- The elements of a row of TB that some row of the structured operand meets: one at a position that every mask leaves
out has no effect (R239). -/
def metBy (pa : List (List (Option (Val × Flags)))) (row : List (Val × Flags)) : List (Val × Flags) :=
  row.zipIdx.filterMap (fun e => if pa.any (fun l => (nth l e.2 none).isSome) then some e.1 else none)

/-- dmms (R239, R240). A TM of BF16 or FP16 on a narrow station raises STN-03 (R45, log entry 113), after the STN-02 of TA, TB
and the accumulator (log entry 145). -/
def doDmms (x : Stn) (wide ftz : Bool) (o : XOp) : Except Stop XDone :=
  match x.payload o.ta, x.payload o.tb, x.payload (o.t 10) with
  | some (ta, ba), some (tb, bb), some (tm, bm) =>
    let a := x.xs.accNext[o.acc.val]
    match dmmCheck wide a ta tb with
    | .error e => .error e
    | .ok k =>
      if !wide && tm.needsWide then .error ⟨⟨.stn, 3⟩, some ta, 0, 0, 0, none⟩
      else if tm.rows ≠ ta.rows ∨ tm.fmt ≠ 9 then .error (Stop.rule (some ta))
      else
        let ms := (metaRowsOf tm.rows bm).map (fun r => (r.take tm.cols).map word)
        let first := nth (nth ms 0 []) 0 0
        let m := groupM (fld first 20 2)
        let nd := fld first 16 4
        let widths := ta.cols == tm.cols * nd && tb.cols == tm.cols * m
        let bad := (ms.zipIdx.flatMap (fun r => r.1.zipIdx.map (fun c => (r.2, c.2, c.1)))).findSome? (fun e =>
          (metaFault first e.2.2 (widths || e.1 != 0 || e.2.1 != 0)).map (fun c => (c, e)))
        match bad with
        | some (c, e) => .error ⟨⟨.spa, c⟩, some ta, 0, 0, 0, some e⟩
        | none =>
          let va := ta.operands ba ftz
          let vb := tb.operands bb ftz
          let pa := List.zipWith (expandRow m nd) ms (ta.rowsOf va)
          let r := accAfter a (accMode ta tb) ftz pa (tb.rowsOf vb)
          let kept := readFlags (pa.flatMap (fun l => l.filterMap id))
          let met := readFlags ((tb.rowsOf vb).flatMap (fun l => metBy pa l))
          .ok { occ := max 1 (cdiv (dmmOcc k ta.rows tb.rows) 2), lat := 24, ea := none, acc := some (o.acc, r.1),
                res := some ⟨.acc o.acc r.1, r.2 ||| kept ||| met, ta, 0, 0⟩ }
  | _, _, _ => .error (Stop.rule (x.thOf o.ta))

/-- A target format and SBLK of cvt and dout agree (R133, Table 3.4). -/
def sblkOk (fmt sblk : Nat) : Bool :=
  if 16 ≤ fmt then bsCode (fmt - 16) && decide (1 ≤ sblk ∧ sblk ≤ 4) else sblk == 0

/-- dout (R134). STN-02 of FMT, SBLK and PART comes before STN-03 of the bias tile (log entry 145). An accumulator element that
is subnormal is an operand that FTZ flushes (R127, log entry 152). -/
def doDout (x : Stn) (wide ftz : Bool) (blk : Nat) (o : XOp) : Except Stop XDone :=
  let fmt := fld o.w 4 5
  let c := fmt % 16
  let sblk := fld o.w 1 3
  let cap := rowCap c
  let part := fld o.w 18 2
  let bias := bitOf o.w 0
  if !(c == 0 || c == 1 || c == 2 || c == 3 || c == 4 || c == 7) || !sblkOk fmt sblk || decide (64 ≤ part * cap) then
    .error (Stop.rule none)
  else
    let a := x.xs.accNext[o.accOut.val]
    let s := x32 ftz x.xs.x[(o.x 9).val]
    let go (b : List (Val × Flags)) : Except Stop XDone :=
      let vals := (List.range (cap * 64)).map (fun k =>
        let w := Cells.get zeroWord a.v (part * cap * 64 + k)
        let e := if a.mode = .int32 then (Val.ofInt w.toInt, (0 : Flags)) else x32 ftz w
        let bj := nth b (k % 64) (Val.zero, 0)
        let r := Val.fma e.1 s.1 bj.1
        (r.1, e.2 ||| s.2 ||| bj.2 ||| r.2))
      let cv := convertAll c (decide (16 ≤ fmt)) sblk true ftz vals
      let m := gather c cv.1
      let th := TH.made fmt sblk cap m.nf (hasFz m.flags)
      .ok (XDone.of 4 24 (.tile o.td th blk (payloadOf c m.elems ++ cv.2) none) m.flags th)
    if bias then
      match x.payload o.tb with
      | some (tb, bb) =>
        if !wide && tb.needsWide then .error ⟨⟨.stn, 3⟩, some tb, 0, 0, 0, none⟩
        else if tb.fmt = 0 then go ((tb.operands bb ftz).take 64) else .error (Stop.rule (some tb))
      | none => .error (Stop.rule (x.thOf o.tb))
    else go []

/-- dclr. -/
def doDclr (o : XOp) : Except Stop XDone :=
  .ok { occ := 1, lat := 0, ea := none, acc := some (o.acc, ⟨.free, []⟩), res := some ⟨.acc o.acc ⟨.free, []⟩, 0, TH.zero, 0, 0⟩ }

/-! #### Aster -/

/-- add (Table 3.5). -/
def doAdd (x : Stn) (ftz : Bool) (blk : Nat) (o : XOp) : Except Stop XDone :=
  match x.payload o.ta, x.payload o.tb with
  | some (ta, ba), some (tb, bb) =>
    let wide := bitOf o.w 13
    let c := if wide then 0 else ta.fmt
    if ta.fmt ≠ tb.fmt ∨ !(ta.fmt == 0 || ta.fmt == 1 || ta.fmt == 2 || ta.fmt == 5) ∨ (wide ∧ ta.fmt = 5) ∨
        !ta.sameShape tb ∨ rowCap c < ta.rows then .error (Stop.rule (some ta))
    else
      let m := map2 ta c ftz Val.add (ta.operands ba ftz) (tb.operands bb ftz)
      let first := if ta.tagKind = 1 ∧ tb.tagKind = 1 then ta.setContrib (ta.contrib + tb.contrib) else ta
      .ok (tileDone (if ta.fmt = 5 then ta.rows else cdiv ta.rows 2) 6 o.td blk first [ta, tb] c m)
  | _, _ => .error (Stop.rule (x.thOf o.ta))

/-- xclr. -/
def doXclr (o : XOp) : Except Stop XDone :=
  .ok { occ := 1, lat := 0, acc := none, ea := some (o.acc, eaZero), res := some ⟨.ea o.acc eaZero, 0, TH.zero, 0, 0⟩ }

/-- xabs (R138). -/
def doXabs (x : Stn) (ftz : Bool) (o : XOp) : Except Stop XDone :=
  match x.payload o.ta with
  | some (ta, ba) =>
    if ta.fmt ≠ 0 ∧ ta.fmt ≠ 5 then .error (Stop.rule (some ta))
    else
      let v := ta.operands ba ftz
      let r := (blocksOf 64 ta.rows v).foldl (fun st row =>
        let l := List.zipWith (fun (c : EaCol) (p : Val × Flags) => c.absorb p.1) st.1 row
        (l.map (fun p => p.1), st.2 ||| l.foldl (fun f p => f ||| p.2) 0)) (x.xs.eaNext[o.acc.val], (0 : Flags))
      .ok { occ := 4 * ta.rows, lat := 0, acc := none, ea := some (o.acc, r.1),
            res := some ⟨.ea o.acc r.1, r.2 ||| readFlags v, ta, 0, 0⟩ }
  | none => .error (Stop.rule (x.thOf o.ta))

/-- xout (R139): the tile lands; the residual is in the accumulator as issued and lands with it. -/
def doXout (x : Stn) (ftz : Bool) (blk : Nat) (o : XOp) : Except Stop XDone :=
  let c := if bitOf o.w 13 then 5 else 0
  match floatFmt c with
  | none => .error (Stop.rule none)
  | some f =>
    let cols := (x.xs.eaNext[o.accOut.val]).map (fun e => e.out f ftz)
    let fl := cols.foldl (fun a p => a ||| p.2.1) 0
    let th := TH.made c 0 1 (cols.any (fun p => nonFin c p.1)) (hasFz fl)
    .ok { occ := 4, lat := 6, acc := none, ea := some (o.accOut, cols.map (fun p => p.2.2)),
          res := some ⟨.tile o.td th blk (payloadOf c (cols.map (fun p => p.1))) none, fl, th, 0, 0⟩ }

/-! #### Zinnia -/

/-- An operand that Zinnia takes: not FP64, not an index format. -/
def TH.zinnia (t : TH) : Bool := t.code != 5 && decide (t.code < 8)

/-- A result format of Zinnia's arithmetic (R124) that holds the rows. -/
def zFmt (fmt : Nat) (t : TH) : Bool := decide (fmt ≤ 2) && decide (t.rows ≤ rowCap fmt)

/-- fma. -/
def doFma (x : Stn) (ftz : Bool) (blk : Nat) (o : XOp) : Except Stop XDone :=
  match x.payload o.ta, x.payload o.tb, x.payload (o.t 10) with
  | some (ta, ba), some (tb, bb), some (tc, bc) =>
    let fmt := fld o.w 0 5
    if ta.zinnia && tb.zinnia && tc.zinnia && zFmt fmt ta && ta.sameShape tb && ta.sameShape tc then
      .ok (tileDone ta.rows 4 o.td blk ta [ta, tb, tc] fmt
        (map3 ta fmt ftz Val.fma (ta.operands ba ftz) (tb.operands bb ftz) (tc.operands bc ftz)))
    else .error (Stop.rule (some ta))
  | _, _, _ => .error (Stop.rule (x.thOf o.ta))

/-- Zinnia's ops on two tiles: add, mul, axpy. -/
def doZ2 (x : Stn) (ftz : Bool) (blk : Nat) (o : XOp) (g : Val → Val → Val × Flags) : Except Stop XDone :=
  match x.payload o.ta, x.payload o.tb with
  | some (ta, ba), some (tb, bb) =>
    let fmt := fld o.w 0 5
    if ta.zinnia && tb.zinnia && zFmt fmt ta && ta.sameShape tb then
      .ok (tileDone ta.rows 4 o.td blk ta [ta, tb] fmt (map2 ta fmt ftz g (ta.operands ba ftz) (tb.operands bb ftz)))
    else .error (Stop.rule (some ta))
  | _, _ => .error (Stop.rule (x.thOf o.ta))

/-- axpy: XS × TA + TB, with XS read as FP32. -/
def doAxpy (x : Stn) (ftz : Bool) (blk : Nat) (o : XOp) : Except Stop XDone :=
  let s := x32 ftz x.xs.x[(o.x 5).val]
  doZ2 x ftz blk o (fun a b => let r := Val.fma s.1 a b; (r.1, r.2 ||| s.2))

/-- cvt (R131 to R133). -/
def doCvt (x : Stn) (ftz : Bool) (blk : Nat) (o : XOp) : Except Stop XDone :=
  match x.payload o.ta with
  | some (ta, ba) =>
    let fmt := fld o.w 0 5
    let c := fmt % 16
    let sblk := o.mode % 8
    let run := decide (8 ≤ o.mode)
    let ts := x.xs.x[30].toNat
    if !ta.zinnia || c == 5 || decide (8 ≤ c) || !sblkOk fmt sblk || (!bsCode c && o.mode != 0) ||
        decide (rowCap c < ta.rows) || (run && decide (255 ≤ ts)) then .error (Stop.rule (some ta))
    else
      let v := ta.operands ba ftz
      let k : Int := if run then (ts : Int) - 127 else 0
      let cv := convertAll c (decide (16 ≤ fmt)) sblk false ftz (v.map (fun p => (p.1.scale (-k), p.2)))
      let m := gather c (if 16 ≤ fmt then cv.1 else shaped ta cv.1)
      let th := ta.result fmt sblk (if run then ts else 0x7F) (ta.nf || m.nf) (ta.fz || hasFz m.flags)
      .ok (XDone.of ta.rows 4 (.tile o.td th blk (payloadOf c m.elems ++ cv.2)
        (if run then some (runMax (ta.validElems v)) else none)) m.flags th)
  | none => .error (Stop.rule (x.thOf o.ta))

/-- fn (R124). -/
def doFn (x : Stn) (ftz : Bool) (blk : Nat) (o : XOp) : Except Stop XDone :=
  match x.payload o.ta with
  | some (ta, ba) =>
    let fmt := fld o.w 0 5
    if ta.zinnia && zFmt fmt ta then
      .ok (tileDone ta.rows 4 o.td blk ta [ta] fmt (map1 ta fmt ftz (fnVal o.mode) (ta.operands ba ftz)))
    else .error (Stop.rule (some ta))
  | none => .error (Stop.rule (x.thOf o.ta))

/-- amax (R124). -/
def doAmax (x : Stn) (ftz : Bool) (o : XOp) : Except Stop XDone :=
  match x.payload o.ta with
  | some (ta, ba) =>
    if ta.zinnia then
      let r := amaxOf (ta.validElems (ta.operands ba ftz))
      .ok (XDone.of ta.rows 4 (.x (o.x 5) r.1) r.2 ta)
    else .error (Stop.rule (some ta))
  | none => .error (Stop.rule (x.thOf o.ta))

/-! #### Phlox -/

/-- sort (R261). -/
def doSort (x : Stn) (blk : Nat) (o : XOp) : Except Stop XDone :=
  match x.payload o.ta with
  | some (ta, ba) =>
    if !ta.isRecords then .error (Stop.rule (some ta))
    else
      let l := sortRecs o.mode (ta.records ba)
      let th := (ta.result 9 0 0x7F ta.nf ta.fz).setNrec l.length
      .ok { XDone.of (sortOcc ta.nrec) 12 (.tile o.td th blk (recordPayload (keyWidth o.mode) l) none) 0 th with
            res := some ⟨.tile o.td th blk (recordPayload (keyWidth o.mode) l) none, 0, th, l.length, 0⟩ }
  | none => .error (Stop.rule (x.thOf o.ta))

/-- merge (R261). -/
def doMerge (x : Stn) (b1 b2 : Nat) (o : XOp) : Except Stop XDone :=
  match x.payload o.ta, x.payload o.tb with
  | some (ta, ba), some (tb, bb) =>
    if !ta.isRecords || !tb.isRecords || ta.rsz != tb.rsz then .error (Stop.rule (some ta))
    else
      let l := mergeRecs o.mode (ta.nrec + tb.nrec) (ta.records ba) (tb.records bb)
      let cap := 4096 / recSize ta.rsz
      let th := ta.result 9 0 0x7F (ta.nf || tb.nf) (ta.fz || tb.fz)
      let t1 := th.setNrec (l.take cap).length
      let t2 := th.setNrec (l.drop cap).length
      let w := keyWidth o.mode
      .ok ⟨max 1 (cdiv (ta.nrec + tb.nrec) 4), 12,
        some ⟨.tile2 o.td t1 b1 (recordPayload w (l.take cap)) t2 b2 (recordPayload w (l.drop cap)), 0, t1, l.length, 0⟩,
        none, none⟩
  | _, _ => .error (Stop.rule (x.thOf o.ta))

/-- The Vitrine offset of the predicate table (R264, R275). -/
def State.predTable (s : State) (n : StnId) : Nat := s.rf (Reg.stnPhxPred n.val) 12 11 * 4096

/-- filt (R261, R263 to R265, R275): a predicate table beyond the program region stops every filt, whatever else it breaks. -/
def doFilt (s : State) (n : StnId) (blk : Nat) (o : XOp) : Except Stop XDone :=
  let x := s.st n
  if x.lay.prog * 65536 < s.predTable n + 4096 then .error ⟨⟨.stn, 6⟩, x.thOf o.ta, 0, 0, 5, none⟩
  else match x.payload o.ta with
  | some (ta, ba) =>
    let p := x.xs.x[(o.x 5).val].toNat
    if !ta.isRecords then .error (Stop.rule (some ta))
    else if 31 < p then .error ⟨⟨.stn, 7⟩, some ta, (o.x 5).val, 1, 4, none⟩
    else match program (recSize ta.rsz) (x.vitBytes (s.predTable n + 128 * p) 128) with
      | none => .error ⟨⟨.stn, 7⟩, some ta, (o.x 5).val, 1, 4, none⟩
      | some ts =>
        let l := (ta.records ba).filter (fun r => satisfies r ts)
        let th := (ta.result 9 0 0x7F ta.nf ta.fz).setNrec l.length
        .ok ⟨max 1 (cdiv ta.nrec 4), 12, some ⟨.tile o.td th blk (recordPayload 8 l) none, 0, th, 0, l.length⟩, none, none⟩
  | none => .error (Stop.rule (x.thOf o.ta))

end Sys2Proof.Machine
end

