-- ==== Sys2Proof/Machine/ExecStream.lean ====
section
/-! DEFINITION. The execute stream's issue (R91 to R95, R97 to R103): waits, checked mode, overissue and held ops,
control ops; landing of results, the step-end point, the watchdog (R104). -/

namespace Sys2Proof.Machine

open Sys2Proof

/-! ### What an op reads, reserves and names -/

/-- T registers an op reads at issue (R102). -/
def XOp.readsT (o : XOp) : List (Fin 16) :=
  match o.slot, o.op with
  | 0, 0x01 => [o.ta, o.tb]
  | 0, 0x02 => [o.ta, o.tb, o.t 10]
  | 0, 0x03 => if bitOf o.w 0 then [o.tb] else []
  | 1, 0x01 => [o.ta, o.tb]
  | 1, 0x03 => [o.ta]
  | 2, 0x01 => [o.ta, o.tb, o.t 10]
  | 2, 0x02 => [o.ta, o.tb]
  | 2, 0x03 => [o.ta, o.tb]
  | 2, 0x04 => [o.ta, o.tb]
  | 2, 0x05 => [o.ta]
  | 2, 0x06 => [o.ta]
  | 2, 0x07 => [o.ta]
  | 4, 0x01 => [o.ta]
  | 4, 0x02 => [o.ta, o.tb]
  | 4, 0x03 => [o.ta]
  | 5, 0x04 => [o.tb]
  | 5, 0x10 => [o.tb]
  | 5, 0x11 => [o.tb]
  | _, _ => []

/-- X registers an op reads at issue (R102, R133). -/
def XOp.readsX (o : XOp) : List (Fin 32) :=
  match o.slot, o.op with
  | 0, 0x03 => [o.x 9]
  | 2, 0x04 => [o.x 5]
  | 2, 0x05 => if 8 ≤ o.mode then [30, 31] else []
  | 3, 0x01 => [o.x 12]
  | 4, 0x03 => [o.x 5]
  | 5, 0x0A => [o.x 21]
  | 5, 0x0B => [o.x 16]
  | 5, 0x0C => [o.x 16, o.x 11]
  | 5, 0x0E => [o.x 16]
  | 5, 0x0F => [o.x 21]
  | 5, 0x11 => [o.x 16]
  | _, _ => []

/-- The T registers whose payload an op reads. -/
def XOp.payloads (o : XOp) : List (Fin 16) := if o.slot = 5 then [] else o.readsT

/-- The destination that an overissue trap names: register and kind (Table 3.15). -/
def XOp.dest (o : XOp) : Nat × Nat :=
  match o.slot, o.op with
  | 0, 0x03 => (o.td.val, 0)
  | 0, _ => (o.acc.val, 2)
  | 1, 0x02 => (o.acc.val, 3)
  | 1, 0x03 => (o.acc.val, 3)
  | 2, 0x07 => ((o.x 5).val, 1)
  | _, _ => (o.td.val, 0)

/-- The engine of a slot: 0 Dahlia, 1 Aster, 2 Zinnia, 3 Phlox; Lupin and control have no occupancy here. -/
def slotEngine (slot : Nat) : Option (Fin 4) :=
  match slot with
  | 0 => some 0
  | 1 => some 1
  | 2 => some 2
  | 4 => some 3
  | _ => none

/-- A pending result writes T register `d`. -/
def Result.writesT (r : Result) (d : Fin 16) : Bool :=
  match r with
  | .tile t _ _ _ _ => t == d
  | .tile2 t _ _ _ _ _ _ => t == d || (t.val ^^^ 1) == d.val
  | .thWord t _ _ => t == d
  | .frame t _ => t == d
  | .empty t => t == d
  | _ => false

/-- A pending result writes X register `d`. -/
def Result.writesX (r : Result) (d : Fin 32) : Bool :=
  match r with
  | .x t _ => t == d
  | .tile _ _ _ _ m => m.isSome && d == 31
  | _ => false

/-! ### Held and overissued ops (R98) -/

/-- How an op meets its engine: it starts at once, is held until a cycle, or is overissued. -/
inductive Meet where
  | now
  | held (start : Nat)
  | over
  deriving DecidableEq, Repr

/-- How op `o` issued in cycle `t` meets its engine. -/
def Stn.meet (x : Stn) (t : Nat) (o : XOp) : Meet :=
  match slotEngine o.slot with
  | none => .now
  | some e =>
    if x.xs.freeAt[e.val] ≤ t then .now
    else
      let waits := (o.slot == 0 && (o.op == 3 || o.op == 4)) || (o.slot == 1 && (o.op == 2 || o.op == 4))
      match x.xs.mmTil[e.val] with
      | some (_, til) => if waits && decide (t < til) && decide (x.xs.heldTil[e.val] ≤ t) then .held til else .over
      | none => .over

/-- The trap of checked mode for an op (R102): register, kind, cause. -/
def Stn.checkTrap (x : Stn) (t : Nat) (o : XOp) : Option (Nat × Nat × Nat) :=
  match o.readsT.find? (fun d => x.xs.pend.any (fun p => p.res.writesT d)) with
  | some d => some (d.val, 0, 1)
  | none =>
    match o.readsX.find? (fun d => x.xs.pend.any (fun p => p.res.writesX d)) with
    | some d => some (d.val, 1, 1)
    | none =>
      match x.meet t o with
      | .now => none
      | .over => some (o.dest.1, o.dest.2, 2)
      | .held _ =>
        if o.is 0 3 && (x.xs.mmTil[0]).any (fun m => m.1 == o.accOut) then some (o.accOut.val, 2, 3)
        else if o.is 1 4 && (x.xs.mmTil[1]).any (fun m => m.1 == o.accOut) then some (o.accOut.val, 3, 3)
        else none

/-! ### Control ops -/

/-- The signed immediate or offset of a control op. -/
def XOp.imm (o : XOp) : Int := signed 16 (fld o.w 0 16)

/-- A pending result is noted. -/
def Stn.addPend (x : Stn) (land slot : Nat) (l : Landing1) : Stn :=
  { x with xs := { x.xs with pend := x.xs.pend ++ [⟨land, x.xs.order, slot, l.res, l.flags, l.th, l.recs, l.kept⟩] } }

/-- A control result lands one issue cycle after its issue (I = L = 1). -/
def State.ctlPend (s : State) (n : StnId) (t : Nat) (r : Result) : State :=
  s.modSt n (fun x => x.addPend (t + 1) 5 ⟨r, 0, TH.zero, 0, 0⟩)

/-- A control op: its operand rule, or its effect; `y` is the station as the bundle read it. -/
def doCtl (y : Stn) (n : StnId) (t : Nat) (o : XOp) : Except Stop (State → State) :=
  let x21 := y.xs.x[(o.x 21).val]
  let x16 := y.xs.x[(o.x 16).val]
  let immW : Word := BitVec.ofInt 32 o.imm
  match o.op with
  | 0x03 => .ok (fun s =>
      let q : Fin 8 := o.q
      match (y.q[q.val]).head? with
      | some e => (s.popped n q).ctlPend n t (.frame o.td e.tile)
      | none => s)
  | 0x04 =>
    match y.xs.t[o.tb.val] with
    | none => .error (Stop.rule none)
    | some tl => .ok (fun s => s.modSt n (fun x =>
        { x.push o.q ⟨tl, .ready⟩ with xs := { x.xs with t := x.xs.t.set o.tb.val none } }))
  | 0x05 => .ok (fun s => s.ctlPend n t (.empty o.td))
  | 0x06 => .ok (fun s => s.modSt n (fun x => x.setFlag o.fl true))
  | 0x07 => .ok (fun s => s.modSt n (fun x => x.setFlag o.fl false))
  | 0x09 => .ok (fun s => s.ctlPend n t (.x (o.x 21) immW))
  | 0x0A => .ok (fun s => s.ctlPend n t (.x (o.x 21) (setFld x21 16 16 (fld o.w 0 16))))
  | 0x0B => .ok (fun s => s.ctlPend n t (.x (o.x 21) (x16 + immW)))
  | 0x0C => .ok (fun s => s.ctlPend n t (.x (o.x 21) (x16 + y.xs.x[(o.x 11).val])))
  | 0x0F => .ok (fun s => s.ctlPend n t (.x (o.x 21) (x21 - 1)))
  | 0x10 =>
    match y.xs.t[o.tb.val] with
    | none => .error (Stop.rule none)
    | some tl => .ok (fun s => s.ctlPend n t (.x (o.x 21) (tl.th.get (fld o.w 0 3))))
  | 0x11 =>
    match y.xs.t[o.tb.val] with
    | none => .error (Stop.rule none)
    | some _ => .ok (fun s => s.ctlPend n t (.thWord o.tb (Fin.ofNat 8 (fld o.w 0 3)) x16))
  | _ => .ok id

/-- The byte address that fetch takes after a bundle (R91). -/
def XOp.target (o : XOp) (y : Stn) (pc next : Nat) : Nat :=
  let there : Nat := (((pc : Int) + 2 * o.imm) % 2 ^ 32).toNat
  if o.slot = 5 then
    match o.op with
    | 0x0D => there
    | 0x0E => if y.xs.x[(o.x 16).val] ≠ 0 then there else next
    | 0x0F => if y.xs.x[(o.x 21).val] - 1 ≠ 0 then there else next
    | _ => next
  else next

/-! ### Lupin's job queue (R233) -/

/-- The Vitrine offset of a run op's descriptor. -/
def XOp.descAt (o : XOp) (y : Stn) : Nat := (y.xs.x[(o.x 12).val]).toNat

/-- run: the descriptor is copied into the job queue. -/
def doRun (y : Stn) (n : StnId) (o : XOp) : Except Stop (State → State) :=
  let a := o.descAt y
  if a % 64 ≠ 0 ∨ y.lay.prog * 65536 < a + 64 then .error ⟨⟨.stn, 6⟩, none, (o.x 12).val, 1, 5, none⟩
  else
    let job : LupJob := ⟨o.qi, o.qo, fld o.w 17 4, bytesToWords 16 (y.vitBytes a 64)⟩
    .ok (fun s => s.modSt n (fun x => { x with lup := { x.lup with jobs := x.lup.jobs ++ [job] } }))

/-! ### Issue -/

/-- What an engine op does, from the state as the bundle reads it; `bs` are the blocks it reserved. -/
def doEngine (s : State) (n : StnId) (bs : List Nat) (o : XOp) : Except Stop XDone :=
  let x := s.st n
  let ftz := s.rbit (Reg.stnNumCtrl n.val) 0
  let b := nth bs 0 0
  match o.slot, o.op with
  | 0, 0x01 => doDmm x (isWide n) ftz o
  | 0, 0x02 => doDmms x (isWide n) ftz o
  | 0, 0x03 => doDout x (isWide n) ftz b o
  | 0, _ => doDclr o
  | 1, 0x01 => doAdd x ftz b o
  | 1, 0x02 => doXclr o
  | 1, 0x03 => doXabs x ftz o
  | 1, _ => doXout x ftz b o
  | 2, 0x01 => doFma x ftz b o
  | 2, 0x02 => doZ2 x ftz b o Val.add
  | 2, 0x03 => doZ2 x ftz b o Val.mul
  | 2, 0x04 => doAxpy x ftz b o
  | 2, 0x05 => doCvt x ftz b o
  | 2, 0x06 => doFn x ftz b o
  | 2, _ => doAmax x ftz o
  | _, 0x01 => doSort x b o
  | _, 0x02 => doMerge x b (nth bs 1 0) o
  | _, _ => doFilt s n b o

/-- The accumulator named by an op that holds later ops back (R98): dmm, dmms, xabs. -/
def XOp.holds (o : XOp) : Option (Fin 4) :=
  if (o.slot = 0 ∧ o.op ≤ 2) ∨ (o.slot = 1 ∧ o.op = 3) then some o.acc else none

/-- An engine op that started in cycle `start` is under way: engine, accumulators as issued, pending result. -/
def Stn.takeOp (x : Stn) (o : XOp) (start : Nat) (held : Bool) (d : XDone) : Stn :=
  let land := start + d.occ + d.lat - 1
  let x1 := match slotEngine o.slot with
    | some e => { x with xs := { x.xs with
        freeAt := x.xs.freeAt.set e.val (start + d.occ),
        heldTil := if held then x.xs.heldTil.set e.val start else x.xs.heldTil,
        mmTil := x.xs.mmTil.set e.val (o.holds.map (fun a => (a, start + d.occ))) } }
    | none => x
  let x2 := match d.acc with
    | some (i, a) => { x1 with xs := { x1.xs with accNext := x1.xs.accNext.set i.val a } }
    | none => x1
  let x3 := match d.ea with
    | some (i, c) =>
      let y := { x2 with xs := { x2.xs with eaNext := x2.xs.eaNext.set i.val c } }
      if o.is 1 4 then y.addPend land o.slot ⟨.ea i c, 0, TH.zero, 0, 0⟩ else y
    | none => x2
  match d.res with
  | some l => x3.addPend land o.slot l
  | none => x3

/-- An overissued op (R98): its blocks are released, STN_OVERISSUE counts, STN-09 is raised. -/
def State.overissue (s : State) (n : StnId) (bs : List Nat) : State :=
  ((bs.foldl (fun t b => t.freeTile n (some b)) s).inc (Reg.stnOverissue n.val)).raise ⟨.stn, 9⟩ (uStn n) []

/-- The ops of a bundle with the blocks each reserved. -/
def shareBlocks : List XOp → List Nat → List (XOp × List Nat)
  | [], _ => []
  | o :: r, bs => (o, bs.take o.blocks) :: shareBlocks r (bs.drop o.blocks)

/-- The effect of one op of a bundle that issues in cycle `t`, read from state `s`. -/
def opEffect (s : State) (n : StnId) (t : Nat) (p : XOp × List Nat) : Except Stop (State → State) :=
  let x := s.st n
  if p.1.slot = 5 then doCtl x n t p.1
  else if p.1.slot = 3 then doRun x n p.1
  else match x.meet t p.1 with
    | .over => .ok (fun u => u.overissue n p.2)
    | .now => (doEngine s n p.2 p.1).map (fun d u => u.modSt n (fun y => y.takeOp p.1 t false d))
    | .held st => (doEngine s n p.2 p.1).map (fun d u => u.modSt n (fun y => y.takeOp p.1 st true d))

/-- The effects of the ops in slot order, or the first stop with its slot. -/
def opEffects (s : State) (n : StnId) (t : Nat) : List (XOp × List Nat) → Except (Nat × Stop) (List (State → State))
  | [] => .ok []
  | p :: r =>
    match opEffect s n t p with
    | .error e => .error (p.1.slot, e)
    | .ok f =>
      match opEffects s n t r with
      | .error e => .error e
      | .ok l => .ok (f :: l)

/-- An SPA fault is recorded (R251): UNIT is 1 for dmms. -/
def State.spaRecord (s : State) (n : StnId) (code unit row col tile : Nat) (w : Word) : State :=
  ((s.setRg (Reg.stnSpaLast n.val)
    (word (code + unit * 2 ^ 3 + (row % 64) * 2 ^ 4 + (col % 64) * 2 ^ 10 + (min tile 0xFFFF) * 2 ^ 16))).setRg
      (Reg.stnSpaElem n.val) w).inc (Reg.stnSpaCnt n.val)

/-- The bundle at `pc` does not issue, gives back the blocks it holds, and the station halts (R100). -/
def State.xsStop (s : State) (n : StnId) (pc slot : Nat) (e : Stop) : State :=
  let s0 := s.modSt n Stn.dropGot
  let s1 := if e.cause = 0 then s0 else s0.setTrap n (pc / 2) slot e.reg e.kind e.cause
  let s2 := match e.spa with
    | some (r, c, w) => s1.spaRecord n e.code.num 1 r c 0 w
    | none => s1
  s2.halt n e.code e.th

/-- The XS waits (R95). -/
def State.xsWait (s : State) (n : StnId) (k : WaitKind) (obj : Nat) : State :=
  s.modSt n (fun x => { x with xs := { x.xs with wait := k, obj := obj } })

/-- filt reads its predicate program: no check that stands before the read fails (R263, R275). -/
def State.filtReads (s : State) (n : StnId) (o : XOp) : Bool :=
  let x := s.st n
  (x.thOf o.ta).any TH.isRecords && decide ((x.xs.x[(o.x 5).val]).toNat ≤ 31) &&
    decide (s.predTable n + 4096 ≤ x.lay.prog * 65536)

/-- run reads its descriptor: its address holds one. -/
def Stn.runReads (x : Stn) (o : XOp) : Bool := o.descAt x % 64 == 0 && decide (o.descAt x + 64 ≤ x.lay.prog * 65536)

/-- The Vitrine ranges that a bundle reads, with the header that a bad one names (R352). -/
def State.bundleReads (s : State) (n : StnId) (ops : List XOp) : List (Nat × Nat × Option TH) :=
  let x := s.st n
  ops.flatMap (fun o =>
    (o.payloads.filterMap (fun d =>
      match x.xs.t[d.val] with
      | some ⟨th, some b⟩ => some (x.lay.blkAddr b, th.bodyLen, some th)
      | _ => none)) ++
    (if o.is 3 1 && x.runReads o then [(o.descAt x, 64, none)] else []) ++
    (if o.is 4 3 && s.filtReads n o then [(s.predTable n + 128 * (x.xs.x[(o.x 5).val]).toNat, 128, x.thOf o.ta)] else []))

/-- Check every range that a bundle reads; the header of the first bad one. -/
def State.checkReads (s : State) (n : StnId) : List (Nat × Nat × Option TH) → State × Option (Option TH)
  | [] => (s, none)
  | (a, len, th) :: r =>
    let p := s.vitCheck n a len
    if p.2 then p.1.checkReads n r else (p.1, some th)

/-- Issue cycles that a bundle takes: N of c.idle, else 1. -/
def bundleCycles (ops : List XOp) : Nat :=
  match ops.find? (fun o => o.is 5 2) with
  | some o => fld o.w 0 16
  | none => 1

/-- The bundle has issued: program counter, issue cycle, the cycles of a c.idle still to come, NB and the cut's count (R107,
R108), the watchdog. A count that this bundle reached makes the freeze due at the end of its last cycle; `was` is a freeze
that was due before it. -/
def State.bundleDone (s : State) (n : StnId) (next cycles : Nat) (was : Bool) : State :=
  let s1 := s.modSt n (fun x =>
    { x with wd := 0, issCnt := x.issCnt + 1, cut := { x.cut with nb := x.cut.nb + 1 },
             xs := { x.xs with pc := next, ic := x.xs.ic + 1, idle := cycles - 1, order := x.xs.order + 1, wait := .none,
                               obj := 0, stepRec := none, got := [] } })
  let hit := decide (s1.rf (Reg.stnCutCtrl n.val) 0 2 = 1) && s1.cutHits n
  s1.modSt n (fun x => { x with cut := { x.cut with
    due := x.cut.due || hit, toIdle := !was && (x.cut.due || hit) && decide (1 < cycles) } })

/-- The bundle issues in cycle `t` with the blocks it reserved, or stops and gives them back. -/
def State.bundleIssue (s : State) (n : StnId) (t pc len : Nat) (ops : List XOp) (bs : List Nat) : State :=
  let c := s.checkReads n (s.bundleReads n ops)
  match c.2 with
  | some th => (c.1.modSt n Stn.dropGot).halt n ⟨.mem, 2⟩ th
  | none =>
    match opEffects c.1 n t (shareBlocks ops bs) with
    | .error (slot, e) => c.1.xsStop n pc slot e
    | .ok fs =>
      let y := c.1.st n
      let next := ops.foldl (fun a o => o.target y pc a) (pc + len)
      (fs.foldl (fun u f => f u) c.1).bundleDone n next (bundleCycles ops) y.cut.due

/-- The blocks that a bundle reserves are gathered, one in each tick (R297); with the last of them `k` runs. -/
def State.gatherBlocks (s : State) (n : StnId) (need : Nat) (k : List Nat → State → State) : State :=
  let got := (s.st n).xs.got
  if need ≤ got.length then k got s
  else match s.allocTile n .xs 0 with
    | none => (s.clkWait n .xs 0 4352).xsWait n .tileBlock 0
    | some (b, s1) =>
      let s2 := s1.modSt n (fun x => { x with xs := { x.xs with got := got ++ [b] } })
      if need ≤ got.length + 1 then k (got ++ [b]) s2 else (s2.clkWait n .xs 0 4352).xsWait n .tileBlock 0

/-- The program counter of the XS. -/
def State.setXsPc (s : State) (n : StnId) (pc : Nat) : State := s.modSt n (fun x => { x with xs := { x.xs with pc := pc } })

/-- The bundle that fetch finds is offered to issue. -/
def State.xsOffer (s : State) (n : StnId) (pc : Nat) (ops : List XOp) (len : Nat) : State :=
  let x := s.st n
  let t := x.xs.ic
  let trap := if s.rbit (Reg.stnCheck n.val) 0 then
    ops.findSome? (fun o => (x.checkTrap t o).map (fun r => (o.slot, r))) else none
  match trap with
  | some (slot, r) => s.xsStop n pc slot ⟨⟨.stn, 8⟩, none, r.1, r.2.1, r.2.2, none⟩
  | none =>
    let stepping := ops.any (fun o => o.is 5 0x12)
    if stepping && x.xs.stepRec.isNone then
      s.modSt n (fun y => { y with xs := { y.xs with wait := .stepEnd, obj := 0, stepRec := some s.stepCur } })
    else if stepping && x.xs.stepRec == some s.stepCur then s.xsWait n .stepEnd 0
    else match x.bundleWait ops with
      | some (k, o) => s.xsWait n k o
      | none =>
        let need := bundleNeed ops
        if need ≠ 0 ∧ x.lay.tilePool.isNone then
          s.xsStop n pc ((ops.find? (fun o => 0 < o.blocks)).elim 7 XOp.slot) (Stop.rule none)
        else s.gatherBlocks n need (fun bs u => u.bundleIssue n t pc len ops bs)

/-- One cycle of the XS: results that are due land; a c.idle that runs covers the cycle, else the bundle at the program
counter is offered to issue. -/
def State.xsCycle (s : State) (n : StnId) : State :=
  let s1 := s.landDue n (s.st n).xs.ic
  let x := s1.st n
  if x.xs.idle ≠ 0 then
    s1.modSt n (fun y => { y with issCnt := y.issCnt + 1, xs := { y.xs with ic := y.xs.ic + 1, idle := y.xs.idle - 1 } })
  else match x.fetch (s1.redStns.contains n) 2049 x.xs.pc with
    | .bad pc slot => (s1.setXsPc n pc).xsStop n pc slot ⟨⟨.stn, 7⟩, none, 0, 0, 4, none⟩
    | .bundle pc ops len => (s1.setXsPc n pc).xsOffer n pc ops len

/-- The XS takes its turn. -/
def State.xsIssue (s : State) (n : StnId) : State := s.turn n .xs (fun t => t.xsCycle n)

/-! ### Commands -/

/-- XS_BUNDLE_ISSUE (R91, R95): one cycle of the XS: the bundle at the program counter issues whole once every wait of it
has ended; while a c.idle runs, its next cycle passes. -/
def execXsBundleIssue (n : StnId) (s : State) : Host.Outcome State Fault Refusal := .next (s.xsIssue n)

/-- ENGINE_RESULT_LAND (R97, R99): the next result whose issue cycle has ended lands. -/
def execEngineResultLand (n : StnId) (s : State) : Host.Outcome State Fault Refusal :=
  .next (match (Pend.sort ((s.st n).xs.pend.filter (fun p => decide (p.land < (s.st n).xs.ic)))).head? with
    | none => s
    | some p => (s.modSt n (fun x => { x with xs := { x.xs with pend := x.xs.pend.erase p } })).landOne n p)

/-- STEP_END_RELEASE (R103): a stream at its step-end point goes on once HT_STEP_CUR differs from its record. -/
def execStepEndRelease (n : StnId) (st : Stream) (s : State) : Host.Outcome State Fault Refusal :=
  .next (match st with
    | .access =>
      if (s.st n).as.wait = .stepEnd && (s.st n).as.stepRec != some s.stepCur then s.asIssue n 0x04 (fun _ t => t.asRetire n)
      else s
    | .execute =>
      if (s.st n).xs.wait = .stepEnd && (s.st n).xs.stepRec != some s.stepCur then s.xsIssue n else s)

/-- Both streams wait, and the watchdog counts (R104). -/
def Stn.stalled (x : Stn) : Bool :=
  x.st = .running && x.as.wait ≠ .none && x.xs.wait ≠ .none && !(x.as.wait = .stepEnd && x.xs.wait = .stepEnd) &&
  x.as.wait ≠ .htwait && x.xs.wait ≠ .htwait

/-- WATCHDOG_EXPIRE (R104): at the limit the state is captured and the station halts with STN-05. -/
def execWatchdogExpire (n : StnId) (s : State) : Host.Outcome State Fault Refusal :=
  .next (
    let x := s.st n
    let lim := (s.rg (Reg.stnWatchdog n.val)).toNat
    if lim ≠ 0 ∧ x.stalled ∧ lim ≤ x.wd then
      let s1 := s.setRg (Reg.stnWdPc n.val) (word (x.as.pc % 2 ^ 13 + (x.xs.pc / 2 % 2 ^ 16) * 2 ^ 16))
      let s2 := s1.setRg (Reg.stnWdWait n.val)
        (word (x.as.wait.code + x.as.obj * 2 ^ 4 + x.xs.wait.code * 2 ^ 16 + x.xs.obj * 2 ^ 20))
      ((s2.setRg (Reg.stnWdQdepth n.val) x.qdepth).setRg (Reg.stnWdFlags n.val) x.cyc.flags).halt n ⟨.stn, 5⟩ none
    else s)

end Sys2Proof.Machine
end

