-- ==== Sys2Proof/Machine/StnCmd.lean ====
section
/-! DEFINITION. The host's commands to a station: run, restart, fence, flags, and the cut (R66 to R68, R73, R78,
R107 to R115). -/

namespace Sys2Proof.Machine

open Sys2Proof

/-- The registers of a station answer: it is powered and released (R9, R383). -/
def State.stnUp (s : State) (n : StnId) : Bool := (s.st n).powered && (s.st n).released

/-- RUN is written (R73): 1 on an idle released station whose RUN was 0 starts the streams, and is held before the
release; 0 stops a running station. A station that is off takes nothing. -/
def State.writeRun (s : State) (n : StnId) (run : Bool) : State :=
  if s.role n = 0 || !s.cur.regOn then s
  else
    let was := s.rbit (Reg.stnCtrl n.val) 0
    let s1 := s.setRf (Reg.stnCtrl n.val) 0 1 (b2n run)
    if run then (if !was && (s.st n).released && (s.st n).st = .idle then s1.runStart n else s1)
    else if (s.st n).st = .running then s1.runStop n else s1

/-- RESTART (R67, R237): a halted station releases the tiles of Q0 to Q7, T0 to T15 and Lupin and starts again. -/
def State.restart (s : State) (n : StnId) : State :=
  if (s.st n).st = .halted then
    let s1 := s.landAll n
    let s2 := (s1.addSat (Reg.stnDiscarded n.val) (s1.st n).tileCount).dropLupin n
    let s3 := ((s2.modSt n Stn.clearQueues).setRf (Reg.stnCutStat n.val) 2 1 0).closeWindows (uStn n) (fun _ => true)
    s3.startStreams n
  else s

/-- A frozen station runs again (R112); its streams and Lupin act from the next cycle on. -/
def Stn.goOn (x : Stn) : Stn :=
  { x with st := .running, cyc := { x.cyc with didAs := true, didXs := true, didLup := true } }

/-- The station continues from a cut (R112): HIT and PASSED clear, and an armed cut is tested (R109). -/
def State.resume (s : State) (n : StnId) : State :=
  if (s.st n).st = .halted ∧ s.rbit (Reg.stnCutStat n.val) 0 ∧ ¬ s.rbit (Reg.stnCutStat n.val) 2 then
    let s1 := (s.setRf (Reg.stnCutStat n.val) 0 1 0).setRf (Reg.stnCutStat n.val) 1 1 0
    (s1.modSt n Stn.goOn).testCut n
  else s

/-- The cut is armed from the next cycle, which opens with the test of the count where the station runs; a pending freeze is
cancelled, and no event of this cycle hits (R109). -/
def State.arm (s : State) (n : StnId) : State :=
  s.modSt n (fun x => { x with cut := { x.cut with armed := false, arming := true, due := false, toIdle := false } })

/-- STN_CUT_CTRL is written (Table 4.2). -/
def State.writeCutCtrl (s : State) (n : StnId) (v : Word) : State :=
  let s1 := s.setRg (Reg.stnCutCtrl n.val) (v &&& 0x1F)
  let s2 := if fld v 0 2 = 1 ∨ fld v 0 2 = 2 then s1.arm n else s1
  if bitOf v 8 then s2.resume n else s2

/-- STN_CUT_AT_LO is written: the 64-bit count takes effect with the held _HI half, and the cut is armed (R109). -/
def State.writeCutAt (s : State) (n : StnId) (v : Word) : State :=
  let a := Reg.stnCutAtLo n.val
  let hi := Cells.get (fun _ => s.rg (a + 4)) s.heldHi (a + 4)
  (({ s with heldHi := Cells.erase s.heldHi (a + 4) }.setRg a v).setRg (a + 4) hi).arm n

/-- A read of STN_CUT_DATA: the word at WORD, which then increments (R115). -/
def State.readCutData (s : State) (n : StnId) : State × Word :=
  (s.setRf (Reg.stnCutSel n.val) 12 13 (s.rf (Reg.stnCutSel n.val) 12 13 + 1), s.value (Reg.stnCutData n.val))

/-- STN_RUN_SET (R73). -/
def execStnRunSet (n : StnId) (s : State) : Host.Outcome State Fault Refusal := .next (s.writeRun n true)

/-- STN_RUN_CLEAR (R73). -/
def execStnRunClear (n : StnId) (s : State) : Host.Outcome State Fault Refusal := .next (s.writeRun n false)

/-- STN_RESTART (R67). -/
def execStnRestart (n : StnId) (s : State) : Host.Outcome State Fault Refusal :=
  .next (if s.stnUp n then s.restart n else s)

/-- STN_FENCE_REQ (R68). -/
def execStnFenceReq (n : StnId) (s : State) : Host.Outcome State Fault Refusal :=
  .next (if s.stnUp n && (s.st n).st ≠ .fenced then s.fence n else s)

/-- STN_FLAG_SET (R78). -/
def execStnFlagSet (n : StnId) (mask : Word) (s : State) : Host.Outcome State Fault Refusal :=
  .next (if s.stnUp n then s.modSt n (fun x => x.setFlags mask) else s)

/-- STN_FLAG_CLR (R78). -/
def execStnFlagClr (n : StnId) (mask : Word) (s : State) : Host.Outcome State Fault Refusal :=
  .next (if s.stnUp n then s.modSt n (fun x => x.clrFlags mask) else s)

/-- CUT_ARM (R109): a write of STN_CUT_CTRL or of STN_CUT_AT_LO. -/
def execCutArm (n : StnId) (reg : CutReg) (value : Word) (s : State) : Host.Outcome State Fault Refusal :=
  .next (if s.stnUp n then
    (match reg with
      | .ctrl => s.writeCutCtrl n value
      | .atLo => s.writeCutAt n value)
    else s)

/-- CUT_FREEZE (R108, R110): a due freeze takes place at the end of the freeze cycle. -/
def execCutFreeze (n : StnId) (s : State) : Host.Outcome State Fault Refusal :=
  .next (if (s.st n).inFreezeCycle then s.freeze n false else s)

/-- CUT_RESUME (R112). -/
def execCutResume (n : StnId) (s : State) : Host.Outcome State Fault Refusal :=
  .next (if s.stnUp n then s.resume n else s)

/-- CUT_DATA_READ (R115). -/
def execCutDataRead (n : StnId) (s : State) : Host.Outcome State Fault Refusal :=
  .next (if s.stnUp n then let r := s.readCutData n; r.1.emit (.read .host (Reg.stnCutData n.val) r.2)
    else s.emit (.read .host (Reg.stnCutData n.val) 0))

end Sys2Proof.Machine
end

