-- ==== Sys2Proof/Machine/Units.lean ====
section
/-! DEFINITION. Units of the device: which of them answer (R9, R431), powering stations up and down, a change of role
(R383, R452), the regulators (R381), the fields that an image sets (R359), and the structure checks (R366). -/

namespace Sys2Proof.Machine

open Sys2Proof

/-! ### Which units answer -/

/-- The station whose block holds a BAR0 address. -/
def stnAt (a : Nat) : StnId := stnId ((a - 0x1000000) / 0x40000)

/-- The offset of a BAR0 address in its station's block. -/
def stnOff (a : Nat) : Nat := (a - 0x1000000) % 0x40000

/-- The address lies in a station's block. -/
def inStn (a : Nat) : Bool := decide (0x1000000 ≤ a ∧ a < 0x2000000)

/-- The unit of a BAR0 address is powered and released (R9, R430, R431): the blocks below 0x10_0000 with 3.3 V auxiliary (log
entry 41); the Crossing and the Wickets with the regulators on; the stacks from stage 3; a station once released. -/
def State.unitUp (s : State) (a : Nat) : Bool :=
  if a < 0x100000 then s.cur.aux
  else if a < 0x200000 then s.cur.regOn
  else if a < 0x300000 then s.cur.regOn && decide (3 ≤ s.stage)
  else if inStn a then s.cur.regOn && s.stnUp (stnAt a)
  else s.cur.regOn

/-- A write of the register at an address acts: its unit is up, or it is a station's role, by which it leaves OFF (R452), or
RUN, which is held until the release (R73). -/
def State.unitHears (s : State) (a : Nat) : Bool :=
  s.unitUp a ||
  (inStn a && s.cur.regOn && (stnOff a == 4 || (stnOff a == 8 && s.role (stnAt a) != 0)))

/-! ### Registers of a range lost -/

/-- The registers from `lo` below `hi` return to their reset values, but for those that `keep` names. -/
def State.wipe (s : State) (lo hi : Nat) (keep : Nat → Bool) : State :=
  let stay (e : Nat × Word) : Bool := decide (e.1 < lo) || decide (hi ≤ e.1) || keep e.1
  { s with regs := s.regs.filter stay, heldHi := s.heldHi.filter stay, capHi := s.capHi.filter stay }

/-- The first address of a station's block. -/
def stnBase (n : StnId) : Nat := 0x1000000 + 0x40000 * n.val

/-! ### Fields that an image sets (R359) -/

/-- The address lies in a window of a station's program memory (R71), whose reset the image gives. -/
def isProg (a : Nat) : Bool :=
  inStn a && (decide (0x10000 ≤ stnOff a ∧ stnOff a < 0x18000) || decide (0x20000 ≤ stnOff a ∧ stnOff a < 0x30000))

/-- The bits of the register at an address that the image gives. -/
def imgMask (a : Nat) : Word := match regRow a with | some r => r.img | none => 0

/-- The register at an address holds an img field. -/
def hasImg (a : Nat) : Bool := a % 4 == 0 && (isProg a || imgMask a != 0)

/-- The bytes of program memory behind a window address, with XS_PAGE for the XS window. -/
def State.putProg (s : State) (a : Nat) (bs : List Byte) : State :=
  let n := stnAt a
  let o := stnOff a
  if o < 0x18000 then s.modSt n (fun x => { x with asMem := Cells.write zeroByte x.asMem (o - 0x10000) bs })
  else
    let page := s.rf (Reg.stnXsPage n.val) 0 1
    s.modSt n (fun x => { x with xsMem := Cells.write zeroByte x.xsMem (o - 0x20000 + page * 0x10000) bs })

/-- One word that an image gives a register: its img fields take it, the others ignore it. -/
def State.imgWord (s : State) (a : Nat) (v : Word) : State :=
  if isProg a then s.putProg a (toLE 4 v.toNat)
  else s.setRg a ((s.rg a &&& ~~~(imgMask a)) ||| (v &&& imgMask a))

/-- The register writes of a record: pairs for REG, consecutive registers for BLOCK. -/
def ImgRec.writes (r : ImgRec) : List (Nat × Word) :=
  let ws := bytesToWords (r.body.length / 4) r.body
  if r.type = 1 then (List.range (ws.length / 2)).map (fun i => ((nth ws (2 * i) 0).toNat, nth ws (2 * i + 1) 0))
  else if r.type = 2 then ws.zipIdx.map (fun e => (r.target + 4 * e.2, e.1))
  else []

/-- A record's register writes whose addresses `p` selects. -/
def State.imgRegs (s : State) (r : ImgRec) (p : Nat → Bool) : State :=
  (r.writes.filter (fun e => p e.1)).foldl (fun t e => t.imgWord e.1 e.2) s

/-! ### Ports retrain -/

/-- A port starts training in its mode; in mode 0, at a station that STN-11 has fenced (R68), and after a Fatal event (R411) it
stays down. -/
def State.trainPort (s : State) (p : PortId) : State :=
  if s.portMode p = 0 || s.cat.fltFatal || decide ((s.st (stnOf p)).st = .fenced) then s.portDown p
  else
    let was := decide ((s.pt p).acc = .admitted)
    let s1 := (s.modPt p (fun x => { x with
      acc := .training, locked := false, creditOn := false, ident := none, nbr := none, cellBuf := [], early := [],
      gapAt := none })).prtStatus p 0 false
    (if was then (s1.partnerGone p).accEvent 1 else s1.partnerGone p).parents

/-- The two ports of a station. -/
def portsOf (n : StnId) : List PortId := [portId (2 * n.val), portId (2 * n.val + 1)]

/-! ### Stations -/

/-- The records of an image that give what has the reset img, registers and program memory (R12, R71), but not the Vitrine:
those that reach a station which leaves OFF (R452, log entry 116). -/
def ImgRec.regsOnly (r : ImgRec) : Option ImgRec := if r.type = 1 ∨ r.type = 2 then some r else none

/-- The Cloakroom of a station takes the layout that its registers state (R295). -/
def State.takeLayout (s : State) (n : StnId) : State :=
  let lay : Layout := ⟨s.rf (Reg.stnVitProg n.val) 0 8, (List.range 5).map (fun i => s.rf (Reg.stnClkPool n.val i) 0 16)⟩
  (List.range 5).foldl (fun t i => t.clkLow n i) (s.modSt n (fun x => { x with lay := lay }))

/-- A station is powered (R383, R452): its registers stand at their reset values but for the role and a RUN written before
(R73), then the records reach it, and its Cloakroom takes its layout (R295). -/
def State.powerStation (s : State) (n : StnId) (recs : List ImgRec) : State :=
  let s1 := (s.wipe (stnBase n) (stnBase n + 0x40000)
    (fun a => a == stnBase n + 4 || a == stnBase n + 8)).setSt n { Stn.reset with powered := true, st := (s.st n).st }
  let s2 := recs.foldl (fun t r => t.imgRegs r (fun a => inStn a && stnAt a == n && stnOff a != 4)) s1
  recs.foldl (fun t r =>
    if r.type = 3 ∧ r.target / 2 ^ 24 = n.val then
      t.modSt n (fun x => x.vitPut (r.target % 2 ^ 23) r.body) else t) (s2.takeLayout n)

/-- A released station whose RUN stands at 1 starts its streams (R73, R383). -/
def State.releaseStation (s : State) (n : StnId) : State :=
  let s1 := s.modSt n (fun x => { x with released := true, offTick := none })
  if s1.rbit (Reg.stnCtrl n.val) 0 && decide ((s1.st n).st = .idle) then s1.runStart n else s1

/-- A station goes to OFF (R452): streams stop, tiles are released and counted, accesses already issued complete, its
ports go down, and it is powered down with everything it held. -/
def State.stationOff (s : State) (n : StnId) : State :=
  let s1 := s.landAll n
  let voq := (s1.st n).voq
  let s2 := s1.addSat (Reg.stnDiscarded n.val) ((s1.st n).tileCount + voq.length)
  let s3 := (voq.foldl (fun t f => t.dropFrame n f) s2).dropLupin n
  let s4 := (s3.st n).bcopies.foldl (fun t _ => t.bcopyDone n 0) (s3.modSt n Stn.killCopies)
  let s5 := (portsOf n).foldl (fun t p => t.portDown p) s4
  let old := (s.st n).st = .fenced
  let s6 := (if old then s5 else s5.closeWindows (uStn n) (fun _ => true)).setSt n
    { Stn.reset with st := if old then .fenced else .idle }
  s6.wipe (stnBase n) (stnBase n + 0x40000) (fun a => a == stnBase n + 4)

/-- The power tick of a wave (R383). -/
def State.waveAt (s : State) (w : Nat) : Option Nat := s.clk.w0.map (fun t => t.toNat + 31250 * w)

/-- The registers of station `n` that entries of one commit write stand as the commit leaves them in `s` (R295, R452). -/
def State.keepEntries (t s : State) (n : StnId) (l : List (Nat × Word)) : State :=
  (l.filter (fun e => inStn e.1 && stnAt e.1 == n && stnOff e.1 != 4)).foldl (fun u e => u.setRg e.1 (s.rg e.1)) t

/-- A station leaves OFF after its wave (R452): RUN is 0, and it is powered with the registers that the image gives, with
those of the same commit, and with the layout that they state (R295). -/
def State.leaveOff (s : State) (n : StnId) (l : List (Nat × Word)) : State :=
  let t := ((s.setRg (Reg.stnCtrl n.val) 0).powerStation n (s.img.records.filterMap ImgRec.regsOnly)).keepEntries s n l
  (t.takeLayout n).modSt n (fun x => { x with offTick := some (s.ht + 31250) })

/-- A committed role takes effect with the entries `l` of its commit (R452). A station whose wave has not come is powered
by its wave. A station that STN-11 has fenced stays fenced (R68, R410), and a change between other roles retrains its
ports (log entry 117). -/
def State.setRole (s : State) (n : StnId) (v : Nat) (l : List (Nat × Word)) : State :=
  let old := s.role n
  let s1 := s.setRf (Reg.stnRole n.val) 0 2 v
  if old = v % 4 then s1
  else if v % 4 = 0 then s1.stationOff n
  else if old = 0 then
    let s2 := if (s.waveAt (n.val % 8)).any (fun t => decide (t ≤ s.ht.toNat)) then s1.leaveOff n l else s1
    if 4 ≤ s.stage then (portsOf n).foldl State.trainPort s2 else s2
  else if 4 ≤ s.stage then (portsOf n).foldl State.trainPort s1
  else s1

/-- ROLE_FROM_OFF_RELEASE (R452): 31,250 tk after its power-up the station is released. -/
def execRoleFromOffRelease (n : StnId) (s : State) : Host.Outcome State Fault Refusal :=
  .next (match (s.st n).offTick with
    | none => s
    | some t => if t.toNat ≤ s.ht.toNat ∧ (s.st n).powered then s.releaseStation n else s)

/-! ### The regulators -/

/-- Every bit of PRT_STATUS of a port clears, a change with its vector (Table 17.3). -/
def State.prtClear (s : State) (p : PortId) : State := (List.range 3).foldl (fun t i => t.prtStatus p i false) s

/-- The regulators are off: only the Curator domain stays up (R381, R431). What the other units held is lost: the record that
the ring held is in the tail alone (R406), and reads of BAR2 that wait complete with Completer Abort (R430). -/
def State.regulatorsOff (s : State) : State :=
  let s0 := s.bar2.foldl (fun t _ => t.emit (.completion 2 .completerAbort [])) s
  let s1 := allPorts.foldl (fun t p => (t.portDown p).prtClear p) s0
  let s2 := s1.wipe 0x100000 0x2800000 (fun a => inStn a && stnOff a == 4)
  { s2 with
    stn := Vector.replicate 64 Stn.reset
    stk := Vector.replicate 8 Stk.reset
    prt := Vector.replicate 128 Prt.reset
    dram := [], dramBad := [], bar2 := [], xbar := Xbar.reset
    buckets := [], redDisc := [], redWait := [], redStray := [], notices := [], stgUsed := [], expDisc := [], sit := Sittings.zero
    cat := { s2.cat with recs := s2.cat.recs.map (fun (r : CatRec) => { r with inRing := false }) }
    cur := { s2.cur with regOn := false, clocksOn := false, trained := false, rx := [] } }

/-! ### Structure checks (R366, Table 14.7) -/

/-- The register at an address belongs to row `i` of Table 14.7. -/
def rowRegister (i a : Nat) : Bool :=
  let cfg := decide (0x2000000 ≤ a ∧ a < 0x2800000) && (a - 0x2000000) % 0x10000 == 0
  let stn (lo hi : Nat) : Bool := inStn a && decide (lo ≤ stnOff a ∧ stnOff a ≤ hi)
  let crs (lo hi : Nat) : Bool := decide (0x100000 + lo ≤ a ∧ a ≤ 0x100000 + hi)
  match i with
  | 0 => cfg || stn 4 4
  | 1 => stn 4 4 || crs 0x40010 0x4001C
  | 2 => crs 0xC0100 0xC01BC
  | 3 => a == Reg.htParent
  | 4 => stn 0xE0 0xF4 || stn 0x100 0x100
  | 5 => stn 0x48 0x48 || stn 0x80 0x90
  | 6 => crs 0xC1000 0xC17FC
  | _ => decide (0x200000 ≤ a ∧ a < 0x300000) && (a - 0x200000) % 0x20000 == 4

/-- Settings under check: the value of every register, and the straps. -/
structure Settings where
  v    : Nat → Word
  rank : Nat
  root : Bool

/-- The role of a station. -/
def Settings.role (z : Settings) (n : Nat) : Nat := fld (z.v (Reg.stnRole n)) 0 2

/-- The slot bytes of CRS_RED_EPSTN (Table 6.8). -/
def Settings.slot (z : Settings) (e : Nat) : Nat := fld (z.v (Reg.crsRedEpstn (e / 4))) (8 * (e % 4)) 8

/-- The stations that link entries with NONE = 0 name. -/
def linkStns (l : List Word) : List Nat := (l.filter (fun w => !bitOf w 7)).map (fun w => fld w 0 6)

/-- Row link entries. -/
def Settings.rowLinks (z : Settings) : List Word := (List.range 16).map (fun q => z.v (Reg.crsRowLink q))

/-- Column link entries. -/
def Settings.colLinks (z : Settings) : List Word := (List.range 32).map (fun h => z.v (Reg.crsColLink h))

/-- The members of a multicast group. -/
def Settings.group (z : Settings) (m : Nat) : List Nat :=
  (List.range 128).filter (fun p => bitOf (z.v (Reg.crsMcg m (p / 32))) (p % 32))

/-- The mode of a port (R304). -/
def Settings.mode (z : Settings) (p : Nat) : Nat :=
  if z.role (p / 2) = 3 then fld (z.v (Reg.prtCfg p)) 0 2 else z.role (p / 2)

/-- The stations that serve a port (Table 12.1): with BUNDLE 2 both stations of its link. -/
def Settings.servers (z : Settings) (p : Nat) : List Nat :=
  if fld (z.v (Reg.prtCfg 0)) 2 2 = 2 then [p / 4 * 2, p / 4 * 2 + 1] else [p / 2]

/-- The largest COUNT of a pool (Table 11.5). -/
def poolMax (i : Nat) : Nat := nth [32768, 8192, 1927, 512, 128] i 0

/-- Row `i` of Table 14.7 holds. -/
def Settings.rowOk (z : Settings) (i : Nat) : Bool :=
  let n64 := List.range 64
  match i with
  | 0 =>
    let b := fld (z.v (Reg.prtCfg 0)) 2 2
    decide (b ≤ 2) && (List.range 128).all (fun p => fld (z.v (Reg.prtCfg p)) 2 2 == b) &&
      (b != 2 || (List.range 32).all (fun m => z.role (2 * m) == z.role (2 * m + 1)))
  | 1 =>
    let used := ((List.range 16).map z.slot).filter (fun b => b / 128 % 2 == 0)
    decide ((n64.filter (fun n => z.role n == 2)).length ≤ 16) && used.all (fun b => z.role (b % 64) == 2) &&
      decide ((used.map (fun b => b % 64)).Nodup)
  | 2 =>
    (linkStns z.rowLinks).all (fun n => z.role n == 1) && (linkStns z.colLinks).all (fun n => z.role n == 1) &&
      bitOf (z.v (Reg.crsRowLink (z.rank % 16))) 7 && bitOf (z.v (Reg.crsColLink (z.rank / 16))) 7
  | 3 =>
    let h := z.v Reg.htParent
    z.root || (z.role (fld h 0 7 / 2) == 1 && z.role (fld h 8 7 / 2) == 1)
  | 4 =>
    n64.all (fun n =>
      let w := (List.range 6).map (fun j => z.v (Reg.stnIngPool n j))
      let blocks := (w.map (fun x => fld x 0 10)).foldl (· + ·) 0
      let hdrs := (w.map (fun x => fld x 16 10)).foldl (· + ·) 0
      decide (blocks ≤ 963) && decide (blocks + hdrs + fld (z.v (Reg.stnXqAs n)) 0 8 ≤ 4096))
  | 5 =>
    n64.all (fun n =>
      let prog := fld (z.v (Reg.stnVitProg n)) 0 8
      let cnt := (List.range 5).map (fun i => fld (z.v (Reg.stnClkPool n i)) 0 16)
      decide (prog ≤ 128) && cnt.zipIdx.all (fun e => decide (e.1 ≤ poolMax e.2)) &&
        decide (prog * 65536 + (cnt.zipIdx.map (fun e => e.1 * poolSize e.2)).foldl (· + ·) 0 ≤ 2 ^ 23))
  | 6 =>
    (List.range 128).all (fun m =>
      let f := (z.group m).filter (fun p => z.mode p == 1)
      let on (l : List Nat) : Bool := f.all (fun p => (z.servers p).any l.contains)
      on (linkStns z.rowLinks) || on (linkStns z.colLinks))
  | _ =>
    let l := (List.range 8).map (fun k => fld (z.v (Reg.memMap k)) 0 7)
    l.all (fun x => decide (x ≤ 64) && x == nth l 0 0)

/-- The settings of the device with some registers replaced. -/
def State.settings (s : State) (v : Nat → Word) : Settings := ⟨v, s.rank, s.rbit Reg.pltStrap 12⟩

end Sys2Proof.Machine
end

