-- ==== Sys2Proof/Machine/Images.lean ====
section
/-! DEFINITION. Evobry images (R355 to R367, R393): their format, the verification in the order of Table 14.5, boot,
acceptance, loads over PCIe and the Plinth pins, and the attestation report. -/

namespace Sys2Proof.Machine

open Sys2Proof

/-! ### Flash and slots (R355, R356) -/

/-- The size of an image slot. -/
def slotSize : Nat := 0x4000000

/-- A byte of flash (Table 14.1): the firmware region as it was manufactured, and what has been written elsewhere. -/
def State.flashByte (s : State) (o : Nat) : Byte :=
  if 0x8000000 ≤ o ∧ o < 0x9000000 then Config.firmwareFlash o else Cells.get zeroByte s.flash o

/-- `n` bytes of flash. -/
def State.flashRead (s : State) (o n : Nat) : List Byte :=
  if o + n ≤ 0x8000000 ∨ 0x9000000 ≤ o then Cells.read zeroByte s.flash o n else (List.range n).map (fun i => s.flashByte (o + i))

/-- A word of flash. -/
def State.flashWord (s : State) (o : Nat) : Word := word (ofLE (s.flashRead o 4))

/-- The booted slot's default, GLB_SLOT.ACTIVE. -/
def State.activeSlot (s : State) : Nat := s.rf Reg.glbSlot 0 1

/-- What a copy of the slot table holds (R356): GLB_SLOT, FLOOR, and the number of the writing. -/
structure SlotTable where
  slot  : Word
  floor : Nat
  num   : Nat
  deriving DecidableEq, Repr

/-- The flash offset of copy `k` of the slot table (log entry 79). -/
def tableAt (k : Nat) : Nat := 0x9000000 + k * 0x8000

/-- The first twelve bytes of a copy. -/
def SlotTable.bytes (t : SlotTable) : List Byte := toLE 4 t.slot.toNat ++ toLE 4 t.floor ++ toLE 4 t.num

/-- A copy of the slot table whose CRC-32 holds. -/
def State.tableCopy (s : State) (k : Nat) : Option SlotTable :=
  let b := Cells.read zeroByte s.flash (tableAt k) 16
  if crc32 (b.take 12) = leAt b 12 4 then some ⟨word (leAt b 0 4) &&& 0x1F, leAt b 4 4 % 2 ^ 16, leAt b 8 4⟩ else none

/-- The copy in force: of those whose CRC holds, the one written last (R356); its number among the two, and its contents. -/
def State.lastTable (s : State) : Option (Nat × SlotTable) :=
  match s.tableCopy 0, s.tableCopy 1 with
  | some a, some b => if a.num < b.num then some (1, b) else some (0, a)
  | some a, none => some (0, a)
  | none, some b => some (1, b)
  | none, none => none

/-- The Curator writes the slot table over the copy not in force. -/
def State.saveTable (s : State) : State :=
  let k := match s.lastTable with | some e => 1 - e.1 | none => 0
  let n := match s.lastTable with | some e => e.2.num + 1 | none => 1
  let b := (SlotTable.mk (s.rg Reg.glbSlot) s.img.floor n).bytes
  { s with flash := Cells.write zeroByte s.flash (tableAt k) (b ++ toLE 4 (crc32 b)) }

/-- GLB_SLOT and FLOOR take what the slot table in flash holds, 0 where neither copy is good (R356, R375, log entry 79). -/
def State.loadTable (s : State) : State :=
  let t := match s.lastTable with | some e => e.2 | none => ⟨0, 0, 0⟩
  ({ s with img := { s.img with floor := t.floor } }.setRg Reg.glbSlot t.slot).setRf Reg.glbImgSecver 16 16 t.floor

/-- A field of GLB_SLOT takes a value, in the slot table too. -/
def State.setSlot (s : State) (lo v : Nat) : State := (s.setRf Reg.glbSlot lo 1 v).saveTable

/-- VALID of a slot takes a value. -/
def State.setValid (s : State) (k : Nat) (b : Bool) : State := s.setSlot (3 + k) (b2n b)

/-! ### Format (R357 to R359) -/

/-- A parsed record: type, target, the scope's masks and values, its payload, whether its header is well formed. -/
structure RawRec where
  type : Nat
  scope : Word
  target : Nat
  body : List Byte
  okHeader : Bool
  deriving DecidableEq, Repr

/-- The records from offset `o` of an image of `len` bytes, at most `k`; none where they do not tile it. -/
def parseRecs (b : List Byte) (len : Nat) : Nat → Nat → Option (List RawRec)
  | 0, _ => none
  | k + 1, o =>
    if o = len then some []
    else if len < o + 16 then none
    else
      let w0 := leAt b o 4
      let n := leAt b (o + 4) 4
      let w2 := word (leAt b (o + 8) 4)
      let next := o + 16 + (n + 15) / 16 * 16
      if len < next then none
      else
        match parseRecs b len k next with
        | none => none
        | some l =>
          some (⟨w0 % 256, w2, fld w2 24 8 * 2 ^ 32 + leAt b (o + 12) 4, slice b (o + 16) n,
            decide (w0 < 256) && fld w2 18 6 == 0 && n % 4 == 0⟩ :: l)

/-- The record applies to strap coordinates (g, p) (R358). -/
def RawRec.applies (r : RawRec) (g p : Nat) : Bool :=
  (g &&& fld r.scope 5 5) == (fld r.scope 0 5 &&& fld r.scope 5 5) &&
  (p &&& fld r.scope 14 4) == (fld r.scope 10 4 &&& fld r.scope 14 4)

/-- The record as one to apply. -/
def RawRec.toRec (r : RawRec) : ImgRec := ⟨r.type, r.target, r.body⟩

/-- R358 and R359 hold for a record: the type is known, the register targets hold img fields, DRAM lies in range. -/
def RawRec.good (r : RawRec) : Bool :=
  let n := r.body.length
  r.okHeader &&
  (match r.type with
   | 1 => r.target == 0 && n % 8 == 0 && (r.toRec.writes).all (fun e => hasImg e.1)
   | 2 => r.target % 4 == 0 && (r.toRec.writes).all (fun e => hasImg e.1)
   | 3 => decide (r.target < 2 ^ 30) && r.target / 2 ^ 23 % 2 == 0
   | 4 => r.target % 64 == 0 && decide (r.target + n ≤ dramSize)
   | 5 => r.target % 64 == 0 && n == 4 && leAt r.body 0 4 % 64 == 0 && decide (r.target + leAt r.body 0 4 ≤ dramSize)
   | 255 => r.target == 0 && n == 296 && fld r.scope 5 5 == 0 && fld r.scope 14 4 == 0
   | _ => false)

/-- The settings that the applied records give, on reset values (R359). -/
def State.imgSettings (s : State) (l : List ImgRec) : Settings :=
  let t := l.foldl (fun u r => u.imgRegs r (fun a => !isProg a)) { s with regs := [] }
  s.settings (fun a => t.rg a)

/-! ### Verification (R361, Table 14.5) -/

/-- A refusal: the code, REFUSE, and the record index where one applies. -/
structure Refused where
  code   : Code
  refuse : Nat
  record : Nat
  deriving DecidableEq, Repr

/-- An image's header fields (Table 14.2). -/
structure ImgHead where
  len     : Nat
  nrec    : Nat
  id      : Word
  ver     : Word
  secver  : Nat
  owner   : Word
  g       : Nat
  p       : Nat
  rootG   : Nat
  rootP   : Nat
  floorUp : Bool
  deriving DecidableEq, Repr

/-- The header of an image. -/
def imgHead (b : List Byte) : ImgHead :=
  let w (i : Nat) : Word := word (leAt b (4 * i) 4)
  ⟨(w 2).toNat, (w 3).toNat, w 4, w 5, fld (w 6) 0 16, w 7, fld (w 8) 0 6, fld (w 8) 8 5, fld (w 8) 16 5, fld (w 8) 24 4,
    bitOf (w 1) 16⟩

/-- Step 1: MAGIC, FORMAT, LENGTH, reserved bits. -/
def headOk (b : List Byte) : Bool :=
  let w (i : Nat) : Word := word (leAt b (4 * i) 4)
  let h := imgHead b
  w 0 == 0x59425645 && fld (w 1) 0 16 == 1 && fld (w 1) 17 15 == 0 && h.len % 16 == 0 &&
  decide (384 ≤ h.len ∧ h.len ≤ slotSize) && fld (w 6) 16 16 == 0 && w 8 &&& 0xF0E0E0C0 == 0 &&
  (List.range 7).all (fun i => w (9 + i) == 0)

/-- A power of two of at most `n`. -/
def pow2Upto (v n : Nat) : Bool := decide (v ≤ n) && (List.range 6).any (fun k => v == 2 ^ k)

/-- An image of `b` bytes is verified; the refusal, if any. -/
def State.verify (s : State) (b : List Byte) : Option Refused :=
  let h := imgHead b
  let sig := h.len - 304
  let part (o n : Nat) : List Byte := slice b (sig + o) n
  let bad (c : Code) (n : Nat) (r : Nat := 0xFFFF) : Option Refused := some ⟨c, n, r⟩
  if !headOk b then bad ⟨.cfg, 1⟩ 0x01
  else if leAt b (h.len - 320) 4 % 256 ≠ 0xFF ∨ leAt b (h.len - 316) 4 ≠ 296 ∨
      !ecdsaVerify Config.rootKey (sha384 (part 0 104)) (part 104 96) then bad ⟨.sec, 1⟩ 0x11
  else if leAt b sig 4 ≠ h.owner.toNat ∨ (Config.ownerId ≠ 0 ∧ Config.ownerId ≠ h.owner) then bad ⟨.sec, 4⟩ 0x14
  else if !ecdsaVerify (part 4 97) (sha384 (slice b 0 (h.len - 104))) (part 200 96) then bad ⟨.sec, 2⟩ 0x12
  else if h.secver < s.img.floor then bad ⟨.sec, 3⟩ 0x13
  else match parseRecs b h.len (h.len / 16 + 1) 64 with
    | none => bad ⟨.cfg, 2⟩ 0x02
    | some recs =>
      let g := s.rank / 16
      let p := s.rank % 16
      let mine := (recs.filter (fun r => r.applies g p && r.type != 255)).map RawRec.toRec
      let z := s.imgSettings mine
      let fits (r : RawRec) : Bool :=
        !(r.type == 3 && r.applies g p) ||
          decide (r.target % 2 ^ 23 + r.body.length ≤ fld (z.v (Reg.stnVitProg (r.target / 2 ^ 24))) 0 8 * 65536)
      let last := recs.length - 1
      match recs.zipIdx.find? (fun e => !(e.1.good && fits e.1 && ((e.1.type == 255) == (e.2 == last)))) with
      | some e => bad ⟨.cfg, 2⟩ 0x02 e.2
      | none =>
        if recs.length ≠ h.nrec then bad ⟨.cfg, 2⟩ 0x02
        else if !(pow2Upto h.g 32 && pow2Upto h.p 16 && s.rbit Reg.pltStrap 13 && decide (g < h.g) && decide (p < h.p) &&
            (s.rbit Reg.pltStrap 12 == (g == h.rootG && p == h.rootP))) then bad ⟨.cfg, 3⟩ 0x03
        else if (List.range 8).all z.rowOk then none
        else bad ⟨.cfg, 4⟩ 0x04

/-! ### Acceptance (R363, R394) -/

/-- An image is refused: its code, REFUSE and RECORD. -/
def State.refuseImage (s : State) (r : Refused) : State :=
  ((s.setRf Reg.glbImgStatus 8 8 r.refuse).setRf Reg.glbImgStatus 16 16 r.record).raise r.code uDevice []

/-- FLOOR takes a value, and GLB_IMG_SECVER shows it. -/
def State.setFloor (s : State) (v : Nat) : State :=
  ({ s with img := { s.img with floor := v } }.setRf Reg.glbImgSecver 16 16 v).saveTable

/-- TRY_PENDING and TRY_SLOT of GLB_SLOT. -/
def State.setTry (s : State) (k : Nat) : State := (s.setSlot 1 1).setSlot 2 k

/-- A slot becomes ACTIVE; with FLOOR_UP its SECVER becomes the floor (R365). -/
def State.makeActive (s : State) (k : Nat) : State :=
  let h := imgHead (s.flashRead (k * slotSize) 64)
  let s1 := s.setSlot 0 k
  if h.floorUp ∧ s.img.floor < h.secver then s1.setFloor h.secver else s1

/-- Phase C begins (R394): outputs stay undriven for 100 us and inputs unread for 1 ms. -/
def State.beginPhaseC (s : State) : State :=
  let s1 := (s.setRf Reg.pltPhase 0 2 2).setRf Reg.pltPhase 2 1 1
  { s1 with plt := { s1.plt with phaseC := some s1.cycle, phb := false, ack := false, err := false, driven := false,
                                 reading := false, passAt := none } }

/-- Station registers that act before their station is powered: the role, which fixes the mode of its ports (R47), and
the ingress pools, whose budgets its Wickets grant as credit from stage 4 on (R292, R320, Table 15.4). -/
def earlyReg (a : Nat) : Bool :=
  stnOff a == 4 || (List.range 6).any (fun i => a == Reg.stnIngPool (stnAt a).val i)

/-- The fields that an image gives return to 0 where no record of it will set them (R12, R359), of the registers that `p`
selects. -/
def State.clearImg (s : State) (p : Nat → Bool) : State :=
  (s.regs.filter (fun e => p e.1)).foldl (fun t e => t.setRg e.1 (t.rg e.1 &&& ~~~(imgMask e.1))) s

/-- The image of a slot is accepted. The register records of units outside the stations take effect now, those of a
station at its power-up, DRAM's at stage 4. CFG-05 is released (Table 16.2). -/
def State.accept (s : State) (k : Nat) (tried : Bool) : State :=
  let h := imgHead (s.flashRead (k * slotSize) 64)
  let b := s.flashRead (k * slotSize) h.len
  let recs := (((parseRecs b h.len (h.len / 16 + 1) 64).getD []).filter
    (fun r => r.applies (s.rank / 16) (s.rank % 16) && r.type != 255)).map RawRec.toRec
  let meas := sha384 b
  let s1 := ((s.setRf Reg.glbImgStatus 0 3 3).setRf Reg.glbImgStatus 3 1 k).setRg Reg.glbImgId h.id
  let s2 := (s1.setRg Reg.glbImgVer h.ver).setRg Reg.glbImgSecver (word (h.secver + s.img.floor * 2 ^ 16))
  let s3 := (List.range 12).foldl (fun t i => t.setRg (Reg.glbImgMeas i) (word (leAt meas (4 * i) 4))) s2
  let s4 := { s3 with img := { s3.img with
    booted := some k, tried := tried, g := h.g, p := h.p, rootG := h.rootG, rootP := h.rootP, floorUp := h.floorUp,
    secver := h.secver, ids := [h.owner, h.id, h.ver], marks := (List.range 64).filter (Config.imageMark b),
    records := recs } }
  let s5 := recs.foldl (fun t r => t.imgRegs r (fun a => !inStn a || earlyReg a))
    (s4.clearImg (fun a => !inStn a || earlyReg a))
  (s5.parents.beginPhaseC).closeWindows uDevice (fun c => c == (⟨.cfg, 5⟩ : Code))

/-- A slot is tried (R362): verified, and accepted or refused. -/
def State.trySlot (s : State) (k : Nat) (tried : Bool) : State :=
  if s.img.booted.isSome then s
  else
    let h := imgHead (s.flashRead (k * slotSize) 64)
    let s1 := s.setRf Reg.glbImgStatus 0 3 2
    match s1.verify (s.flashRead (k * slotSize) (min slotSize h.len)) with
    | some r => s1.refuseImage r
    | none => (s1.setValid k true).accept k tried

/-- The Curator seeks an image: TRY_SLOT when it is pending, ACTIVE, the other slot; else it waits (R362). -/
def State.seek (s : State) : State :=
  let pending := s.rbit Reg.glbSlot 1
  let s1 := if pending then s.setSlot 1 0 else s
  let s2 := if pending then s1.trySlot (s.rf Reg.glbSlot 2 1) true else s1
  let s3 := s2.trySlot (s2.activeSlot) false
  let s4 := s3.trySlot (1 - s3.activeSlot) false
  if s4.img.booted.isSome then s4
  else (s4.setRf Reg.glbImgStatus 0 3 4).raise ⟨.cfg, 5⟩ uDevice []

/-- The flash offset of a firmware copy (Table 14.1). -/
def firmwareAt (k : Nat) : Nat := 0x8000000 + k * 0x800000

/-- CURATOR_BOOT (R362): the boot ROM takes the first firmware copy that its check passes; the Curator runs and seeks an
image. With neither copy the Curator does not run (SEC-05). -/
def execCuratorBoot (s : State) : Host.Outcome State Fault Refusal :=
  .next (if s.stage ≠ 1 ∨ s.curReady ∨ !s.cur.aux then s
    else
      let ok (k : Nat) : Bool := Config.firmwareOk k (s.flashRead (firmwareAt k) 0x800000)
      if !ok 0 && !ok 1 then s.raise ⟨.sec, 5⟩ uDevice []
      else
        let k := if ok 0 then 0 else 1
        let s1 := s.setRg Reg.curInfo (word ((Config.firmwareVersion k).toNat % 2 ^ 16 + k * 2 ^ 16))
        let s2 := { (s1.setRf Reg.curStatus 0 1 1) with cur := { s1.cur with bootAt := s.cycle, fwCopy := k } }
        (s2.setRf Reg.glbImgStatus 0 3 1).seek)

/-! ### Loads (R364, R365) -/

/-- GLB_IMG_LOADST: BUSY takes a value. -/
def State.setBusy (s : State) (b : Bool) : State := s.setRf Reg.glbImgLoadst 0 1 (b2n b)

/-- SEQ_ERR sets. -/
def State.seqErr (s : State) : State := s.setRf Reg.glbImgLoadst 3 1 1

/-- DONE or FAIL sets, with vector 71. -/
def State.loadBit (s : State) (i : Nat) : State := s.setStatus Reg.glbImgLoadst i 71

/-- The target slot of a load (R364). -/
def State.targetSlot (s : State) : Nat :=
  match s.img.booted with
  | some k => 1 - k
  | none => if !s.rbit Reg.glbSlot 3 then 0 else if !s.rbit Reg.glbSlot 4 then 1 else 0

/-- A load starts from a source. -/
def State.startLoad (s : State) (src : LoadSrc) : State :=
  let k := s.targetSlot
  let s1 := ((s.setRg Reg.glbImgLoadst 0).setValid k false).setRf Reg.glbImgStatus 4 2 (if src = .pcie then 1 else 2)
  let s2 := if s.img.booted.isNone then s1.setRf Reg.glbImgStatus 0 3 5 else s1
  { s2 with img := { s2.img with load := some ⟨src, k, 0, false, false⟩ } }

/-- Bytes appended to the load's slot. -/
def State.appendLoad (s : State) (l : ImgLoad) (bs : List Byte) : State :=
  { s with
    flash := Cells.write zeroByte s.flash (l.slot * slotSize + l.bytes) bs
    img := { s.img with load := some { l with bytes := l.bytes + bs.length } } }

/-- IMG_LOAD_START (R364, R393): ignored with SEQ_ERR while BUSY or while a Plinth load runs. -/
def State.loadStart (s : State) : State :=
  let plinth := match s.img.load with | some l => decide (l.src = .plinth) | none => false
  if !s.curReady then s else if s.rbit Reg.glbImgLoadst 0 || plinth then s.seqErr else s.startLoad .pcie

/-- IMG_PUSH (R364): the window's first bytes join the image. -/
def State.push (s : State) (v : Word) : State :=
  let n := fld v 0 16
  match s.img.load with
  | some l =>
    if l.src = .pcie ∧ !l.ended ∧ !s.rbit Reg.glbImgLoadst 0 ∧ n % 4 = 0 ∧ 4 ≤ n ∧ n ≤ 32768 ∧ l.bytes + n ≤ slotSize then
      (s.appendLoad l (Cells.read zeroByte s.img.window 0 n)).setBusy true
    else s.seqErr
  | none => s.seqErr

/-- IMG_LOAD_END (R364). -/
def State.loadEnd (s : State) (try_ : Bool) : State :=
  match s.img.load with
  | some l =>
    if l.src = .pcie ∧ !l.ended ∧ !s.rbit Reg.glbImgLoadst 0 then
      let s1 := { s with img := { s.img with load := some { l with ended := true, try_ := try_ } } }
      (if s.img.booted.isNone then s1.setRf Reg.glbImgStatus 0 3 2 else s1).setBusy true
    else s.seqErr
  | none => s.seqErr

/-- A Plinth load fails (R393): ERR until FRAME next rises, PLT-04, FAIL. -/
def State.plinthFail (s : State) : State :=
  let s1 := { s with plt := { s.plt with err := true, ack := false, passAt := none }, img := { s.img with load := none } }
  ((s1.loadBit 2).setRf Reg.glbImgStatus 0 3 4).raise ⟨.plt, 4⟩ (uPin 5) []

/-- A Plinth load has signalled its pass, ACK and ERR both high, for 10 us (R393). -/
def State.passed (s : State) : Bool := s.plt.passAt.any (fun t => decide (t + 12500 ≤ s.cycle))

/-- A load that verifies takes effect (R365): with no image running its slot becomes ACTIVE and is accepted; else it becomes
TRY_SLOT or ACTIVE. -/
def State.loadPasses (s : State) (l : ImgLoad) : State :=
  let s1 := (({ s with img := { s.img with load := none } }.setBusy false).setValid l.slot true).loadBit 1
  if s.img.booted.isNone then (s1.makeActive l.slot).accept l.slot false
  else if l.try_ then s1.setTry l.slot
  else s1.makeActive l.slot

/-- IMG_VERIFY_COMPLETE (R361, R365). A Plinth load that passes signals it for 10 us before it is accepted (R393). -/
def execImgVerifyComplete (s : State) : Host.Outcome State Fault Refusal :=
  .next (match s.img.load with
    | none => s
    | some l =>
      if !l.ended then s
      else if s.plt.passAt.isSome then (if s.passed then s.loadPasses l else s)
      else
        let h := imgHead (s.flashRead (l.slot * slotSize) 64)
        let s0 := { s with img := { s.img with load := none } }.setBusy false
        match s0.verify (s.flashRead (l.slot * slotSize) (min slotSize h.len)) with
        | some r =>
          let s1 := s0.refuseImage r
          if l.src = .plinth then s1.plinthFail
          else
            let s2 := s1.loadBit 2
            if s.img.booted.isNone then s2.setRf Reg.glbImgStatus 0 3 4 else s2
        | none =>
          if l.src = .plinth then { s with plt := { s.plt with ack := true, err := true, passAt := some s.cycle } }
          else s.loadPasses l)

/-- IMG_LOAD_START (R364). -/
def execImgLoadStart (s : State) : Host.Outcome State Fault Refusal := .next s.loadStart

/-- IMG_PUSH (R364). -/
def execImgPush (value : Word) (s : State) : Host.Outcome State Fault Refusal := .next (s.push value)

/-- IMG_LOAD_END (R364). -/
def execImgLoadEnd (tryBit : Bool) (s : State) : Host.Outcome State Fault Refusal := .next (s.loadEnd tryBit)

/-- IMG_LOAD_BUSY_CLEAR (R364): the piece is in the slot. -/
def execImgLoadBusyClear (s : State) : Host.Outcome State Fault Refusal :=
  .next (match s.img.load with
    | some l => if l.src = .pcie ∧ !l.ended then s.setBusy false else s
    | none => s)

/-- CONFIRM (R365): a tried slot that was accepted becomes ACTIVE. -/
def State.confirm (s : State) : State :=
  match s.img.booted with
  | some k => if s.img.tried then s.makeActive k else s
  | none => s

/-- IMG_CONFIRM (R365). -/
def execImgConfirm (s : State) : Host.Outcome State Fault Refusal := .next s.confirm

/-! ### The Plinth load (R393) -/

/-- Phase B with the Curator running. -/
def State.phaseB (s : State) : Bool := s.rf Reg.pltPhase 0 2 == 1 && s.curReady

/-- PLINTH_FRAME_RISE (R393): ERR clears and a load starts; while a PCIe load is under way it fails. -/
def execPlinthFrameRise (s : State) : Host.Outcome State Fault Refusal :=
  .next (if !s.phaseB || s.plt.passAt.isSome then s
    else match s.img.load with
      | some l =>
        if l.src = .pcie then
          { s with plt := { s.plt with err := true, ack := false } }.raise ⟨.plt, 4⟩ (uPin 5) []
        else { (s.startLoad .plinth) with plt := { s.plt with err := false, ack := true } }
      | none => { (s.startLoad .plinth) with plt := { s.plt with err := false, ack := true } })

/-- PLINTH_BLOCK_RECEIVE (R393): the block joins the image, and ACK is high again when the device can take the next. -/
def execPlinthBlockReceive (block : List Byte) (s : State) : Host.Outcome State Fault Refusal :=
  .next (match s.img.load with
    | some l =>
      if l.src = .plinth ∧ !l.ended ∧ s.plt.ack ∧ l.bytes + 4096 ≤ slotSize then s.appendLoad l (block.take 4096) else s
    | none => s)

/-- PLINTH_FRAME_FALL (R393): the load ends and is verified, or fails when LENGTH bytes have not arrived. -/
def execPlinthFrameFall (s : State) : Host.Outcome State Fault Refusal :=
  .next (match s.img.load with
    | some l =>
      if l.src ≠ .plinth ∨ l.ended then s
      else if l.bytes < 64 ∨ l.bytes < (imgHead (s.flashRead (l.slot * slotSize) 64)).len then s.plinthFail
      else
        { s with img := { s.img with load := some { l with ended := true } } }.setRf Reg.glbImgStatus 0 3 2
    | none => s)

/-! ### Attestation (R367, Table 14.8) -/

/-- Bytes 0 to 191 of the report, for a nonce of 32 bytes. -/
def State.reportBody (s : State) (nonce : List Byte) : List Byte :=
  let slot := s.img.booted.getD 0
  toLE 4 0x54415645 ++ toLE 4 1 ++ toLE 8 Config.serial.toNat ++ toLE 8 s.ht.toNat ++
  toLE 4 (s.rank / 16 + s.rank % 16 * 2 ^ 8 + b2n (s.rbit Reg.pltStrap 12) * 2 ^ 16 + slot * 2 ^ 24) ++
  toLE 4 (s.img.secver + s.img.floor * 2 ^ 16) ++ fit 32 nonce ++
  wordsToBytes ((List.range 12).map (fun i => s.rg (Reg.glbImgMeas i))) ++
  fit 48 (sha384 (s.flashRead (firmwareAt s.cur.fwCopy) 0x800000)) ++ fit 12 (wordsToBytes s.img.ids) ++ zeros 20

/-- The signed report of 288 bytes. -/
def State.report (s : State) (nonce : List Byte) : List Byte :=
  let b := s.reportBody nonce
  b ++ fit 96 (Config.sign (sha384 b))

end Sys2Proof.Machine
end

