-- ==== Sys2Proof/Machine/Power.lean ====
section
/-! DEFINITION. Resets (R391, R425, R435, R444), start-up (R382, R383, R394), input power and the derating ladder
(R381, R384, R385), thermal limits (R387), coolant (R389, R390), and the phase C inputs (R395, R396). -/

namespace Sys2Proof.Machine

open Sys2Proof

/-! ### Resets -/

/-- The state after 3.3 V auxiliary is applied (R391): every register at its reset value; flash keeps its bytes, and the slot
table there gives GLB_SLOT and FLOOR (R356). -/
def State.powerOn (s : State) : State :=
  { State.reset with pending := s.pending, out := s.out, free := s.free, flash := s.flash }.loadTable

/-- POWER_ON_RESET (R391). -/
def execPowerOnReset (s : State) : Host.Outcome State Fault Refusal := .next s.powerOn

/-- AUX_POWER_LOSS (R444): the regulators go off, and the Curator domain is lost; no record is formed. -/
def execAuxPowerLoss (s : State) : Host.Outcome State Fault Refusal :=
  .next (let t := s.powerOn.emit .switchedOff; { t with cur := { t.cur with aux := false } })

/-- The regulators go off, and the device shows it. -/
def State.cutPower (s : State) : State := if s.cur.regOn then s.regulatorsOff.emit .switchedOff else s

/-- A PCIe load under way is abandoned with FAIL (R425). -/
def State.abandonLoad (s : State) : State :=
  match s.img.load with
  | some l =>
    if l.src = .pcie then
      let s1 := ({ s with img := { s.img with load := none } }.setBusy false).loadBit 2
      if s.img.booted.isNone then s1.setRf Reg.glbImgStatus 0 3 4 else s1
    else s
  | none => s

/-- A requester's transaction is discarded (R374). -/
def Txn.drop (t : Txn) : Txn := { t with st := .none, entries := [] }

/-- PCIE_RESET (R425, R439): configuration space, MSI-X, GLB_IRQ_EN, GLB_APERTURE and GLB_VIT_SEL return to their reset
values, an OPEN or FAILED host transaction is rolled back, a PCIe load is abandoned; the reads under way have no one to
answer. The link keeps what it has trained to in a Function Level Reset, else it trains anew (R423). -/
def execPcieReset (cause : PcieRestart) (s : State) : Host.Outcome State Fault Refusal :=
  .next (
    let gone (a : Nat) : Bool :=
      decide (Reg.glbMsix 0 ≤ a) || decide (Reg.glbIrqEn 0 ≤ a ∧ a ≤ Reg.glbIrqEn 7) || a == Reg.glbAperture || a == Reg.glbVitSel
    let s1 := s.wipe 0 0x5020 (fun a => !gone a)
    let s2 := { s1 with
      bar2 := [], pcie := { Pcie.reset with link := if cause.cause = PcieCause.flr then s.pcie.link else cause.link }
      txnHost := if s1.txnHost.st = TxnState.open_ ∨ s1.txnHost.st = TxnState.failed then s1.txnHost.drop
      else s1.txnHost }
    s2.abandonLoad)

/-- STAGE takes a value (Table 15.4). -/
def State.setStage (s : State) (v : Nat) : State := s.setRf Reg.pwrStatus 0 3 v

/-- Phase B begins with the Curator's reset release (R391, R393, R440). -/
def State.beginPhaseB (s : State) : State :=
  let s1 := s.setRg Reg.pltPhase 1
  { s1 with
    plt := { Plt.reset with phb := true, hold := s.plt.hold, leak := s.plt.leak, flow := s.plt.flow }
    cur := { s1.cur with relAt := s1.cycle } }

/-- A follower is unaligned and holds over from reset release; on the root ALIGNED is 1 (R28, R32). -/
def State.timeAtReset (s : State) : State :=
  if s.isRoot then (s.setAligned true).setHoldover false
  else
    let s1 := s.setAligned false
    { s1 with clk := { s1.clk with alignedYet := false } }.setHoldover true

/-- A warm reset (R32, R435): stations and ports stop and every unit outside the Curator domain loses what it held;
both transactions are discarded; hall time counts on; start-up begins again at phase B. -/
def State.warmReset (s : State) : State :=
  let s1 := s.abandonLoad
  let s2 := (s1.cutPower.wipe 0x1000000 0x2000000 (fun _ => false)).setStep 3
  let z (t : State) (a : Nat) : State := (t.setRg a (regReset a)).setRg (a + 4) (regReset (a + 4))
  let s3 := ((z (z s2 Reg.htStepOpenLo) Reg.htStepCloseLo).setRg Reg.htStepPeriod (regReset Reg.htStepPeriod)).setRf
    Reg.htStatus 2 1 0
  let s4 := { s3 with
    txnHost := s3.txnHost.drop, txnCur := s3.txnCur.drop, heldHi := [],
    clk := { Clock.reset with tsyncRef := s3.clk.tsyncRef, lastSlew := s3.clk.lastSlew, warm := true },
    cur := { s3.cur with mail := none, rx := [], mirrors := [], mirWait := [], engOff := Vector.replicate 16 false },
    img := { Img.reset with floor := s3.img.floor } }
  let s5 := ((s4.setRf Reg.curStatus 0 1 0).setRf Reg.glbImgStatus 0 3 0).timeAtReset
  (s5.setStage 1).beginPhaseB

/-- A write of GLB_CTRL (Table 17.6). Without 3.3 V auxiliary no reset starts anything (R444). -/
def State.writeGlbCtrl (s : State) (v : Word) : State :=
  if fld v 0 16 = 0x5752 ∧ bitOf v 16 ∧ s.cur.aux then s.warmReset else s

/-- WARM_RESET (R435): ignored without the KEY. -/
def execWarmReset (value : Word) (s : State) : Host.Outcome State Fault Refusal := .next (s.writeGlbCtrl value)

/-! ### Straps (R392) -/

/-- The trit of a strap; none where its samples differ. -/
def tritOf : Strap → Option Nat
  | .low => some 0
  | .open_ => some 1
  | .high => some 2
  | .unsteady => none

/-- A sum of trits with powers of three. -/
def tritSum : List (Option Nat) → Option Nat
  | [] => some 0
  | none :: _ => none
  | some t :: r => (tritSum r).map (fun n => t + 3 * n)

/-- A field of PLT_STRAP: its value, or a free one where the straps give none. -/
def State.strapField (s : State) (lo n : Nat) : Option Nat → State
  | some v => s.setRf Reg.pltStrap lo n v
  | none => let f := s.fresh n; f.2.setRf Reg.pltStrap lo n f.1.toNat

/-- The straps are sampled: PLT_STRAP, HT_CTRL.ROOT; PLT-03 when they are invalid. A pin that no strap names is open. -/
def State.sampleStraps (s : State) (l : List Strap) : State :=
  let t := (List.range 8).map (fun k => tritOf (nth l k Strap.open_))
  let g := (tritSum (t.take 4)).filter (fun v => decide (v ≤ 31))
  let p := (tritSum ((t.drop 4).take 3)).filter (fun v => decide (v ≤ 15))
  let root := match nth t 7 none with | some 2 => some 1 | some 0 => some 0 | _ => none
  let valid := g.isSome && p.isSome && root.isSome
  let s1 := ((s.strapField 0 5 g).strapField 8 4 p).strapField 12 1 root
  let s2 := (List.range 8).foldl (fun u k => u.strapField (16 + 2 * k) 2 (nth t k none)) s1
  let s3 := (s2.setRf Reg.pltStrap 13 1 (b2n valid)).setRf Reg.htCtrl 0 1 (s2.rf Reg.pltStrap 12 1)
  if valid then s3 else s3.raise ⟨.plt, 3⟩ uDevice []

/-! ### DRAM records of an image (R359, R363) -/

/-- The DRAM offset of a stack address: the inverse of the map of R336. -/
def dramOff (l k a : Nat) : Nat :=
  let local_ := (72 - l) * 2 ^ 30
  if a < local_ then
    let b := a / 4096
    b * 32768 + (k ^^^ (b / 64 % 8)) * 4096 + a % 4096
  else
    let b := (a - local_) / 4096
    (576 - 8 * l) * 2 ^ 30 + k / 2 * (2 * l * 2 ^ 30) + b * 8192 + ((k % 2) ^^^ (b / 256 % 2)) * 4096 + a % 4096

/-- `n` bytes of DRAM from `o` are set to zero by the Curator, in grants of 64 bytes, which each 4 KiB has on one stack (R336).
-/
def State.dramFill (s : State) (o n : Nat) : State :=
  let out (x : Nat) : Bool := decide (x < o) || decide (o + n ≤ x)
  let l := s.rf (Reg.memMap 0) 0 7
  let pages := (List.range ((o + n + 4095) / 4096 - o / 4096)).map (fun i => (o / 4096 + i) * 4096)
  let s1 := pages.foldl (fun t p =>
    t.addSat (Reg.memGrants (s.loc p).stack.val 8) ((min (p + 4096) (o + n) - max p o) / 64)) s
  { s1 with
    dram := s.dram.filter (fun e => out e.1)
    dramBad := s.dramBad.filter (fun e => out (dramOff l (e.1 / 2 ^ 34) (e.1 % 2 ^ 34 * 8))) }

/-- The image's DRAM and FILL records, in image order. -/
def State.dramRecords (s : State) : State :=
  s.img.records.foldl (fun t r =>
    if r.type = 4 then (t.dramWrite r.target r.body .curator).1
    else if r.type = 5 then t.dramFill r.target (leAt r.body 0 4)
    else t) s

/-! ### Stages (R382, R383) -/

/-- The first tick after the parade and after stage 4's records with HT mod 65,536 = 0: W0 (R383). -/
def State.firstWave (s : State) : DWord :=
  let t := max (s.rg64 Reg.htParadeLo).toNat (s.clk.stage4At.getD 0).toNat
  dword ((t / 65536 + 1) * 65536)

/-- 48 V is good (R443): the hot-swap stage has completed, and Vin has stayed within 40 to 60 V for 10 ms. -/
def State.vinOk (s : State) : Bool := s.cur.smp.hotSwap && decide (1000 ≤ s.cur.vinGood)

/-- STAGE_ADVANCE (R382, Table 15.4). No stage after 1 starts while a Fatal fault stands. -/
def execStageAdvance (straps : List Strap) (s : State) : Host.Outcome State Fault Refusal :=
  .next (
    let c := s.cur
    match s.stage with
    | 0 =>
      if !c.aux then s
      else
        let s1 := s.sampleStraps straps
        { s1 with counting := true }.timeAtReset.setStage 1 |>.beginPhaseB
    | 1 =>
      if c.aux ∧ s.img.booted.isSome ∧ s.vinOk ∧ !s.cat.fltFatal then
        { s with cur := { c with regOn := true, clocksOn := true } }.setStage 2
      else s
    | 2 => if c.regOn && !s.cat.fltFatal then s.setStage 3 else s
    | 3 =>
      if c.regOn && !s.cat.fltFatal && !(allStacks.any (fun k => (s.sk k).lost)) then
        let s1 := { s with cur := { c with trained := true } }.dramRecords
        let s2 := { s1 with clk := { s1.clk with stage4At := some s1.ht } }.setStage 4
        allPorts.foldl State.trainPort s2
      else s
    | 4 =>
      if c.regOn && !s.cat.fltFatal && s.rbit Reg.htStatus 2 then { s with clk := { s.clk with w0 := some s.firstWave } }.setStage 5 else s
    | 5 =>
      match s.clk.w0 with
      | some w => if c.regOn ∧ !s.cat.fltFatal ∧ w.toNat + 250000 ≤ s.ht.toNat then s.setStage 6 else s
      | none => s
    | _ => s)

/-- STACK_TRAINING_FAIL (R349): MEM-05, Fatal. -/
def execStackTrainingFail (k : StackId) (s : State) : Host.Outcome State Fault Refusal :=
  .next (if s.cur.regOn ∧ 3 ≤ s.stage then
    let s1 := s.modSk k (fun x => { x with lost := true })
    { s1 with cur := { s1.cur with trained := false } }.raise ⟨.mem, 5⟩ (uStack k) []
    else s)

/-- The stations of a wave (R383). -/
def waveStns (w : Fin 8) : List StnId := allStns.filter (fun n => n.val % 8 == w.val)

/-- A wave's tick plus `d` has come in stage 5 or after it. -/
def State.waveDue (s : State) (w : Fin 8) (d : Nat) : Bool :=
  s.cur.regOn && !s.cat.fltFatal && match s.waveAt w.val with | some t => decide (t + d ≤ s.ht.toNat) | none => false

/-- WAVE_POWER (R383): at Pw the stations of the wave, but those of role OFF, are powered, and their records applied. -/
def execWavePower (w : Fin 8) (s : State) : Host.Outcome State Fault Refusal :=
  .next (if s.waveDue w 0 then
    (waveStns w).foldl (fun t n => if t.role n ≠ 0 ∧ !(t.st n).powered then t.powerStation n t.img.records else t) s
    else s)

/-- WAVE_RELEASE (R383): at Pw + 31,250 the wave is released, and RUN is set where the image marks the station. -/
def execWaveRelease (w : Fin 8) (s : State) : Host.Outcome State Fault Refusal :=
  .next (if s.waveDue w 31250 then
    (waveStns w).foldl (fun t n =>
      if (t.st n).powered && !(t.st n).released && (t.st n).offTick.isNone then
        (if t.img.marks.contains n.val then t.setRf (Reg.stnCtrl n.val) 0 1 1 else t).releaseStation n
      else t) s
    else s)

/-! ### Phase C (R394) -/

/-- `d` cycles of 0.8 ns have passed since phase C began, whatever the hall time does (R6). -/
def State.phaseCPast (s : State) (d : Nat) : Bool := s.plt.phaseC.any (fun t => decide (t + d ≤ s.cycle))

/-- PHASE_C_OUTPUT_ENABLE (R394, R440): 100 us after phase C begins. -/
def execPhaseCOutputEnable (s : State) : Host.Outcome State Fault Refusal :=
  .next (if s.phaseCPast 125000 then { s with plt := { s.plt with driven := true, phc := true } } else s)

/-- HOLD is active and unmasked: a Closed state becomes Stopped (R396). -/
def State.actHold (s : State) : State := if s.holding ∧ s.stepState = 0 then s.setStep 3 else s

/-- A trip: its Fatal code, and the regulators off. -/
def State.trip (s : State) (c : Code) : State := (s.raise c uDevice []).cutPower

/-- LEAK is active and unmasked (R390): the regulators off, the valve closed, FLT_N asserted, THM-10, once until a reset. -/
def State.actLeak (s : State) : State :=
  if s.plt.reading && s.plt.leak.level && !s.rbit Reg.pltMask 3 && !s.plt.leaked then
    ({ s with plt := { s.plt with leaked := true } }.setRf Reg.pwrValve 0 8 0).trip ⟨.thm, 10⟩
  else s

/-- The inputs that are active act (R390, R396). -/
def State.actInputs (s : State) : State := s.actHold.actLeak

/-- The time of an input that may be stuck starts again (R395). -/
def Pin.restart (p : Pin) (now : Nat) : Pin := { p with rise := now }

/-- PHASE_C_INPUTS_READ (R394): 1 ms after phase C begins; each input's timeout starts (R395). -/
def execPhaseCInputsRead (s : State) : Host.Outcome State Fault Refusal :=
  .next (if s.phaseCPast 1250000 && !s.plt.reading then
    let z := s.plt
    let y := { z with
      reading := true, hold := z.hold.restart s.cycle, leak := z.leak.restart s.cycle, flow := z.flow.restart s.cycle }
    ({ s with plt := y }.setRf Reg.pltPhase 2 1 0).actInputs else s)

/-! ### The phase C inputs (R390, R395, R396) -/

/-- The Plinth pin of an input. -/
def pinBit : PinIn → Nat
  | .hold => 1
  | .leak => 3
  | .flow => 5

/-- The inputs. -/
def pins : List PinIn := [.hold, .leak, .flow]

/-- PLT_FILT of an input. -/
def pinFilt : PinIn → Nat
  | .hold => Reg.pltFilt1
  | .leak => Reg.pltFilt3
  | .flow => Reg.pltFilt5

/-- An input of the Plinth. -/
def Plt.pin (z : Plt) : PinIn → Pin
  | .hold => z.hold
  | .leak => z.leak
  | .flow => z.flow

/-- An input takes a new account. -/
def State.setPin (s : State) (k : PinIn) (p : Pin) : State :=
  { s with plt := match k with
    | .hold => { s.plt with hold := p }
    | .leak => { s.plt with leak := p }
    | .flow => { s.plt with flow := p } }

/-- The level of an input in a sample. -/
def levelIn (z : Sample) : PinIn → Bool
  | .hold => z.hold
  | .leak => z.leak
  | .flow => z.flow

/-- The filter time of an input in cycles: 1,250 in 1 us. -/
def State.filtOf (s : State) (k : PinIn) : Nat := 1250 * s.rf (pinFilt k) 0 16

/-- Chatter holds the input's level. -/
def Pin.hushed (p : Pin) (now : Nat) : Bool := decide (now < p.hush)

/-- A filtered level is taken. -/
def Pin.put (p : Pin) (lvl : Bool) (now : Nat) : Pin :=
  { p with
    raw := lvl, since := if p.raw = lvl then p.since else now, level := lvl
    rise := if lvl && !p.level then now else p.rise }

/-- A raw level is seen (R395): a transition while chatter holds the level prolongs it by a filter time; a level that has held
for the filter time becomes the filtered level. -/
def Pin.see (p : Pin) (lvl : Bool) (now filt : Nat) : Pin :=
  let q := if p.raw = lvl then p
    else { p with raw := lvl, since := now, hush := if p.hushed now then now + filt else p.hush }
  if !q.hushed now && decide (q.since + filt ≤ now) then q.put q.raw now else q

/-- The inputs of a sample are seen, and act. While the valve is closed FLOW's timeout does not run (R395). -/
def State.seeInputs (s : State) (z : Sample) : State :=
  let s1 := pins.foldl (fun t k => t.setPin k ((t.plt.pin k).see (levelIn z k) t.cycle (t.filtOf k))) s
  let s2 := if s1.rf Reg.pwrValve 0 8 = 0 then s1.setPin .flow ((s1.plt.pin .flow).restart s1.cycle) else s1
  s2.actInputs

/-- The input is stuck (R395): HOLD or LEAK active for longer than its timeout, FLOW with no rising edge for its timeout
while the valve duty is above 0. A timeout of 0 disables this. -/
def State.stuck (s : State) (k : PinIn) : Bool :=
  let lim := (s.plt.pin k).rise + 1250000 * s.rf (pinFilt k) 16 16
  s.plt.reading && s.rf (pinFilt k) 16 16 != 0 && !s.rbit Reg.pltMask (pinBit k) &&
  (match k with
   | .flow => s.rf Reg.pwrValve 0 8 != 0 && decide (lim ≤ s.cycle)
   | _ => (s.plt.pin k).level && decide (lim < s.cycle))

/-! ### The ladder (R385) -/

/-- The ladder step in force. -/
def State.ladder (s : State) : Nat := s.rf Reg.pwrStatus 3 3

/-- The ladder takes a step; a rise above step 0 raises PWR-05 once in the step, and vector 77. -/
def State.setLadder (s : State) (v : Nat) : State :=
  let s1 := s.setRf Reg.pwrStatus 3 3 v
  if s.ladder = 0 ∧ v ≠ 0 then (s1.vector 77).raiseOnce ⟨.pwr, 5⟩ uDevice 0 [] else s1

/-- LADDER_FALL (R385, Table 15.7): after 1 ms of draw below 90 % of the limit; the next fall waits a further 1 ms. -/
def execLadderFall (s : State) : Host.Outcome State Fault Refusal :=
  .next (
    let c := s.cur
    if s.curReady && decide (100 ≤ c.quiet) && !c.hotHold && !c.guard && decide (s.rf Reg.pwrLadderMin 0 3 < s.ladder) then
      { s with cur := { c with quiet := 0, fallHold := 100 } }.setLadder (s.ladder - 1)
    else s)

/-- OVERPOWER_COMPARATOR (R385): step 7, PWR-04. The time below 90 % of the limit starts again. -/
def execOverpowerComparator (s : State) : Host.Outcome State Fault Refusal :=
  .next (({ s with cur := { s.cur with quiet := 0 } }.setLadder 7).raise ⟨.pwr, 4⟩ uDevice [])

/-- CURATOR_GUARD_EXPIRE (R378): step 7, duty 255, CUR_STATUS.GUARD, PWR-08. It holds until a power-on reset. -/
def execCuratorGuardExpire (s : State) : Host.Outcome State Fault Refusal :=
  .next (if s.cur.guard || !s.curReady then s
    else
      let s1 := ((s.setLadder 7).setRf Reg.pwrValve 0 8 255).setRf Reg.curStatus 2 1 1
      { s1 with cur := { s1.cur with guard := true } }.raise ⟨.pwr, 8⟩ uDevice [])

/-! ### The sample (R377, R384, R387) -/

/-- The sustained limit Ls of R384 in mW, capped at Vin x 105 A, from the flow in mL/min. -/
def State.sustained (s : State) (flow : Nat) (raw : Bool) : Int :=
  let cap : Int := 1000 * (clamp 1000 3400 (s.rf Reg.pwrCap 0 12) : Nat)
  let ls := min ((850 * min 4000 flow : Nat) - 150000 * (s.cur.smp.tIn.toNat - 40 : Nat) : Int) cap
  if raw then ls else min ls (105 * s.cur.smp.vin.toNat : Nat)

/-- Samples of the last 20 s whose draw exceeded Ls. -/
def Cur.peakUsed (c : Cur) : Nat := c.peakBins.foldl (· + ·) 0

/-- The limit in force Lp of R384 in mW. -/
def State.limit (s : State) (flow : Nat) : Int :=
  min (s.sustained flow true + (if s.cur.peakUsed < 200000 then 800000 else 0)) (105 * s.cur.smp.vin.toNat : Nat)

/-- One sample joins the 10 ms bins, 2,000 of which span 20 s. -/
def Cur.countPeak (c : Cur) (above : Bool) : Cur :=
  if c.peakPart = 0 then { c with peakBins := (b2n above :: c.peakBins).take 2000, peakPart := 999 }
  else match c.peakBins with
    | h :: r => { c with peakBins := (h + b2n above) :: r, peakPart := c.peakPart - 1 }
    | [] => { c with peakBins := [b2n above], peakPart := c.peakPart - 1 }

/-- FLOW is masked (R395). -/
def State.flowMasked (s : State) : Bool := s.rbit Reg.pltMask 5

/-- The flow F in mL/min (R390), PWR_FLOW_ASSUME while FLOW is masked. With PWR_FLOW_K = 0 the manual states none. -/
def State.flowOf (s : State) : State × Nat :=
  let k := s.rf Reg.pwrFlowK 0 16
  if s.flowMasked then (s, s.rf Reg.pwrFlowAssume 0 16)
  else if k = 0 then let f := s.fresh 16; (f.2, f.1.toNat)
  else (s, 60000 * s.cur.smp.pulses / k)

/-- PWR_FLOW takes the flow; a flow that its 16 bits cannot hold leaves them free. -/
def State.showFlow (s : State) (f : Nat) : State :=
  let s1 := s.setRf Reg.pwrFlow 16 8 s.cur.smp.tOut.toNat
  if f < 65536 then s1.setRf Reg.pwrFlow 0 16 f else let x := s1.fresh 16; x.2.setRf Reg.pwrFlow 0 16 x.1.toNat

/-- The registers that show a sample (Table 15.10). -/
def State.showSample (s : State) : State :=
  let z := s.cur.smp
  let s1 := (s.setRg Reg.pwrVin (word z.vin.toNat)).setRf Reg.pwrPin 0 16 z.pin.toNat
  let s2 := s1.setRg Reg.pwrTempMax (word ((hottest z.tStn).toNat + (hottest z.tMem).toNat * 2 ^ 8 +
    (hottest z.tOpt).toNat * 2 ^ 16 + z.tIn.toNat * 2 ^ 24))
  let s3 := (List.range 16).foldl (fun t i => t.setRg (Reg.pwrTstn i) (pack4 z.tStn i)) s2
  let s4 := (List.range 2).foldl (fun t i => t.setRg (Reg.pwrTmem i) (pack4 z.tMem i)) s3
  (List.range 4).foldl (fun t i => t.setRg (Reg.pwrTopt i) (pack4 z.tOpt i)) s4

/-- The input voltage (Table 15.3). -/
def State.actVin (s : State) : State :=
  let v := s.cur.smp.vin.toNat
  let good := decide (40000 ≤ v ∧ v ≤ 60000)
  let s1 := { s with cur := { s.cur with vinGood := if good then min 1000 (s.cur.vinGood + 1) else 0 } }
  let s2 := s1.setRf Reg.pwrStatus 7 1 (b2n (decide (v < 40000)))
  if good ∨ 64000 < v then s2 else s2.raiseOnce ⟨.pwr, 1⟩ uDevice 0 []

/-- The throttle level of a stack at a temperature (Table 15.7): 3/4, 1/2, 1/4, 1/8 of its cycles. -/
def stackLevel (t : Nat) : Nat := if t < 92 then 0 else if t < 95 then t - 91 else 4

/-- The stack's handling window ends when UE_READ reads 0 and it is below 95 degrees (Table 16.7). -/
def State.stackCalm (s : State) (k : StackId) : State :=
  if (nth s.cur.smp.tMem k.val 0).toNat < 95 ∧ !s.rbit (Reg.memStatus k.val) 1 then s.closeWindows (uStack k) (fun _ => true)
  else s

/-- A stack's thermal actions at a sample (Table 15.7). -/
def State.actStack (s : State) (k : StackId) : State :=
  let t := (nth s.cur.smp.tMem k.val 0).toNat
  let l := stackLevel t
  let c := s.cur
  let s1 := { s with cur := { c with
    throttle := c.throttle.set k.val (max l c.throttle[k.val])
    cool := c.cool.set k.val (if l < c.throttle[k.val] then c.cool[k.val] + 1 else 0)
    hot98 := c.hot98.set k.val (if 98 ≤ t then c.hot98[k.val] + 1 else 0) } }
  let s2 := if 1 ≤ l ∧ l ≤ 3 then s1.raiseOnce ⟨.thm, 4⟩ (uStack k) 0 [] else s1
  let s3 :=
    if l = 4 ∧ !s2.cat.raised.contains (⟨.thm, 5⟩, uStack k, 0) then
      s2.thenScore (fun t => t.raiseOnce ⟨.thm, 5⟩ (uStack k) 0 []) [(uStack k, 1024)]
    else s2
  s3.stackCalm k

/-- The ports of an optical engine. -/
def enginePorts (e : Nat) : List PortId := (List.range 8).map (fun j => portId (8 * e + j))

/-- An optical engine's thermal action at a sample (Table 15.7): at 85 degrees its lasers go off and its ports fail;
below, they are on unless a Fatal event has turned them off (R411). -/
def State.actEngine (s : State) (e : Nat) : State :=
  if 85 ≤ (nth s.cur.smp.tOpt e 0).toNat then
    let s1 := { s with cur := { s.cur with engOff := s.cur.engOff.set! e true } }
    let s2 :=
      if s1.cat.raised.contains (⟨.thm, 7⟩, uOpt e, 0) then s1
      else s1.thenScore (fun t => t.raiseOnce ⟨.thm, 7⟩ (uOpt e) 0 []) [(uOpt e, 16384)]
    (enginePorts e).foldl State.portFail s2
  else
    { s with cur := { s.cur with engOff := s.cur.engOff.set! e s.cat.fltFatal } }.closeWindows (uOpt e) (fun _ => true)

/-- The coolant codes (R390). -/
def State.actFlow (s : State) (flow : Nat) : State :=
  let s1 := if flow < 4000 then s.raiseOnce ⟨.thm, 8⟩ uDevice 0 [] else s
  let s2 := if 40 < s.cur.smp.tIn.toNat then s1.raiseOnce ⟨.thm, 9⟩ uDevice 0 [] else s1
  if s2.flowMasked ∧ !s2.cur.flowSaid then
    { s2 with cur := { s2.cur with flowSaid := true } }.raise ⟨.thm, 11⟩ uDevice []
  else s2

/-- The ladder at a sample (R385, Tables 15.3 and 15.7): `above` says that the draw exceeds the limit in force, `low`
that it lies below 90 % of it. -/
def State.actLadder (s : State) (above low : Bool) : State :=
  let hot := (hottest s.cur.smp.tStn).toNat
  let top := decide (105 ≤ hot) || decide (s.cur.smp.vin.toNat < 38000) || s.cur.guard
  let rise := above || decide (100 ≤ hot)
  let v := if top then 7 else min 7 (if rise then s.ladder + 1 else s.ladder)
  let c := s.cur
  let s1 := { s with cur := { c with
    hotHold := decide (100 ≤ hot) || (c.hotHold && decide (97 ≤ hot))
    quiet := if top || rise || !low then 0 else if c.fallHold = 0 then c.quiet + 1 else 0
    fallHold := c.fallHold - 1
    hot105 := if 105 ≤ hot ∧ s.ladder = 7 then c.hot105 + 1 else 0
    hot110 := if 110 ≤ hot then c.hot110 + 1 else 0 } }
  s1.setLadder (max v (s.rf Reg.pwrLadderMin 0 3))

/-- Issue cycles counted since the last sample become the fractions of R418. -/
def State.countIssue (s : State) : State :=
  let f (x : Stn) : Stn := { x with issFrac := min 255 (x.issCnt * 255 / 12500), issCnt := 0 }
  { s with stn := s.stn.map f }

/-- CURATOR_SAMPLE (R377): every 10 us core 0 takes a sample and acts on it. -/
def execCuratorSample (smp : Sample) (s : State) : Host.Outcome State Fault Refusal :=
  .next (if !s.curReady then s else
    let c := s.cur
    let s0 := { s with cur := { c with
      smp := smp, sampled := true, smps := (s.ht, smp.tStn) :: c.smps.take 127, drawSum := c.drawSum + smp.pin.toNat, drawCnt := c.drawCnt + 1 } }
    let f := s0.flowOf
    let draw : Int := (1000 * smp.pin.toNat : Nat)
    let above := decide (f.1.limit f.2 < draw)
    let peak := decide (f.1.sustained f.2 false < draw)
    let s1 : State := { f.1 with cur := f.1.cur.countPeak peak }
    let lp := s1.limit f.2
    let full := decide (200000 ≤ s1.cur.peakUsed)
    let s2 := (s1.showSample.showFlow f.2).setRf Reg.pwrPin 16 16 (lp / 1000).toNat
    let s3 := s2.setRg Reg.pwrPeakUsed (word (min 2000 (s2.cur.peakUsed / 100)))
    let s4 := if full then s3.setStatus Reg.pwrStatus 6 77 else s3.setRf Reg.pwrStatus 6 1 0
    let s5 := if full && peak then s4.raiseOnce ⟨.pwr, 6⟩ uDevice 0 [] else s4
    let s6 := s5.actVin.actLadder above (decide (10 * draw < 9 * lp))
    let hot := (hottest smp.tStn).toNat
    let s7 := if 95 ≤ hot then s6.raiseOnce ⟨.thm, 1⟩ uDevice 0 [] else s6
    let s8 := if 105 ≤ hot then s7.raiseOnce ⟨.thm, 2⟩ uDevice 0 [] else s7
    let s9 := allStacks.foldl State.actStack s8
    (((List.range 16).foldl State.actEngine s9).actFlow f.2).countIssue.seeInputs smp)

/-- STACK_THROTTLE_RELEASE (R387): one level per millisecond as the stack cools. -/
def execStackThrottleRelease (k : StackId) (s : State) : Host.Outcome State Fault Refusal :=
  .next (
    let c := s.cur
    if 100 ≤ c.cool[k.val] ∧ stackLevel (nth c.smp.tMem k.val 0).toNat < c.throttle[k.val] then
      { s with cur := { c with throttle := c.throttle.set k.val (c.throttle[k.val] - 1), cool := c.cool.set k.val 0 } }
    else s)

/-! ### Trips (R381, R387) -/

/-- VIN_OVERVOLTAGE_TRIP (Table 15.3): PWR-03. -/
def execVinOvervoltageTrip (s : State) : Host.Outcome State Fault Refusal := .next (s.trip ⟨.pwr, 3⟩)

/-- VIN_UNDERVOLTAGE_TRIP (Table 15.3): PWR-02. -/
def execVinUndervoltageTrip (s : State) : Host.Outcome State Fault Refusal := .next (if s.cur.regOn then s.trip ⟨.pwr, 2⟩ else s)

/-- RAIL_REGULATION_TRIP (Table 15.3): PWR-07. -/
def execRailRegulationTrip (s : State) : Host.Outcome State Fault Refusal := .next (if s.cur.regOn then s.trip ⟨.pwr, 7⟩ else s)

/-- LOGIC_OVERTEMP_TRIP (Table 15.7): 110 degrees for 10 us, or 105 for 100 ms at step 7: THM-03. -/
def execLogicOvertempTrip (s : State) : Host.Outcome State Fault Refusal :=
  .next (if (1 ≤ s.cur.hot110 ∨ 10000 ≤ s.cur.hot105) ∧ s.cur.regOn then s.trip ⟨.thm, 3⟩ else s)

/-- STACK_OVERTEMP_TRIP (Table 15.7): 98 degrees for 1 ms: THM-06. -/
def execStackOvertempTrip (k : StackId) (s : State) : Host.Outcome State Fault Refusal :=
  .next (if 100 ≤ s.cur.hot98[k.val] ∧ s.cur.regOn then s.trip ⟨.thm, 6⟩ else s)

/-! ### The valve (R389) -/

/-- A duty from a real number: an integer is itself; else one of its two neighbours, which the manual leaves open. -/
def State.dutyOf (s : State) (u : Rat) : State × Int :=
  if u.den = 1 then (s, u.floor) else let f := s.fresh 1; (f.2, u.floor + f.1.toNat)

/-- VALVE_LOOP (R389): every 10 ms, unless MANUAL, the guard or a leak holds the valve. -/
def execValveLoop (s : State) : Host.Outcome State Fault Refusal :=
  .next (
    let c := s.cur
    if !s.curReady || s.rbit Reg.pwrValve 8 || c.guard || s.plt.leaked then
      { s with cur := { c with drawSum := 0, drawCnt := 0 } }
    else
      let fl := s.flowOf
      let f : Rat := (fl.2 : Rat) / 1000
      let p : Rat := if c.drawCnt = 0 then c.smp.pin.toNat else (c.drawSum : Rat) / c.drawCnt
      let tin : Rat := c.smp.tIn.toNat
      let rth : Rat := 1 / 200 * (4 / max f 1)
      let tau := s.rf Reg.pwrTau 0 16
      let step := fl.1.fresh 32
      let s1 := if tau = 0 then step.2 else fl.1
      let tp : Rat := if tau = 0 then step.1.toNat else c.tp + (tin + rth * p - c.tp) * (10 / (tau : Rat))
      let e : Rat := ((hottest c.smp.tStn).toNat : Rat) - s.rf Reg.pwrThmSet 0 8
      let sum := c.sumE + e / 100
      let gain (lo : Nat) : Rat := (s.rf Reg.pwrLoop lo 8 : Rat) / 16
      let umin := s.rf Reg.pwrLoop 24 8
      let ff := (tin + rth * p - tp) * gain 16
      let u := max (umin : Rat) (min 255 (Config.valveU0 + gain 0 * e + gain 8 * sum + ff))
      let u1 := if f < 4 ∧ 1000 < p then min 255 (u + 8) else u
      let d := s1.dutyOf u1
      let old : Int := s.rf Reg.pwrValve 0 8
      let duty := max (old - 16) (min (old + 16) d.2)
      { (d.1.setRf Reg.pwrValve 0 8 duty.toNat) with
        cur := { d.1.cur with tp := tp, sumE := sum, drawSum := 0, drawCnt := 0 } })

/-! ### Events of the phase C inputs (R390, R395, R396) -/

/-- LEAK_DETECTED (R390): the filtered LEAK becomes active; it acts once the inputs are read (R394). Chatter holds a level
(R395). -/
def execLeakDetected (s : State) : Host.Outcome State Fault Refusal :=
  .next (if s.plt.phaseC.isSome && !(s.plt.pin .leak).hushed s.cycle then
    (s.setPin .leak ((s.plt.pin .leak).put true s.cycle)).actLeak
    else s)

/-- HOLD_CHANGE (R396): the filtered HOLD takes a level, in phase C; it acts once the inputs are read (R394). Chatter holds a
level (R395). -/
def execHoldChange (level : Bool) (s : State) : Host.Outcome State Fault Refusal :=
  .next (if s.plt.phaseC.isSome && !(s.plt.pin .hold).hushed s.cycle then
    (s.setPin .hold ((s.plt.pin .hold).put level s.cycle)).actHold
    else s)

/-- INPUT_CHATTER (R395): the pin's bit of PLT_CHATTER, PLT-02; the filtered level stays until a filter time has passed with
no transition. -/
def execInputChatter (pin : PinIn) (s : State) : Host.Outcome State Fault Refusal :=
  .next (if s.plt.reading then
    let p := s.plt.pin pin
    let s1 := s.setPin pin { p with since := s.cycle, hush := s.cycle + s.filtOf pin }
    (s1.setStatus Reg.pltChatter (pinBit pin) 78).raise ⟨.plt, 2⟩ (uPin (pinBit pin)) []
    else s)

/-- INPUT_STUCK_TIMEOUT (R395): an input that has been stuck for its timeout is masked, with PLT-01. -/
def execInputStuckTimeout (pin : PinIn) (s : State) : Host.Outcome State Fault Refusal :=
  .next (if s.stuck pin then
    let s1 := (s.setStatus Reg.pltMask (pinBit pin) 78).raise ⟨.plt, 1⟩ (uPin (pinBit pin)) []
    if pin = .flow then { s1 with cur := { s1.cur with flowSaid := false } } else s1
    else s)

/-- An unmasked input's timeout starts again (R395). -/
def State.restartPin (s : State) (v : Word) (k : PinIn) : State :=
  if bitOf v (pinBit k) && s.rbit Reg.pltMask (pinBit k) then s.setPin k ((s.plt.pin k).restart s.cycle) else s

/-- A write of PLT_MASK (R395, R396): each 1 unmasks its input, but for one that this tick has masked (R11). -/
def State.unmask (s : State) (v : Word) : State :=
  ((pins.foldl (fun (t : State) k => t.restartPin v k) s).clearBits Reg.pltMask (v &&& 0x2A)).actInputs

/-- PLT_UNMASK (R395). -/
def execPltUnmask (value : Word) (s : State) : Host.Outcome State Fault Refusal := .next (s.unmask value)

/-- FLT_N is released for a Fenced fault (R394). -/
def State.releaseFlt (s : State) : State := { s with cat := { s.cat with fltFenced := false } }

/-- FLT_CLR (R394). -/
def execFltClr (s : State) : Host.Outcome State Fault Refusal := .next s.releaseFlt

end Sys2Proof.Machine
end

