-- ==== Sys2Proof/Machine/Catalogue.lean ====
section
/-! DEFINITION. The Catalogue: taking events and collapsing them (R402, R403, R407, R408), the effects of Fenced and
Fatal records (R410, R411), the ring and copies to flash (R406, R412), reading (R413), freezing (R414), and the decay of
the condition scores (R415 to R417). -/

namespace Sys2Proof.Machine

open Sys2Proof

/-! ### Records (R404, R407, R408) -/

/-- E of R407: CAT_CTRL.EPOCH at its nearer bound. -/
def State.epochLen (s : State) : Nat := clamp 10 24 (s.rf Reg.catCtrl 8 5)

/-- The epoch of a tick. -/
def State.epochOf (s : State) (t : DWord) : Nat := t.toNat / 2 ^ s.epochLen

/-- A freeze is in force (CAT_STATUS.FROZEN). -/
def State.frozen (s : State) : Bool := s.rbit Reg.catCtrl 0

/-- The SEQ of the handling record of an event, when its unit was in handling: 0xFFFF_FFFF where that has none. -/
def State.parentSeq (s : State) (e : Event) : Option Word :=
  e.parent.map (fun p => (Cells.look s.cat.eidSeq p.1).getD 0xFFFFFFFF)

/-- Word 3 of an event's record (Table 16.3). -/
def State.word3 (s : State) (e : Event) (follow : Bool) : Word :=
  word (e.code.num + e.code.fam.number * 2 ^ 8 + e.cls.number * 2 ^ 12 + b2n follow * 2 ^ 14 +
    b2n e.parent.isSome * 2 ^ 15 + b2n s.cat.gap * 2 ^ 16)

/-- Word 4 of a record: the unit (Tables 16.3 and 16.5). -/
def State.word4 (s : State) (u : UnitId) : Word :=
  word (u.kind.number + u.index % 128 * 2 ^ 4 + b2n u.remote.isSome * 2 ^ 11 + u.remote.getD s.rank % 512 * 2 ^ 12)

/-- The seal of a valid record (Table 16.3, word 15). -/
def sealWord : Word := 0xA5000000

/-- The sixteen words of the record that an event opens. -/
def State.recordWords (s : State) (e : Event) (follow sealed : Bool) : List Word :=
  [word e.ht.toNat, word (e.ht.toNat / 2 ^ 32), s.cat.next, s.word3 e follow, s.word4 e.unit, 1, 0, e.step,
   word (e.temp.toNat + e.tempMax.toNat * 2 ^ 8 + e.load.toNat * 2 ^ 16), (s.parentSeq e).getD 0xFFFFFFFF] ++
  (List.range 5).map (fun i => nth e.detail i 0) ++ [if sealed then sealWord else 0]

/-- The event is in the record with number `q`; only what a window or a queued event may still name is kept. -/
def State.noteSeq (s : State) (e : Event) (q : Word) : State :=
  let keep (x : Nat × Word) : Bool := decide (e.eid ≤ x.1 + 8192) || s.cat.windows.any (fun w => w.eid = x.1)
  { s with cat := { s.cat with eidSeq := Cells.ins (s.cat.eidSeq.filter keep) e.eid q } }

/-- A record is opened for an event (R402, R406): it takes the next SEQ; the tail keeps the newest 4,096. -/
def State.newRecord (s : State) (e : Event) (follow sealed : Bool) : State :=
  let r : CatRec :=
    { seq := s.cat.next, words := s.recordWords e follow sealed, code := e.code, cls := e.cls, unit := e.unit,
      epoch := s.epochOf e.ht, parent := (s.parentSeq e).map BitVec.toNat, opener := e.eid, isOpen := !sealed,
      follow := follow, inRing := false }
  let l := s.cat.recs ++ [r]
  let s1 := s.noteSeq e s.cat.next
  { s1 with cat := { s1.cat with recs := l.drop (l.length - 4096), next := s.cat.next + 1, gap := false } }

/-- A record has an event's key (R407). -/
def State.sameKey (s : State) (e : Event) (r : CatRec) : Bool :=
  r.code == e.code && r.unit == e.unit && r.epoch == s.epochOf e.ht && r.parent == (s.parentSeq e).map BitVec.toNat

/-- A record counts one more event: COUNT and LAST_DELTA saturate. -/
def CatRec.count (r : CatRec) (e : Event) : CatRec :=
  let first := (nth r.words 0 0).toNat + (nth r.words 1 0).toNat * 2 ^ 32
  let ws := r.words.set 5 (word (min 0xFFFFFFFF ((nth r.words 5 0).toNat + 1)))
  { r with words := ws.set 6 (word (min 0xFFFFFFFF (e.ht.toNat - first))) }

/-- An event collapses into the open record of its key, or opens one. -/
def State.collapse (s : State) (e : Event) (follow : Bool) : State :=
  match s.cat.recs.find? (fun r => r.isOpen && r.follow == follow && s.sameKey e r) with
  | some r =>
    let s1 := s.noteSeq e r.seq
    { s1 with cat := { s1.cat with recs := s1.cat.recs.map (fun x => if x.seq = r.seq then x.count e else x) } }
  | none => s.newRecord e follow false

/-! ### Copies to flash (R412) -/

/-- The source of copies: the DRAM ring while every stack is trained and the regulators are on. -/
def State.ringUp (s : State) : Bool := s.cur.trained && s.cur.regOn

/-- The directory entry of the next copy slot. -/
def State.copyDir (s : State) : Nat := 0x0FC00000 + 64 * (s.cat.slot % 23)

/-- A copy starts: its directory entry is erased. -/
def State.beginCopy (s : State) (c : CatCopy) : State :=
  { s with
    flash := Cells.write zeroByte s.flash s.copyDir (zeros 64)
    cat := { s.cat with copying := some { c with ht := s.ht, count := s.rg Reg.catFrozenCnt, head := s.cat.next } } }

/-- A trigger of a copy: it starts one, or joins the one that will follow. -/
def State.wantCopy (s : State) (c : CatCopy) : State :=
  if s.cat.copying.isNone then s.beginCopy c
  else match s.cat.waiting with
    | none => { s with cat := { s.cat with waiting := some c } }
    | some w => { s with cat := { s.cat with waiting := some { w with flush := w.flush || c.flush } } }

/-- The bytes of a slot of the ring, and whether every word was good: an uncorrectable word clears the seal byte
(Table 13.5). -/
def State.ringRecord (s : State) (q : Nat) (u : MemUser) : State × List Byte × Bool :=
  if s.ringUp then
    let o := (s.rg64 Reg.catRingLo).toNat % 2 ^ 40 + q % 65536 * 64
    let r := s.dramRead o 64 u
    match r.2 with
    | some b => (r.1, b, true)
    | none => (r.1, patch (Cells.read zeroByte s.dram o 64) 63 [0], false)
  else (s, zeros 64, true)

/-- A record as a copy takes it; none where it is not valid. -/
def State.copyRecord (s : State) (q : Nat) : State × Option (List Byte) :=
  match s.cat.recs.find? (fun r => r.seq.toNat = q) with
  | some r =>
    if r.isOpen then (s, none)
    else if r.inRing && s.ringUp then
      let x := s.ringRecord q .persist
      (x.1, if leAt x.2.1 63 1 = 0xA5 ∨ !x.2.2 then some x.2.1 else none)
    else (s, some (wordsToBytes r.words))
  | none =>
    if s.ringUp then
      let x := s.ringRecord q .persist
      (x.1, if leAt x.2.1 8 4 = q ∧ (leAt x.2.1 63 1 = 0xA5 ∨ !x.2.2) then some x.2.1 else none)
    else (s, none)

/-- The records of SEQ `q` to `q + n - 1` that a copy takes, with their SEQ. -/
def State.copyRecords : Nat → Nat → State → State × List (Nat × List Byte)
  | 0, _, s => (s, [])
  | n + 1, q, s =>
    let r := s.copyRecord q
    let l := State.copyRecords n (q + 1) r.1
    (l.1, match r.2 with | some b => (q, b) :: l.2 | none => l.2)

/-- FIRST_SEQ and LAST_SEQ of a copy; with no record the manual states none. -/
def State.copySeqs (s : State) (l : List (Nat × List Byte)) : State × Word × Word :=
  match l.head?, l.getLast? with
  | some a, some b => (s, word a.1, word b.1)
  | _, _ => let x := s.fresh 32; let y := x.2.fresh 32; (y.2, x.1, y.1)

/-- The mailbox command in progress has its result. -/
def State.mailDone (s : State) (status : Nat) (rsp : List Word) : State :=
  { s with cur := { s.cur with mail := s.cur.mail.map (fun (m : Mail) => { m with done := some (status, rsp) }) } }

/-- A copy to flash ends (R412, Table 16.8); a pending one starts, else the regulators go off after a Fatal event whose record
has been made (R411). -/
def State.finishCopy (s : State) (c : CatCopy) : State :=
  let head := c.head.toNat
  let n := min 65536 head
  let r := State.copyRecords n (head - n) s
  let ring := s.ringUp
  let z := r.1.copySeqs r.2
  let k := s.cat.slot % 23
  let at_ (e : Nat × List Byte) : Nat := 0x0A000000 + k * 0x400000 + (e.1 - z.2.1.toNat) % 65536 * 64
  let fl := r.2.foldl (fun m e => Cells.write zeroByte m (at_ e) e.2) z.1.flash
  let dir : List Word := [0x54414343, z.2.1, z.2.2, word r.2.length, word c.ht.toNat, word (c.ht.toNat / 2 ^ 32), c.trigger,
    word (b2n (!ring) + b2n c.frozen * 2), c.count, c.codeword, 0, 0, 0, 0, 0, sealWord]
  let s1 := { z.1 with
    flash := Cells.write zeroByte fl s.copyDir (wordsToBytes dir)
    cat := { z.1.cat with copying := none, slot := (k + 1) % 23 } }
  let s2 := s1.setRg Reg.catCopyLast (word (k + b2n (!ring) * 2 ^ 5 + b2n c.frozen * 2 ^ 6))
  let s3 := if c.flush then s2.mailDone 0 [word r.2.length] else s2
  match s3.cat.waiting with
  | some w => { s3 with cat := { s3.cat with waiting := none } }.beginCopy w
  | none => if s3.cat.fltFatal && !s3.cat.urgent.any (fun e => e.cls = .fatal) then s3.cutPower else s3

/-- FLASH_COPY_COMPLETE (R412). -/
def execFlashCopyComplete (s : State) : Host.Outcome State Fault Refusal :=
  .next (match s.cat.copying with
    | some c => if s.curReady then s.finishCopy c else s
    | none => s)

/-- CAT_FLUSH (R412, Table 15.1): the mailbox command starts a copy, or joins the one that will follow. -/
def execCatFlush (s : State) : Host.Outcome State Fault Refusal :=
  .next (match s.cur.mail with
    | some m =>
      let asked := s.cat.copying.any (fun c => c.flush) || s.cat.waiting.any (fun c => c.flush)
      if s.curReady && decide (m.op = 0x50) && m.done.isNone && !asked then
        s.wantCopy ⟨0xFFFFFFFF, s.frozen, 0, true, 0, 0, 0⟩
      else s
    | none => s)

/-! ### Taking events (R402, R403, R410, R414) -/

/-- FLT_N is asserted, CUR_EVENT.CATALOGUE sets, and a copy to flash starts (R410, R411). -/
def State.fencedEffects (s : State) (c : Cls) (copy : CatCopy) : State :=
  let s1 := if c = .fenced then { s with cat := { s.cat with fltFenced := true } } else s
  (s1.curEvent 3).wantCopy copy

/-- An event that a freeze discards (R414). -/
def State.discard (s : State) (e : Event) : State :=
  let s1 := s.inc Reg.catFrozenCnt
  if e.cls = .fenced ∨ e.cls = .fatal then
    s1.fencedEffects e.cls ⟨0xFFFFFFFF, true, s1.word3 e false, false, 0, 0, 0⟩
  else s1

/-- The record of a Fenced or Fatal event (R403, R407): sealed at once; later events of its key and epoch go into one
record with FOLLOW = 1. -/
def State.recordFenced (s : State) (e : Event) : State :=
  if s.cat.recs.any (fun r => !r.follow && s.sameKey e r) then s.collapse e true
  else (s.newRecord e false true).fencedEffects e.cls ⟨s.cat.next, false, s.word3 e false, false, 0, 0, 0⟩

/-- CATALOGUE_EVENT_TAKE (R402): the oldest queued event, after every Fenced and Fatal one. -/
def execCatalogueEventTake (s : State) : Host.Outcome State Fault Refusal :=
  .next (match s.cat.urgent, s.cat.queue with
    | [], e :: r =>
      if !s.curReady then s
      else
        let s1 := { s with cat := { s.cat with queue := r } }
        if s.frozen then s1.discard e else s1.collapse e false
    | _, _ => s)

/-- FENCED_EVENT_RECORD (R403). -/
def execFencedEventRecord (s : State) : Host.Outcome State Fault Refusal :=
  .next (match s.cat.urgent with
    | e :: r =>
      if !s.curReady then s
      else
        let s1 := { s with cat := { s.cat with urgent := r } }
        if s.frozen then s1.discard e else s1.recordFenced e
    | [] => s)

/-- Records that `p` selects are sealed. -/
def State.sealRecs (s : State) (p : CatRec → Bool) : State :=
  { s with cat := { s.cat with recs := s.cat.recs.map (fun (r : CatRec) =>
      if r.isOpen && p r then { r with isOpen := false, words := r.words.set 15 sealWord } else r) } }

/-- EPOCH_SEAL (R407): open records of an earlier epoch are sealed. -/
def execEpochSeal (s : State) : Host.Outcome State Fault Refusal :=
  .next (if s.curReady then s.sealRecs (fun r => r.epoch != s.epochOf s.ht) else s)

/-! ### The ring (R406) -/

/-- One sealed record is written to its slot as a locked sequence (R342): byte 63 cleared, bytes 0 to 62, byte 63. A sequence
that is cut off or that meets an uncorrectable word leaves the record out of the ring, to be written at the next flush (R343).
-/
def State.flushRecord (s : State) (r : CatRec) : State :=
  let o := (s.rg64 Reg.catRingLo).toNat % 2 ^ 40 + r.seq.toNat % 65536 * 64
  let b := wordsToBytes r.words
  let w := s.lockedWrite .persist [(o + 63, [0]), (o, b.take 63), (o + 63, [0xA5])]
  if w.past || !w.ok then w.s
  else { w.s with cat := { w.s.cat with recs := w.s.cat.recs.map (fun (x : CatRec) => if x.seq = r.seq then { x with inRing := true } else x) } }

/-- CATALOGUE_PERSIST_FLUSH (R406): at each tick with HT mod 1,250,000 = 0, sealed records not yet in the ring, in
ascending SEQ. -/
def execCataloguePersistFlush (s : State) : Host.Outcome State Fault Refusal :=
  .next (if s.atMultiple 1250000 ∧ s.curReady ∧ s.ringUp then
    (s.cat.recs.filter (fun r => !r.isOpen && !r.inRing)).foldl State.flushRecord s
    else s)

/-! ### Freezing (R414) -/

/-- FREEZE is written 1: open records are sealed; a freeze in force is not started again. -/
def State.freezeCat (s : State) : State :=
  if s.frozen then s
  else
    let s1 := (s.setRf Reg.catCtrl 0 1 1).sealRecs (fun _ => true)
    { s1 with cat := { s1.cat with freezeAt := some s1.ht } }

/-- The freeze ends; the next record carries FROZEN_GAP. -/
def State.thawCat (s : State) : State :=
  if s.frozen then { s.setRf Reg.catCtrl 0 1 0 with cat := { s.cat with freezeAt := none, gap := true } } else s

/-- CATALOGUE_FREEZE (R414). -/
def execCatalogueFreeze (s : State) : Host.Outcome State Fault Refusal := .next s.freezeCat

/-- CATALOGUE_UNFREEZE (R414). -/
def execCatalogueUnfreeze (s : State) : Host.Outcome State Fault Refusal := .next s.thawCat

/-- FREEZE_LAPSE (R414): after CAT_FREEZE_MAX ms, 0 acting as 1, the freeze ends with LAPSED. -/
def execFreezeLapse (s : State) : Host.Outcome State Fault Refusal :=
  .next (match s.cat.freezeAt with
    | some t =>
      if t.toNat + max 1 (s.rf Reg.catFreezeMax 0 16) * 1250000 ≤ s.ht.toNat then s.thawCat.setBitEvt Reg.catStatus 3 else s
    | none => s)

/-! ### Reading (R413) -/

/-- The record that CAT_CURSOR selects: the newest of its slot. -/
def State.captureRecord (s : State) : State :=
  let cur := s.rf Reg.catCursor 0 16
  match (s.cat.recs.filter (fun r => r.seq.toNat % 65536 = cur)).getLast? with
  | some r => { s with cat := { s.cat with window := r.words } }
  | none => let x := s.ringRecord cur .curator; { x.1 with cat := { x.1.cat with window := bytesToWords 16 x.2.1 } }

/-- A read of CAT_WINDOW0. -/
def State.readWindow0 (s : State) : State × Word := let t := s.captureRecord; (t, t.value (Reg.catWindow 0))

/-- A read of CAT_WINDOW15: with AUTOINC the cursor advances. -/
def State.readWindow15 (s : State) : State × Word :=
  (if s.rbit Reg.catCtrl 1 then s.setRf Reg.catCursor 0 16 (s.rf Reg.catCursor 0 16 + 1) else s, s.value (Reg.catWindow 15))

/-- CAT_WINDOW_CAPTURE (R413). -/
def execCatWindowCapture (s : State) : Host.Outcome State Fault Refusal :=
  .next (let r := s.readWindow0; r.1.emit (.read .host (Reg.catWindow 0) r.2))

/-- CAT_WINDOW_ADVANCE (R413). -/
def execCatWindowAdvance (s : State) : Host.Outcome State Fault Refusal :=
  .next (let r := s.readWindow15; r.1.emit (.read .host (Reg.catWindow 15) r.2))

/-! ### Condition scores (R415 to R417) -/

/-- Every unit that has a score. -/
def scoredUnits : List UnitId :=
  allStns.map uStn ++ allPorts.map uPort ++ allStacks.map uStack ++ (List.range 16).map uOpt

/-- Corrected codewords of a port since the last second join its score, one per 65,536 with the remainder carried. -/
def State.scoreFec (s : State) (p : PortId) : State :=
  let n := Cells.get zeroNat s.cat.fecRest p.val + Cells.get zeroNat s.cat.fecNow p.val
  let s1 := { s with cat := { s.cat with
    fecNow := Cells.set zeroNat s.cat.fecNow p.val 0, fecRest := Cells.set zeroNat s.cat.fecRest p.val (n % 65536) } }
  if n / 65536 = 0 then s1 else s1.addScore (uPort p) (n / 65536)

/-- A score decays (R416). -/
def State.decayScore (s : State) (u : UnitId) : State :=
  let v := s.rf (scoreReg u) 0 16
  if v = 0 then s
  else (s.setRf (scoreReg u) 0 16 (v - v / 2 ^ clamp 8 15 (s.rf Reg.catCondCtrl 0 4))).scoreFall u

/-- SCORE_DECAY (R416): at each tick with HT mod 1,250,000,000 = 0. -/
def execScoreDecay (s : State) : Host.Outcome State Fault Refusal :=
  .next (if s.atMultiple 1250000000 ∧ s.curReady then
    scoredUnits.foldl State.decayScore (allPorts.foldl State.scoreFec s)
    else s)

/-- A write of CAT_COND_CLR (R417): one unit's score and bits become 0; a kind or index that names none does nothing. -/
def State.clearScore (s : State) (v : Word) : State :=
  let i := fld v 4 7
  match fld v 0 4 with
  | 1 => if i < 64 then s.setRg (Reg.catCondStn i) 0 else s
  | 2 => s.setRg (Reg.catCondPrt i) 0
  | 4 => if i < 8 then s.setRg (Reg.catCondMem i) 0 else s
  | 5 => if i < 16 then s.setRg (Reg.catCondOpt i) 0 else s
  | _ => s

/-- CAT_COND_CLR (R417). -/
def execCatCondClr (value : Word) (s : State) : Host.Outcome State Fault Refusal := .next (s.clearScore value)

end Sys2Proof.Machine
end

