-- ==== Sys2Proof/Machine/Mailbox.lean ====
section
/-! DEFINITION. The Curator's mailbox (R380, Tables 15.1 and 15.2): the doorbell, the commands, completion. -/

namespace Sys2Proof.Machine

open Sys2Proof

/-- A write of CUR_DOORBELL.GO (R380): the command in CUR_CMD starts; before DONE of the previous one it is ignored and
sets OVERRUN. -/
def State.doorbell (s : State) (v : Word) : State :=
  if !bitOf v 0 || !s.curReady then s
  else if s.cur.mail.isSome then s.setRf Reg.curStatus 3 1 1
  else
    let c := s.rg Reg.curCmd
    let m : Mail := { op := fld c 0 8, tag := fld c 8 8, argw := fld c 16 7, done := none }
    { (s.setRf Reg.curStatus 3 1 0).setRf Reg.curRsp 31 1 0 with cur := { s.cur with mail := some m } }

/-- Argument word `i`. -/
def State.arg (s : State) (i : Nat) : Nat := (s.rg (Reg.curArg i)).toNat

/-- The 64-bit argument in words `i` and `i + 1`. -/
def State.arg64 (s : State) (i : Nat) : Nat := s.arg i + s.arg (i + 1) * 2 ^ 32

/-- The mailbox command with opcode `op` waits to be performed. -/
def State.mailIs (s : State) (op : Nat) : Bool :=
  s.curReady && (match s.cur.mail with | some m => decide (m.op = op) && m.done.isNone | none => false)

/-- Status codes of Table 15.2. -/
def mailBadOp : Nat := 1
/-- An offset, length or station out of range or misaligned. -/
def mailBadArg : Nat := 2
/-- The target is not in a state that allows the command. -/
def mailState : Nat := 3
/-- A DRAM access failed. -/
def mailMem : Nat := 4
/-- No pool exists (R379). -/
def mailNoPool : Nat := 5

/-- The flash device reported an error. -/
def mailFlash : Nat := 6

/-- The Curator writes bytes to DRAM as locked sequences, and the command ends with its response; it fails where a word could
not be written (R344), and by the cut-off of a sequence that goes beyond MEM_HOLD_MAX (R343). -/
def State.mailPut (s : State) (o : Nat) (bs : List Byte) (rsp : List Word) : State :=
  let r := s.lockedWrite .curator (unitPieces o bs)
  if !r.ok then r.s.mailDone mailMem []
  else if r.past then r.s
  else r.s.mailDone 0 rsp

/-- ECHO: the argument words come back. -/
def execEcho (s : State) : Host.Outcome State Fault Refusal :=
  .next (if s.mailIs 0x01 then
    let n := min 64 (match s.cur.mail with | some m => m.argw | none => 0)
    s.mailDone 0 ((List.range n).map (fun i => s.rg (Reg.curArg i)))
    else s)

/-- INFO: serial, firmware version, copy booted, milliseconds since the reset release of phase B (R393). -/
def execInfo (s : State) : Host.Outcome State Fault Refusal :=
  .next (if s.mailIs 0x02 then
    let ms := (s.cycle - s.cur.relAt) / 1250000
    s.mailDone 0 [word Config.serial.toNat, word (Config.serial.toNat / 2 ^ 32), Config.firmwareVersion s.cur.fwCopy,
      word s.cur.fwCopy, word ms, word (ms / 2 ^ 32)]
    else s)

/-- FLASH_READ: flash bytes to a DRAM offset. Whether the flash device reports an error is a free value (Table 15.2, log entry
95). -/
def execFlashRead (s : State) : Host.Outcome State Fault Refusal :=
  .next (if s.mailIs 0x10 then
    let o := s.arg 0
    let n := s.arg 1
    let d := s.arg64 2
    if o % 64 ≠ 0 ∨ n % 64 ≠ 0 ∨ d % 64 ≠ 0 ∨ 65536 < n ∨ 0x10000000 < o + n ∨ dramSize < d + n then s.mailDone mailBadArg []
    else if !s.ringUp then s.mailDone mailState []
    else
      let e := s.fresh 1
      if e.1 = 1 then e.2.mailDone mailFlash [] else e.2.mailPut d (e.2.flashRead o n) []
    else s)

/-- The 320 bytes of a mirror entry (R294, R380). -/
def Mirror.entry (m : Mirror) : List Byte := fit 64 (wordsToBytes m.words) ++ fit 256 m.bytes

/-- MIRROR_READ: mirror entries, oldest first, leave the ring for DRAM. -/
def execMirrorRead (s : State) : Host.Outcome State Fault Refusal :=
  .next (if s.mailIs 0x20 then
    let d := s.arg64 0
    let n := min (s.arg 2) s.cur.mirrors.length
    if dramSize < d + 320 * n then s.mailDone mailBadArg []
    else if !s.ringUp then s.mailDone mailState []
    else
      let bs := ((s.cur.mirrors.take n).map Mirror.entry).flatten
      let s1 := { s with cur := { s.cur with mirrors := s.cur.mirrors.drop n } }
      s1.mailPut d bs [word n, word s1.cur.mirrors.length]
    else s)

/-- ATTEST (R367): the signed report for the nonce at a DRAM offset. -/
def execAttest (s : State) : Host.Outcome State Fault Refusal :=
  .next (if s.mailIs 0x30 then
    let d := s.arg64 8
    if dramSize < d + 288 then s.mailDone mailBadArg []
    else if !s.ringUp then s.mailDone mailState []
    else s.mailPut d (s.report (wordsToBytes ((List.range 8).map (fun i => s.rg (Reg.curArg i))))) []
    else s)

/-- The size of a program memory: AS 32 KiB, XS 128 KiB (R71). -/
def progSize (mem : Nat) : Nat := if mem = 0 then 0x8000 else 0x20000

/-- Program bytes take their place in a station's memory. -/
def Stn.loadProg (x : Stn) (mem o : Nat) (bs : List Byte) : Stn :=
  if mem = 0 then { x with asMem := Cells.write zeroByte x.asMem o bs } else { x with xsMem := Cells.write zeroByte x.xsMem o bs }

/-- STN_PROG (R72, R379, R380): program bytes from DRAM, staged through a block of pool 4, which a busy pool delays. -/
def execStnProg (s : State) : Host.Outcome State Fault Refusal :=
  .next (if s.mailIs 0x40 then
    let k := s.arg 0
    let mem := s.arg 1
    let o := s.arg 2
    let n := s.arg 3
    let d := s.arg64 4
    if 64 ≤ k ∨ 2 ≤ mem ∨ o % 4 ≠ 0 ∨ n % 4 ≠ 0 ∨ 65536 < n ∨ progSize mem < o + n ∨ dramSize < d + n then
      s.mailDone mailBadArg []
    else
      let m := stnId k
      if !s.stnUp m || (s.st m).st = .running || !s.ringUp then s.mailDone mailState []
      else if (s.st m).lay.count 4 = 0 then (s.mailDone mailNoPool []).raise ⟨.cfg, 8⟩ uDevice []
      else match s.alloc m .curator 0 65536 with
        | none => s.clkWait m .curator 0 65536
        | some (i, b, s1) =>
          let r := s1.dramRead d n .curator
          match r.2 with
          | none => (r.1.modSt m (fun x => x.freeBlk i b)).mailDone mailMem []
          | some bs =>
            let at_ := (s1.st m).lay.start i + b * poolSize i
            (((r.1.vitWrite m at_ bs).modSt m (fun x => x.freeBlk i b)).modSt m (fun x => x.loadProg mem o bs)).mailDone 0 []
    else s)

/-- The opcodes of Table 15.1. -/
def mailOps : List Nat := [0x01, 0x02, 0x10, 0x20, 0x30, 0x40, 0x50]

/-- A mailbox command ends: CUR_RSP, the response words, DONE and the mailbox vector. -/
def State.answerMail (s : State) (m : Mail) (status : Nat) (rsp : List Word) : State :=
  let s1 := (rsp.zipIdx).foldl (fun t e => if e.2 < 64 then t.setRg (Reg.curRspWord e.2) e.1 else t) s
  let s2 := s1.setRg Reg.curRsp (word (status + m.tag * 2 ^ 8 + min 64 rsp.length * 2 ^ 16 + 2 ^ 31))
  { s2 with cur := { s2.cur with mail := none } }.curEvent 0

/-- MAILBOX_COMPLETE (R380): a performed command, or one with a reserved opcode, is answered. -/
def execMailboxComplete (s : State) : Host.Outcome State Fault Refusal :=
  .next (match s.cur.mail with
    | some m =>
      if !s.curReady then s
      else match m.done with
        | some (st, rsp) => s.answerMail m st rsp
        | none => if mailOps.contains m.op then s else s.answerMail m mailBadOp []
    | none => s)

end Sys2Proof.Machine
end

