-- ==== Sys2Proof/Machine/HostIf.lean ====
section
/-! DEFINITION. The host's windows into memory: BAR2 (R427, R428, R430, Table 17.2), BAR4 (R429), and a malformed BAR0
read (R426). -/

namespace Sys2Proof.Machine

open Sys2Proof

/-! ### Shared -/

/-- The size of the BAR2 window. An access that runs outside a window is no request of it: a read or an AtomicOp completes
as an unsupported request, and a write is dropped (log entry 17). -/
def bar2Size : Nat := 2 ^ 36

/-- The size of the BAR4 window. -/
def bar4Size : Nat := 2 ^ 24

/-- A completion of BAR `b` goes to the host. -/
def State.complete (s : State) (b : Nat) (c : CplStatus) (bs : List Byte) : State := s.emit (.completion b c bs)

/-- A field of GLB_PCIE_ERR counts, saturating at 0xFFFF. -/
def State.pcieErr (s : State) (lo : Nat) : State :=
  s.event Reg.glbPcieErr (fun w => setFld w lo 16 (min 0xFFFF (fld w lo 16 + 1)))

/-- An uncorrectable error joins the status of Advanced Error Reporting. -/
def State.aerBit (s : State) (i : Nat) : State := { s with pcie := { s.pcie with aer := setBit s.pcie.aer i true } }

/-- A poisoned TLP is discarded: counted, and reported through Advanced Error Reporting (R430), bit 12 of its status (log entry
20). -/
def State.poisoned (s : State) : State :=
  let t := (s.pcieErr 0).aerBit 12
  if bitOf t.pcie.amask 12 then t else t.emit .poisonedTlp

/-- The end-to-end CRC of received TLPs is checked: bit 8 of the control (R424, log entry 20). -/
def State.checksEcrc (s : State) : Bool := bitOf s.pcie.actl 8

/-- What becomes of a request that is not whole: one with EP = 1 is discarded, a read or AtomicOp with Unsupported Request
status (R430); one whose end-to-end CRC fails is discarded and reported as bit 19, where it is checked. Without auxiliary
power nothing is received. -/
def State.ifGood (s : State) (tlp : Tlp) (bar : Nat) (answers : Bool) (k : State) : State :=
  if !s.cur.aux then k else
  match tlp with
  | .poisoned => if answers then s.poisoned.complete bar .unsupported [] else s.poisoned
  | .badEcrc => if s.checksEcrc then s.aerBit 19 else k
  | _ => k

/-! ### BAR2 -/

/-- The DRAM offset of a BAR2 offset (R427): BASE above 512 acts as 512. -/
def State.aperture (s : State) (off : Nat) : Nat := min 512 (s.rf Reg.glbAperture 0 10) * 2 ^ 30 + off

/-- BAR2_READ (R427, R430): the request takes its place among the accesses of requester 9 (R340) and its data wait for the
completion; with the stacks not trained it is aborted. A zero-length read reads no byte. -/
def execBar2Read (off len : Nat) (tlp : Tlp) (s : State) : Host.Outcome State Fault Refusal :=
  .next (
    if !s.cur.aux then s
    else if bar2Size < off + len then s.complete 2 .unsupported []
    else s.ifGood tlp 2 true (
      if !s.ringUp then s.complete 2 .completerAbort []
      else
        let d := s.dramRead (s.aperture off) len .aperture
        { d.1 with bar2 := d.1.bar2 ++ [⟨d.2⟩] }))

/-- BAR2_READ_COMPLETE (R427, Table 17.2): the oldest request's data return, or Completer Abort. -/
def execBar2ReadComplete (s : State) : Host.Outcome State Fault Refusal :=
  .next (match s.bar2 with
    | [] => s
    | b :: r =>
      let s1 := { s with bar2 := r }
      match b.data with
      | some bs => if s.ringUp then s1.complete 2 .success bs else s1.complete 2 .completerAbort []
      | none => s1.complete 2 .completerAbort [])

/-- BAR2_WRITE (R427, R430, R344): a posted write; part of a word is a locked read-modify-write. -/
def execBar2Write (off : Nat) (bytes : List Byte) (tlp : Tlp) (s : State) : Host.Outcome State Fault Refusal :=
  .next (
    if !s.cur.aux || decide (bar2Size < off + bytes.length) then s
    else s.ifGood tlp 2 false (if !s.ringUp then s else (s.dramWrite (s.aperture off) bytes .aperture).1))

/-- Bytes of an AtomicOp operand. -/
def atomicBytes : AtomicWidth → Nat
  | .w32 => 4
  | .w64 => 8
  | .w128 => 16

/-- An AtomicOp as a locked sequence of a read and a write on its word (R342, R428): the old value is read, the new one
written, the old one returned. -/
def State.atomic (s : State) (off n : Nat) (f : Nat → Nat) : State :=
  let o := s.aperture off
  let l := s.loc o
  let t := s.seqStart l.stack l.chan (s.holdMax l.stack) .aperture
  let d := ((s.waited l.stack 9 (t - s.ctlCycle)).seqGrants l.stack l.chan t 2 .aperture).checkWords o n .aperture
  if !d.2 then d.1.complete 2 .completerAbort []
  else
    let bs := Cells.read zeroByte d.1.dram o n
    let s1 := if d.1.badAt o = 0 then d.1 else d.1.setBad o 0
    (s1.dramPut o (toLE n (f (ofLE bs)))).complete 2 .success bs

/-- The number of a BAR. -/
def barNum : Bar → Nat
  | .bar0 => 0
  | .bar2 => 2
  | .bar4 => 4

/-- An AtomicOp: one of BAR0 or BAR4, 128 bits, or an operand that is not aligned to its size, completes as unsupported (R428,
Table 17.2). -/
def State.atomicOp (s : State) (o : AtomicAt) (w : AtomicWidth) (f : Nat → Nat) : Host.Outcome State Fault Refusal :=
  let n := atomicBytes w
  .next (
    if !s.cur.aux then s
    else s.ifGood o.tlp (barNum o.bar) true (
      if o.bar ≠ .bar2 ∨ bar2Size < o.off + n ∨ n = 16 ∨ o.off % n ≠ 0 then s.complete (barNum o.bar) .unsupported []
      else if !s.ringUp then s.complete 2 .completerAbort []
      else s.atomic o.off n f))

/-- BAR2_FETCHADD (R428). -/
def execBar2Fetchadd (off : AtomicAt) (w : AtomicWidth) (v : DWord) (s : State) :
    Host.Outcome State Fault Refusal :=
  s.atomicOp off w (fun old => old + v.toNat)

/-- BAR2_SWAP (R428). -/
def execBar2Swap (off : AtomicAt) (w : AtomicWidth) (v : DWord) (s : State) :
    Host.Outcome State Fault Refusal :=
  s.atomicOp off w (fun _ => v.toNat)

/-- BAR2_CAS (R428). -/
def execBar2Cas (off : AtomicAt) (w : AtomicWidth) (cmp v : DWord) (s : State) :
    Host.Outcome State Fault Refusal :=
  s.atomicOp off w (fun old => if old = cmp.toNat % 256 ^ atomicBytes w then v.toNat else old)

/-! ### BAR4 -/

/-- The station that a BAR4 offset shows (R429). -/
def State.vitStn (s : State) (off : Nat) : StnId :=
  stnId (if off < 2 ^ 23 then s.rf Reg.glbVitSel 0 6 else s.rf Reg.glbVitSel 8 6)

/-- The parts of a BAR4 access in the two halves: BAR4 offset and length. -/
def vitParts (off len : Nat) : List (Nat × Nat) :=
  if off < 2 ^ 23 ∧ 2 ^ 23 < off + len then [(off, 2 ^ 23 - off), (2 ^ 23, off + len - 2 ^ 23)] else [(off, len)]

/-- A station whose Vitrine BAR4 can reach: powered, and not of role OFF. -/
def State.vitUp (s : State) (n : StnId) : Bool := (s.st n).powered && s.role n != 0

/-- A BAR4 read of one half: an unpowered station answers nothing; an uncorrectable word halts the station (R352). -/
def State.vitFetch (s : State) (off len : Nat) : State × Option (List Byte) :=
  let n := s.vitStn off
  if !s.vitUp n then (s, none)
  else
    let r := s.vitRead n (off % 2 ^ 23) len
    match r.2 with
    | some bs => (r.1, some bs)
    | none => (r.1.halt n ⟨.mem, 2⟩ none, none)

/-- BAR4_READ (R429, R351, R430). -/
def execBar4Read (off len : Nat) (tlp : Tlp) (s : State) : Host.Outcome State Fault Refusal :=
  .next (
    if !s.cur.aux then s
    else if bar4Size < off + len then s.complete 4 .unsupported []
    else s.ifGood tlp 4 true (
      let r := (vitParts off len).foldl (fun (p : State × Option (List Byte)) e =>
        let q := p.1.vitFetch e.1 e.2
        (q.1, match p.2, q.2 with | some a, some b => some (a ++ b) | _, _ => none)) (s, some [])
      match r.2 with
      | some bs => r.1.complete 4 .success bs
      | none => r.1.complete 4 .completerAbort []))

/-- One word's part written through BAR4 to the program region (R429): a whole word replaces it, a part is merged; an
uncorrectable word stays, with MEM-02 and no halt. -/
def State.vitMerge (s : State) (n : StnId) (o : Nat) (bs : List Byte) : State :=
  let b := (s.st n).vitBadAt o
  let w := o / 8 * 8
  if bs.length = 8 ∨ b = 0 then s.vitWrite n o bs
  else if b ≤ 2 then (s.vitCe n).modSt n (fun x => (x.vitPut o bs).vitFresh w 8)
  else (s.vitUe n w 0).raise ⟨.mem, 2⟩ (uStn n) []

/-- A BAR4 write of one half; bytes of the Cloakroom region are discarded. Answers whether some were. -/
def State.vitStore (s : State) (off : Nat) (bs : List Byte) : State × Bool :=
  let n := s.vitStn off
  let o := off % 2 ^ 23
  let room := (s.st n).lay.prog * 65536 - o
  if !s.vitUp n then (s, false)
  else ((wordPieces o (bs.take room)).foldl (fun t e => t.vitMerge n e.1 e.2) s, decide (room < bs.length))

/-- BAR4_WRITE (R429, R430): a write with discarded bytes counts once in GLB_PCIE_ERR.DISCARD. -/
def execBar4Write (off : Nat) (bytes : List Byte) (tlp : Tlp) (s : State) : Host.Outcome State Fault Refusal :=
  .next (
    if !s.cur.aux || decide (bar4Size < off + bytes.length) then s
    else s.ifGood tlp 4 false (
      let r := (vitParts off bytes.length).foldl (fun (p : State × Bool) e =>
        let q := p.1.vitStore e.1 ((bytes.drop (e.1 - off)).take e.2)
        (q.1, p.2 || q.2)) (s, false)
      if r.2 then r.1.pcieErr 16 else r.1))

/-! ### BAR0 -/

/-- A BAR0 TLP of `n` DW is malformed: a byte enable is clear, or it is longer than 16 DW (R426). -/
def bar0Bad (tlp : Tlp) (n : Nat) : Bool := decide (tlp = .holed ∨ 16 < n)

/-- BAR0_MALFORMED_READ (R426): zeros, no register acts, GLB_STATUS.BAR0_PARTIAL. -/
def execBar0MalformedRead (dws : Nat) (s : State) : Host.Outcome State Fault Refusal :=
  .next (if s.cur.aux then (s.setBitEvt Reg.glbStatus 7).complete 0 .success (zeros (4 * dws)) else s)

end Sys2Proof.Machine
end

