-- ==== Sys2Proof/Machine/Lupin.lean ====
section
/-! DEFINITION. Lupin (R233 to R252): the job descriptor, the modes compact, expand, gather, permute and check, the
faults SPA-01 to SPA-04, and the commands that start a job and take a tile. -/

namespace Sys2Proof.Machine

open Sys2Proof

/-! ### The descriptor (Table 9.1) -/

/-- A word of a job descriptor. -/
def LupJob.dw (j : LupJob) (i : Nat) : Word := nth j.desc i 0
/-- FMT of the job, with BS. -/
def LupJob.fmt (j : LupJob) : Nat := fld (j.dw 0) 4 5
/-- The format code. -/
def LupJob.code (j : LupJob) : Nat := fld (j.dw 0) 4 4
/-- BS of the job's format. -/
def LupJob.bs (j : LupJob) : Bool := bitOf (j.dw 0) 8
/-- SBLK. -/
def LupJob.sblk (j : LupJob) : Nat := fld (j.dw 0) 9 3
/-- TRANS. -/
def LupJob.trans (j : LupJob) : Bool := bitOf (j.dw 0) 12
/-- FORM. -/
def LupJob.form (j : LupJob) : Bool := bitOf (j.dw 0) 13
/-- TARGET. -/
def LupJob.target (j : LupJob) : Bool := bitOf (j.dw 0) 14
/-- IDX. -/
def LupJob.idx (j : LupJob) : Bool := bitOf (j.dw 0) 15
/-- NR. -/
def LupJob.nr (j : LupJob) : Nat := fld (j.dw 1) 0 16
/-- K. -/
def LupJob.k (j : LupJob) : Nat := fld (j.dw 1) 16 16
/-- A 64-bit field in words `i` and `i + 1`. -/
def LupJob.dd (j : LupJob) (i : Nat) : DWord := dword ((j.dw i).toNat + (j.dw (i + 1)).toNat * 2 ^ 32)
/-- TSCALE of a value output of the job. -/
def LupJob.tscale (j : LupJob) : Nat := if bsCode j.code then fld (j.dw 8) 0 8 else 0x7F
/-- NDECL. -/
def LupJob.nd (j : LupJob) : Nat := fld (j.dw 8) 16 4
/-- MCODE. -/
def LupJob.mc (j : LupJob) : Nat := fld (j.dw 8) 20 2
/-- OUT_ROWS. -/
def LupJob.outRows (j : LupJob) : Nat := fld (j.dw 9) 0 7
/-- NOUT. -/
def LupJob.nout (j : LupJob) : Nat := (j.dw 12).toNat
/-- Row capacity of the job's format. -/
def LupJob.cap (j : LupJob) : Nat := rowCap j.code

/-- Chunks of a full pair of a stream in a format (R242): 16, and of FP64, whose tile has no 16 rows, as many as it has (R49,
log entry 51). -/
def pairChunks (code : Nat) : Nat := min 16 (rowCap code)
/-- QB: column blocks of the matrix (R243). -/
def LupJob.qb (j : LupJob) : Nat := cdiv j.k 64
/-- Bands of the matrix. -/
def LupJob.nb (j : LupJob) : Nat := cdiv j.nr j.cap

/-- The bits of a descriptor word that the mode uses (R235). -/
def LupJob.mask (j : LupJob) (i : Nat) : Nat :=
  let m := j.mode
  if i = 0 then
    0xFFF + (if m = 2 then 0x9000 else 0) + (if m = 0 then 0x2000 else 0) + (if m = 1 then 0x4000 else 0)
  else if i = 1 then (if m = 0 ∨ m = 1 ∨ m = 4 then 0xFFFFFFFF else 0)
  else if 2 ≤ i ∧ i ≤ 5 then (if m = 2 then 0xFFFFFFFF else 0)
  else if i = 6 ∨ i = 7 then (if m = 2 ∧ j.bs then 0xFFFFFFFF else 0)
  else if i = 8 then (if m ≤ 2 then 0xFF else 0) + (if m = 0 ∧ j.form then 0x3F0000 else 0)
  else if i = 9 then (if m = 3 then 0x7F else 0)
  else if 10 ≤ i ∧ i ≤ 12 then (if m = 3 then 0xFFFFFFFF else 0)
  else 0

/-- The first descriptor word that is malformed (R235, R243, R246, R248). A TSCALE of 0xFF is malformed where the job's
outputs would carry it: the device never writes one (R120, log entry 120). -/
def LupJob.badWord (j : LupJob) : Option Nat :=
  firstBelow 16 (fun i =>
    decide ((j.dw i &&& ~~~(word (j.mask i))) ≠ 0) ||
    (if i = 0 then
      fld (j.dw 0) 0 4 != j.mode || !fmtOk j.code || (j.bs && !bsCode j.code) ||
      (if j.bs then decide (j.sblk < 1 ∨ 4 < j.sblk) else j.sblk != 0) ||
      (decide (j.mode ≤ 1) && j.bs) || (j.mode == 2 && j.bs && (j.sblk == 4 || j.trans))
    else if i = 1 then
      (j.mode == 0 || j.mode == 1 || j.mode == 4) && (j.nr == 0 || j.k == 0 ||
        (j.mode == 0 || (j.mode == 1 && !j.target)) && decide (16 < j.qb)) ||
      (j.mode == 0 && j.form && (j.mc == 3 || j.k % groupM j.mc != 0))
    else if i = 4 then (j.dw 4).toNat % 64 != 0
    else if i = 8 then
      (j.mode == 0 && j.form && (j.mc == 3 || j.nd == 0 || decide (groupM j.mc / 2 < j.nd))) ||
      (decide (j.mode ≤ 2) && bsCode j.code && fld (j.dw 8) 0 8 == 0xFF)
    else if i = 9 then j.mode == 3 && (j.outRows == 0 || decide (j.cap < j.outRows))
    else false))

/-! ### Faults and outputs -/

/-- What stops a job: the code, the element's place and the element (R251); with MEM-02 the source of the bad word stands in the
element's place, as State.haltMem takes it. -/
structure LErr where
  code : Code
  row  : Nat
  col  : Nat
  elem : Word
  deriving DecidableEq, Repr

/-- An SPA fault. -/
def spa (n row col elem : Nat) : LErr := ⟨⟨.spa, n⟩, row, col, word elem⟩

/-- A popped input with its bytes. -/
structure LIn where
  idx  : Nat
  th   : TH
  body : List Byte
  deriving DecidableEq, Repr

/-- An output's header (R234): shape, TSCALE, NF, FZ, LAST and SEQ over the fields of an input header. -/
def lupHdr (f : TH) (w0 : Word) (tscale seq : Nat) (nf fz last : Bool) : TH :=
  ((((({ f with w0 := w0, w1 := setBit f.w1 0 false, w2 := word seq, w7 := 0 }).setLast last).setNf nf).setFz fz).setTscale
    tscale).clean

/-- An output formed from the job's first input header. -/
def Lupin.form (l : Lupin) (w0 : Word) (tscale seq : Nat) (nf fz last : Bool) (bytes : List Byte) : TH × List Byte :=
  (lupHdr (l.first.getD TH.zero) w0 tscale seq nf fz last, bytes)

/-- Lupin with outputs added. -/
def Lupin.put (l : Lupin) (o : List (TH × List Byte)) : Lupin := { l with todo := l.todo ++ o, nOut := l.nOut + o.length }

/-- The last output that the job has given carries LAST: it waits for its block, or is formed. -/
def Lupin.setLast (l : Lupin) : Lupin :=
  if l.todo.isEmpty then
    { l with outs := l.outs.dropLast ++ (l.outs.getLast?.map (fun (t : Tile) => { t with th := t.th.setLast true })).toList }
  else { l with todo := l.todo.dropLast ++ (l.todo.getLast?.map (fun o => (o.1.setLast true, o.2))).toList }

/-- The rows of a tile's raw elements, 64 to a row. -/
def LIn.rows (i : LIn) : List (List Nat) := blocksOf 64 i.th.rows (elemsOf i.th.code i.body)

/-- The rows of a metadata tile's elements (R238). -/
def LIn.metas (i : LIn) : List (List Nat) := metaRowsOf i.th.rows i.body

/-- The first element of a tile, for a fault of the tile's shape. -/
def LIn.head (i : LIn) : Nat := nth (nth i.rows 0 []) 0 0

/-- A raw element is ±0 of a float format, or an integer 0 (R243). -/
def isZero (c b : Nat) : Bool :=
  match floatFmt c with
  | some f => b % 2 ^ (f.eb + f.mb) == 0
  | none => b == 0

/-- Rows of elements as a payload: each row padded to 64 elements. -/
def rowsPayload (c : Nat) (l : List (List Nat)) : List Byte :=
  payloadOf c (l.flatMap (fun r => r.take 64 ++ List.replicate (64 - r.length) 0))

/-! ### compact (R243) -/

/-- Slots of row `i` of an input at column block `q`. -/
def LIn.slots (t : LIn) (row i col : Nat) : List Slot :=
  ((nth t.rows i []).take t.th.cols).zipIdx.filterMap (fun p =>
    if isZero t.th.code p.1 then none else some ⟨row, col + p.2, p.1, t.th.nf, t.th.fz⟩)

/-- The (V, P) pair `u` of a stream from at most 1,024 slots (R241). -/
def Lupin.pair (l : Lupin) (j : LupJob) (u : Nat) (sl : List Slot) (last : Bool) : List (TH × List Byte) :=
  let chunks := max 1 (cdiv sl.length 64)
  let nf := sl.any (fun x => x.nf)
  let fz := sl.any (fun x => x.fz)
  let fill (f : Slot → Nat) (e : Nat) : List (List Nat) :=
    blocksOf 64 chunks (sl.map f ++ List.replicate (chunks * 64 - sl.length) e)
  [ l.form (TH.shape j.code 0 chunks 64 chunks) j.tscale u nf fz false (rowsPayload j.code (fill (fun x => x.val) 0)),
    l.form (TH.shape 9 0 chunks 64 chunks) 0x7F u nf fz last
      (rowsPayload 9 (fill (fun x => x.col + x.row * 2 ^ 16) 0xFFFFFFFF)) ]

/-- Full pairs leave; the last 1 to 1,024 slots stay until the job ends, since LAST stands on the final P. -/
def Lupin.flushPairs (l : Lupin) (j : LupJob) (ended : Bool) : Lupin :=
  let full := 64 * pairChunks j.code
  let n := if ended then max 1 (cdiv l.slots.length full) else (l.slots.length - 1) / full
  let bl := blocksOf full n l.slots
  let o := bl.zipIdx.flatMap (fun p => l.pair j (l.nextU + p.2) p.1 (ended && p.2 + 1 == n))
  { (l.put o) with slots := l.slots.drop (full * n), nextU := l.nextU + n }

/-- The shape a dense tile `t` of the matrix must have: rows and columns. -/
def LupJob.denseShape (j : LupJob) (t : Nat) : Nat × Nat :=
  (min j.cap (j.nr - t / j.qb * j.cap), min 64 (j.k - t % j.qb * 64))

/-- An input is a dense tile of the matrix, in its turn (R243). -/
def LupJob.denseOk (j : LupJob) (t : LIn) : Bool :=
  let total := j.nb * j.qb
  !t.th.hdrOnly && t.th.fmt == j.fmt && t.th.seq == word t.idx && decide (t.idx < total) &&
  (t.th.rows, t.th.cols) == j.denseShape t.idx && t.th.last == (t.idx + 1 == total)

/-- One row's groups under FORM = 1: the kept values of each group with its mask, or the element that overfills. -/
def groupRow (m nd code row : Nat) (els : List Nat) : Except LErr (List (List Nat × Nat)) :=
  (blocksOf m (els.length / m) els).zipIdx.mapM (fun g =>
    let nz := g.1.zipIdx.filter (fun p => !isZero code p.1)
    match nz[nd]? with
    | some e => .error (spa 1 row (g.2 * m + e.2) e.1)
    | none => .ok ((nz.map (fun p => p.1)) ++ List.replicate (nd - nz.length) 0,
        (nz.map (fun p => 2 ^ p.2)).foldl (· + ·) 0))

/-- compact: an input of the matrix. `held` are the tiles of the band with this one last. -/
def compactStep (j : LupJob) (l : Lupin) (held : List LIn) (t : LIn) : Except LErr (Lupin × List Nat) :=
  if !j.denseOk t then .error (spa 3 0 0 t.head)
  else if j.form then do
    let m := groupM j.mc
    let rows ← t.rows.zipIdx.mapM (fun r => groupRow m j.nd j.code r.2 (r.1.take t.th.cols))
    let g := t.th.cols / m
    let v := l.form (TH.shape j.code 0 t.th.rows (g * j.nd) t.th.valid) j.tscale l.nOut t.th.nf t.th.fz false
      (rowsPayload j.code (rows.map (fun r => r.flatMap (fun p => p.1))))
    let tm := l.form (TH.shape 9 0 t.th.rows g t.th.valid) 0x7F (l.nOut + 1) t.th.nf t.th.fz t.th.last
      (metaPayload (rows.map (fun r => r.map (fun p => p.2 + j.nd * 2 ^ 16 + j.mc * 2 ^ 20))))
    .ok (l.put [v, tm], [])
  else if held.length < j.qb then .ok (l, held.map (fun h => h.idx))
  else
    let b := t.idx / j.qb
    let new := (List.range t.th.rows).flatMap (fun i =>
      held.zipIdx.flatMap (fun h => h.1.slots (b * j.cap + i) i (64 * h.2)))
    .ok (({ l with slots := l.slots ++ new }).flushPairs j t.th.last, [])

/-! ### Reading streams and structured pairs (R240 to R242) -/

/-- The slots of a pair, in order: chunk, place, position word, value. -/
def pairSlots (v p : LIn) : List (Nat × Nat × Nat × Nat) :=
  (List.zip v.rows p.rows).zipIdx.flatMap (fun c =>
    (List.zip c.1.1 c.1.2).zipIdx.map (fun e => (c.2, e.2, e.1.2, e.1.1)))

/-- The empty slot's position. -/
def emptySlot : Nat := 0xFFFFFFFF

/-- The first fault of a pair's slots in slot order (R242), and the last position read. `stray` is the first empty slot
that does not stand at the end of the last chunk. -/
def scanSlots (nr k : Nat) (stray : Option (Nat × Nat)) :
    Option (Nat × Nat) → List (Nat × Nat × Nat × Nat) → Except LErr (Option (Nat × Nat))
  | pos, [] => .ok pos
  | pos, (c, i, w, _) :: r =>
    if w = emptySlot then
      if stray = some (c, i) then .error (spa 4 c i w) else scanSlots nr k stray pos r
    else
      let row := w / 2 ^ 16
      let col := w % 2 ^ 16
      if nr ≤ row ∨ k ≤ col then .error (spa 2 c i w)
      else
        let later := match pos with
          | none => true
          | some (a, b) => decide (a < row ∨ (a = row ∧ b < col))
        if later then scanSlots nr k stray (some (row, col)) r else .error (spa 4 c i w)

/-- The first empty slot of a pair that does not stand at the end of the last chunk of the stream (R242): a chunk of
empty slots only is well placed when the stream has no other. -/
def strayEmpty (sl : List (Nat × Nat × Nat × Nat)) (chunks : Nat) (last sole : Bool) : Option (Nat × Nat) :=
  let isEmpty (e : Nat × Nat × Nat × Nat) : Bool := e.2.2.1 == emptySlot
  let tailStart := sl.length - ((sl.reverse.takeWhile isEmpty).length)
  let good := if last && (decide ((chunks - 1) * 64 < tailStart) || (sole && chunks == 1)) then tailStart else sl.length
  ((sl.take good).find? isEmpty).map (fun e => (e.1, e.2.1))

/-- A pair of a stream is well formed (R241, R242): the last position read. -/
def streamPair (j : LupJob) (l : Lupin) (v p : LIn) : Except LErr (Option (Nat × Nat)) :=
  let u := p.idx / 2
  if v.th.cols ≠ 64 ∨ v.th.bs ∨ 16 < v.th.rows then .error (spa 3 0 0 v.head)
  else if v.th.rows ≠ p.th.rows ∨ v.th.seq ≠ word u ∨ p.th.seq ≠ word u then .error (spa 4 0 0 p.head)
  else
    let sl := pairSlots v p
    match scanSlots j.nr j.k (strayEmpty sl p.th.rows p.th.last (u == 0)) l.lastPos sl with
    | .error e => .error e
    | .ok pos =>
      if p.th.rows < pairChunks v.th.code ∧ !p.th.last then
        .error (spa 4 (p.th.rows - 1) 63 (nth (nth p.rows (p.th.rows - 1) []) 63 0))
      else .ok pos

/-- A shape that R240 refuses with STN-02. -/
def shapeErr : LErr := ⟨⟨.stn, 2⟩, 0, 0, 0⟩

/-- A structured pair is well formed (R240): M and NDECL. -/
def structPair (v tm : LIn) : Except LErr (Nat × Nat) :=
  let ms := tm.metas.map (fun r => (r.take tm.th.cols).map word)
  let first := nth (nth ms 0 []) 0 0
  let m := groupM (fld first 20 2)
  let nd := fld first 16 4
  let widths := v.th.cols == tm.th.cols * nd && decide (tm.th.cols * m ≤ 64)
  if v.th.rows ≠ tm.th.rows then .error shapeErr
  else
    match (ms.zipIdx.flatMap (fun r => r.1.zipIdx.map (fun c => (r.2, c.2, c.1)))).findSome? (fun e =>
        (metaFault first e.2.2 (widths || e.1 != 0 || e.2.1 != 0)).map (fun c => (c, e))) with
    | some (c, e) => .error (spa c e.1 e.2.1 e.2.2.toNat)
    | none => .ok (m, nd)

/-- A pair is a stream's when its second tile has 64 columns; a structured form's metadata tile has at most 16. -/
def isStream (p : LIn) : Bool := p.th.cols == 64

/-- The first tile of a pair, V, must not carry LAST; the second must be an element tile of FMT 0x9, or raises STN-02 as
in R240 (log entry 120). -/
def pairShape (held : List LIn) (t : LIn) : Option LErr :=
  if t.th.hdrOnly then some (spa 3 0 0 0)
  else match held with
    | [_] => if t.th.last then some (spa 4 0 0 t.head) else none
    | _ => if t.th.fmt ≠ 9 then some shapeErr else none

/-! ### check (R249) -/

/-- check: a pair is read, and its tiles pass unchanged. `held` ends with this tile. -/
def checkStep (j : LupJob) (l : Lupin) (held : List LIn) (t : LIn) : Except LErr (Lupin × List Nat) :=
  match pairShape held t with
  | some e => .error e
  | none =>
    match held with
    | [v, p] =>
      if isStream p then
        match streamPair j l v p with
        | .error e => .error e
        | .ok pos => .ok (({ l with lastPos := pos }).put [(v.th, v.body), (p.th, p.body)], [])
      else
        match structPair v p with
        | .error e => .error e
        | .ok _ => .ok (l.put [(v.th, v.body), (p.th, p.body)], [])
    | _ => .ok (l, held.map (fun h => h.idx))

/-! ### expand (R244) -/

/-- Dense tile `t` of the matrix from the slots of its band. -/
def Lupin.dense (l : Lupin) (j : LupJob) (t : Nat) (sl : List Slot) (last : Bool) : TH × List Byte :=
  let (rows, cols) := j.denseShape t
  let r0 := t / j.qb * j.cap
  let c0 := t % j.qb * 64
  let mine := sl.filter (fun x => decide (r0 ≤ x.row ∧ x.row < r0 + rows ∧ c0 ≤ x.col ∧ x.col < c0 + cols))
  let at_ (i k : Nat) : Nat := match mine.find? (fun x => x.row = r0 + i ∧ x.col = c0 + k) with
    | some x => x.val
    | none => 0
  l.form (TH.shape j.code 0 rows cols rows) j.tscale t (mine.any (fun x => x.nf)) (mine.any (fun x => x.fz)) last
    (rowsPayload j.code ((List.range rows).map (fun i => (List.range cols).map (at_ i))))

/-- The bands that no later slot can reach leave as dense tiles. -/
def Lupin.flushBands (l : Lupin) (j : LupJob) (ended : Bool) : Lupin :=
  let upto := if ended then j.nb else match l.lastPos with | some (r, _) => r / j.cap | none => 0
  let n := upto - l.nextU
  let o := (List.range (n * j.qb)).map (fun i =>
    let t := l.nextU * j.qb + i
    l.dense j t l.slots (ended && t + 1 == j.nb * j.qb))
  { (l.put o) with nextU := l.nextU + n, slots := l.slots.filter (fun x => decide (upto * j.cap ≤ x.row)) }

/-- The slots of a chunk cut into segments of equal ROW (R244): row, and (place, value) pairs. -/
def segments : List (Nat × Nat × Nat) → List (Nat × List (Nat × Nat))
  | [] => []
  | (i, row, v) :: r =>
    match segments r with
    | (row', ps) :: rest => if row = row' then (row, (i, v) :: ps) :: rest else (row, [(i, v)]) :: (row', ps) :: rest
    | [] => [(row, [(i, v)])]

/-- The segment tiles and the row-map tile of a chunk. -/
def Lupin.chunk (l : Lupin) (j : LupJob) (v p : LIn) (c : Nat) (last : Bool) : List (TH × List Byte) :=
  let seg := segments ((pairSlots v p).filterMap (fun e =>
    if e.1 = c ∧ e.2.2.1 ≠ emptySlot then some (e.2.1, e.2.2.1 / 2 ^ 16, e.2.2.2) else none))
  if seg.isEmpty then []
  else
    let nf := v.th.nf || p.th.nf
    let fz := v.th.fz || p.th.fz
    let row (ps : List (Nat × Nat)) : List Nat := (List.range 64).map (fun k =>
      match ps.find? (fun q => q.1 = k) with | some q => q.2 | none => 0)
    let tiles := (blocksOf j.cap (cdiv seg.length j.cap) seg).zipIdx.map (fun b =>
      l.form (TH.shape j.code 0 b.1.length 64 b.1.length) j.tscale (l.nOut + b.2) nf fz false
        (rowsPayload j.code (b.1.map (fun x => row x.2))))
    tiles ++ [l.form (TH.shape 9 0 1 seg.length 1) 0x7F (l.nOut + tiles.length) nf fz last
      (rowsPayload 9 [seg.map (fun x => x.1)])]

/-- expand: a pair gives dense tiles, or segment tiles and row maps. `held` ends with this tile. -/
def expandStep (j : LupJob) (l : Lupin) (held : List LIn) (t : LIn) : Except LErr (Lupin × List Nat) :=
  match pairShape held t with
  | some e => .error e
  | none =>
    match held with
    | [v, p] =>
      if isStream p then
        match streamPair j l v p with
        | .error e => .error e
        | .ok pos =>
          if j.target then
            let l1 := { l with lastPos := pos }
            .ok ((List.range p.th.rows).foldl (fun a c =>
              a.put (a.chunk j v p c (p.th.last && c + 1 == p.th.rows))) l1, [])
          else
            let new := (pairSlots v p).filterMap (fun e =>
              if e.2.2.1 = emptySlot then none
              else some ⟨e.2.2.1 / 2 ^ 16, e.2.2.1 % 2 ^ 16, e.2.2.2, v.th.nf || p.th.nf, v.th.fz || p.th.fz⟩)
            .ok (({ l with lastPos := pos, slots := l.slots ++ new }).flushBands j p.th.last, [])
      else if j.target then .error (spa 3 0 0 p.head)
      else
        match structPair v p with
        | .error e => .error e
        | .ok (m, nd) =>
          let d := p.idx / 2
          let total := j.nb * j.qb
          if total ≤ d ∨ (v.th.rows, p.th.cols * m) ≠ j.denseShape d ∨ p.th.last ≠ (d + 1 == total) then
            .error (spa 3 0 0 p.head)
          else
            let rows := List.zipWith (fun (mr : List Nat) (vr : List Nat) =>
              (mr.take p.th.cols).zipIdx.flatMap (fun g => (List.range m).map (fun b =>
                if g.1 % 2 ^ 16 / 2 ^ b % 2 = 1 then nth vr (g.2 * nd + popCount (g.1 % 2 ^ 16 % 2 ^ b)) 0 else 0)))
              p.metas v.rows
            .ok (l.put [l.form (TH.shape j.code 0 v.th.rows (p.th.cols * m) v.th.valid) j.tscale d
              (v.th.nf || p.th.nf) (v.th.fz || p.th.fz) p.th.last (rowsPayload j.code rows)], [])
    | _ => if t.th.fmt ≠ j.fmt then .error (spa 3 0 0 t.head) else .ok (l, held.map (fun h => h.idx))

/-! ### gather (R246) -/

/-- A gathered row of +0. -/
def LupJob.zeroRow (j : LupJob) (t : TH) : GRow :=
  ⟨zeros (64 * elemSize j.code), if j.bs then List.replicate (64 / sblkSize j.sblk) 0x7F else [], t.nf, t.fz⟩

/-- Source row `i`, read through the station's Porter requests. -/
def State.gatherRow (s : State) (n : StnId) (j : LupJob) (t : TH) (i : Nat) (e : LErr) : State × Except LErr GRow :=
  let len := 64 * elemSize j.code
  let a := j.dd 2 + dword (i * (j.dw 4).toNat)
  let sl := 64 / sblkSize j.sblk
  let sa := j.dd 6 + dword (i * sl)
  if !(s.st n).addrOk a len || (j.bs && !(s.st n).rangeOk sa sl) then (s, .error { e with code := ⟨.stn, 6⟩ })
  else
    let r := s.memRead n a len
    match r.2 with
    | none => (r.1, .error { e with code := ⟨.mem, 2⟩, elem := word (s.ueOf a len) })
    | some d =>
      if j.bs then
        let q := r.1.memRead n sa sl
        match q.2 with
        | none => (q.1, .error { e with code := ⟨.mem, 2⟩, elem := word (s.ueOf sa sl) })
        | some sd => (q.1, .ok ⟨d, sd, t.nf, t.fz⟩)
      else (r.1, .ok ⟨d, [], t.nf, t.fz⟩)

/-- The rows that index elements name, in order: place and element. -/
def State.gatherRows (s : State) (n : StnId) (j : LupJob) (t : TH) : List (Nat × Nat × Nat) → State × Except LErr (List GRow)
  | [] => (s, .ok [])
  | (r, c, w) :: rest =>
    let ones := if t.code = 8 then 0xFFFF else 0xFFFFFFFF
    let i := if j.idx then w % 2 ^ 16 else w
    let one : State × Except LErr GRow :=
      if w = ones then (s, .ok (j.zeroRow t))
      else if (j.dw 5).toNat ≤ i then (s, .error (spa 2 r c w))
      else s.gatherRow n j t i (spa 2 r c w)
    match one.2 with
    | .error e => (one.1, .error e)
    | .ok g =>
      let q := one.1.gatherRows n j t rest
      match q.2 with
      | .error e => (q.1, .error e)
      | .ok gs => (q.1, .ok (g :: gs))

/-- An output of gathered rows with TRANS = 0. -/
def Lupin.gatherTile (l : Lupin) (j : LupJob) (seq : Nat) (g : List GRow) : TH × List Byte :=
  l.form (TH.shape j.fmt j.sblk j.cap 64 g.length) j.tscale seq (g.any (fun x => x.nf)) (g.any (fun x => x.fz)) false
    (fit 4096 (g.flatMap (fun x => x.data)) ++
      (if j.bs then
        let sd := g.flatMap (fun x => x.side)
        sd ++ List.replicate (sidecarLen true j.sblk - sd.length) 0x7F
       else []))

/-- The tiles of one index row with TRANS = 1. -/
def Lupin.gatherTrans (l : Lupin) (j : LupJob) (g : List GRow) : List (TH × List Byte) :=
  let cols := g.map (fun x => chunkLE (elemSize j.code) 64 x.data)
  (List.range (cdiv 64 j.cap)).map (fun h =>
    l.form (TH.shape j.code 0 j.cap g.length j.cap) j.tscale (l.nOut + h) (g.any (fun x => x.nf)) (g.any (fun x => x.fz))
      false (rowsPayload j.code ((List.range j.cap).map (fun r => cols.map (fun c => nth c (h * j.cap + r) 0)))))

/-- gather: the index elements of a tile. The last output formed stays until another follows or the job ends. -/
def State.gatherStep (s : State) (n : StnId) (j : LupJob) (l : Lupin) (t : LIn) :
    State × Except LErr (Lupin × List Nat) :=
  if !t.th.hdrOnly && (if j.idx then t.th.fmt != 9 else t.th.fmt != 8 && t.th.fmt != 9) then (s, .error (spa 3 0 0 t.head))
  else
    let rows := if t.th.hdrOnly then [] else (t.rows.take t.th.valid).map (fun r => r.take t.th.cols)
    let els := rows.zipIdx.flatMap (fun r => r.1.zipIdx.map (fun e => (r.2, e.2, e.1)))
    let q := s.gatherRows n j t.th els
    match q.2 with
    | .error e => (q.1, .error e)
    | .ok gs =>
      let l1 :=
        if j.trans then
          (blocksOf t.th.cols rows.length gs).foldl (fun a g => a.put (a.gatherTrans j g)) l
        else
          let all := l.rows ++ gs
          let k := if t.th.last then cdiv all.length j.cap else all.length / j.cap
          let o := (blocksOf j.cap k all).zipIdx.map (fun b => l.gatherTile j (l.nOut + b.2) b.1)
          { (l.put o) with rows := all.drop (k * j.cap) }
      (q.1, .ok (if t.th.last then l1.setLast else l1, []))

/-! ### permute (R248) -/

/-- Pad rows of a row map. -/
def padEntry : Nat := 0xFFFFFFFF

/-- The entries of output tile `u`: each names an input index and an input row. -/
def permEntries (j : LupJob) (bytes : List Byte) : List Nat := chunkLE 4 j.outRows bytes

/-- The first fault of a tile's entries (R248). `low` is the lowest input that the tile before named, `new` the newest
input named by the job with this tile's own, `n` the inputs of the job when it has ended. -/
def permFault (j : LupJob) (held : List LIn) (n low new : Nat) (es : List Nat) : Option LErr :=
  es.zipIdx.findSome? (fun p =>
    let w := p.1
    let r := p.2
    if w = padEntry then none
    else
      let i := w % 2 ^ 16
      let row := w / 2 ^ 16 % 64
      let pairs := j.bs && j.sblk == 4
      let even := nth es (r - r % 2) padEntry
      let odd := nth es (r - r % 2 + 1) padEntry
      if pairs && !(decide (even / 2 ^ 16 % 2 = 0) && odd == even + 2 ^ 16) then some (spa 3 r 0 w)
      else if n ≤ i then some (spa 2 r 0 w)
      else if (es.take r).any (fun e => e == padEntry) || decide (i + 15 < new) || decide (i < low) then some (spa 4 r 0 w)
      else match held.find? (fun h => h.idx = i) with
        | none => some (spa 4 r 0 w)
        | some h => if h.th.rows ≤ row then some (spa 2 r 0 w) else none)

/-- The bytes of a moved row, and its scale bytes (an even row of SBLK = 4 carries the byte of its pair). -/
def permRow (j : LupJob) (held : List LIn) (r w : Nat) : List Byte × List Byte :=
  let es := 64 * elemSize j.code
  let k := 64 / sblkSize j.sblk
  if w = padEntry then
    (zeros es, if !j.bs then [] else if j.sblk = 4 then (if r % 2 = 0 then [0x7F] else []) else List.replicate k 0x7F)
  else match held.find? (fun h => h.idx = w % 2 ^ 16) with
    | none => (zeros es, [])
    | some h =>
      let row := w / 2 ^ 16 % 64
      let side := h.body.drop 4096
      (slice h.body (row * es) es,
       if !j.bs then [] else if j.sblk = 4 then (if r % 2 = 0 then slice side (row / 2) 1 else [])
       else slice side (row * k) k)

/-- Output tile `u` from its entries. -/
def permTile (j : LupJob) (l : Lupin) (held : List LIn) (es : List Nat) : TH × List Byte :=
  let ins := held.filter (fun h => es.any (fun w => w != padEntry && w % 2 ^ 16 == h.idx))
  let first := match es.head? with
    | some w => (match held.find? (fun h => h.idx = w % 2 ^ 16 ∧ w ≠ padEntry) with
      | some h => h.th
      | none => l.first.getD TH.zero)
    | none => l.first.getD TH.zero
  let model := l.first.getD TH.zero
  let rows := es.zipIdx.map (fun p => permRow j held p.2 p.1)
  let side := rows.flatMap (fun p => p.2)
  let valid := (es.takeWhile (fun w => w != padEntry)).length
  (lupHdr first (TH.shape j.fmt j.sblk j.outRows model.cols valid) model.tscale l.nOut (ins.any (fun h => h.th.nf))
      (ins.any (fun h => h.th.fz)) (l.nOut + 1 == j.nout),
    fit 4096 (rows.flatMap (fun p => p.1)) ++
      (if j.bs then side ++ List.replicate (sidecarLen true j.sblk - side.length) 0x7F else []))

/-- Output tiles are formed while the inputs that they name are held. -/
def State.permLoop (n : StnId) (j : LupJob) (held : List LIn) (nIn : Nat) (ended : Bool) :
    Nat → State → Lupin → State × Except LErr Lupin
  | 0, s, l => (s, .ok l)
  | fuel + 1, s, l =>
    if j.nout ≤ l.nextU then (s, .ok l)
    else
      let a := addrOff (j.dd 10) + l.nextU * j.outRows * 4
      let es := permEntries j ((s.st n).vitBytes a (j.outRows * 4))
      let named := (es.filter (fun w => w != padEntry)).map (fun w => w % 2 ^ 16)
      let top := named.foldl max l.newest
      if !ended && named.any (fun i => decide (nIn ≤ i)) then (s, .ok l)
      else
        let q := s.vitRead n a (j.outRows * 4)
        match q.2 with
        | none => (q.1, .error ⟨⟨.mem, 2⟩, 0, 0, 0⟩)
        | some _ =>
          match permFault j held nIn l.lowest top es with
          | some e => (q.1, .error e)
          | none =>
            let low := named.foldl min (named.headD l.lowest)
            State.permLoop n j held nIn ended fuel q.1
              { (l.put [permTile j l held es]) with nextU := l.nextU + 1, newest := top, lowest := low }

/-- permute: an input joins the window of sixteen, and the outputs it completes are formed. -/
def State.permStep (s : State) (n : StnId) (j : LupJob) (l : Lupin) (held : List LIn) (t : LIn) :
    State × Except LErr (Lupin × List Nat) :=
  let f := l.first.getD t.th
  let mapOk := addrSpace (j.dd 10) == 1 && (s.st n).rangeOk (j.dd 10) (j.nout * j.outRows * 4)
  if t.th.hdrOnly || t.th.fmt != j.fmt || t.th.sblk != j.sblk || t.th.cols != f.cols || t.th.tscale != f.tscale then
    (s, .error (spa 3 0 0 t.head))
  else if !mapOk then (s, .error ⟨⟨.stn, 6⟩, 0, 10, j.dw 10⟩)
  else
    let q := State.permLoop n j held (t.idx + 1) t.th.last (j.nout - l.nextU) s l
    match q.2 with
    | .error e => (q.1, .error e)
    | .ok l1 => (q.1, .ok (l1, if t.th.last then [] else (held.drop (held.length - 15)).map (fun h => h.idx)))

/-! ### The commands -/

/-- A Lupin fault (R251, R252): recorded, and the station halts; the faulting tile stays held, and Lupin works on no
more until its tiles are released. An STN-06 stands in STN_TRAP as the last one, slot 3 and the pc of the XS (R106, log entry
136). -/
def State.lupFault (s : State) (n : StnId) (t : Option TH) (idx : Nat) (e : LErr) : State :=
  let s1 := if e.code.fam = .spa then s.spaRecord n e.code.num 0 e.row e.col idx e.elem else s
  let s2 := if e.code = ⟨.stn, 6⟩ then s1.setTrap n ((s1.st n).xs.pc / 2) 3 0 0 5 else s1
  let s3 := s2.modSt n (fun x => { x with lup := { x.lup with stuck := true } })
  if e.code = ⟨.mem, 2⟩ then s3.haltMem n e.elem.toNat t else s3.halt n e.code t

/-- LUPIN_JOB_START (R234): the next job of the queue begins; a malformed descriptor raises SPA-03. -/
def execLupinJobStart (n : StnId) (s : State) : Host.Outcome State Fault Refusal :=
  .next (if !s.canRun n then s else
    match (s.st n).lup.cur, (s.st n).lup.jobs with
    | none, j :: rest =>
      let s1 := s.modSt n (fun x => { x with lup := { Lupin.reset with jobs := rest, cur := some j } })
      match j.badWord with
      | some i => s1.lupFault n none 0 ⟨⟨.spa, 3⟩, 0, i, j.dw i⟩
      | none => s1
    | _, _ => s)

/-- The oldest formed output is pushed to QO, when it may be and the queue accepts it (R75, R234). -/
def Stn.lupPush (x : Stn) (t : DWord) (j : LupJob) : Stn :=
  match x.lup.outs with
  | [] => x
  | u :: rest =>
    if x.lup.pushable j && x.lupMayPush t j.qo then
      { x.push j.qo ⟨u, .ready⟩ with lup := { x.lup with outs := rest } }
    else x

/-- An output is formed (R234): it leaves those that wait. -/
def Stn.lupFormed (x : Stn) (rest : List (TH × List Byte)) (t : Tile) : Stn :=
  { x with lup := { x.lup with todo := rest, outs := x.lup.outs ++ [t] } }

/-- The outputs that wait are formed in order, each with a tile block reserved as it is formed and a header-only one with
none, at most `k`; Lupin waits for a block (R234). -/
def State.lupForm (n : StnId) : Nat → State → State
  | 0, s => s
  | k + 1, s =>
    match (s.st n).lup.todo with
    | [] => s
    | (th, bytes) :: rest =>
      if th.hdrOnly then State.lupForm n k (s.modSt n (fun x => x.lupFormed rest ⟨th, none⟩))
      else match s.allocTile n .lupin 0 with
        | none => s.clkWait n .lupin 0 4352
        | some (b, u) => State.lupForm n k ((u.putBlk n b bytes).modSt n (fun x => x.lupFormed rest ⟨th, some b⟩))

/-- The last output that an input gave is formed: the tiles that the job no longer needs are freed, and STN_LUP_TILES
counts the input. -/
def State.lupSettle (s : State) (n : StnId) : State :=
  match (s.st n).lup.keep, (s.st n).lup.todo with
  | some keep, [] =>
    (s.modSt n (fun x =>
      { (x.lup.held.filter (fun h => !keep.contains h.idx)).foldl (fun y h => y.freeTile h.tile.blk) x with
        lup := { x.lup with held := x.lup.held.filter (fun h => keep.contains h.idx), keep := none } })).addSat
      (Reg.stnLupTiles n.val) 1
  | _, _ => s

/-- The job ends when its last input is completed and its outputs are pushed. -/
def Stn.lupEnd (x : Stn) : Stn :=
  if x.lup.ended && x.lup.outs.isEmpty && x.lup.keep.isNone then
    { x.lup.held.foldl (fun y h => y.freeTile h.tile.blk) x with lup := { Lupin.reset with jobs := x.lup.jobs } }
  else x

/-- The job's mode processes the newest held input. -/
def State.lupMode (s : State) (n : StnId) (j : LupJob) (l : Lupin) (held : List LIn) (t : LIn) :
    State × Except LErr (Lupin × List Nat) :=
  if j.mode = 0 then (s, compactStep j l held t)
  else if j.mode = 1 then (s, expandStep j l held t)
  else if j.mode = 2 then s.gatherStep n j l t
  else if j.mode = 3 then s.permStep n j l held t
  else (s, checkStep j l held t)

/-- The input at hand, with its bytes, is processed: its outputs wait to be formed. -/
def State.lupTake (s : State) (n : StnId) (j : LupJob) (tile : Tile) (body : List Byte) : State :=
  let l0 := (s.st n).lup
  let idx := l0.nIn
  let l1 := { l0 with held := l0.held ++ [⟨idx, tile⟩], nIn := idx + 1, first := some (l0.first.getD tile.th) }
  let held := l1.held.map (fun h => (⟨h.idx, h.tile.th, (s.st n).body h.tile⟩ : LIn))
  let r := s.lupMode n j l1 held ⟨idx, tile.th, body⟩
  match r.2 with
  | .error e => r.1.lupFault n (some tile.th) idx e
  | .ok (l2, keep) =>
    r.1.modSt n (fun x => { x with lup := { l2 with hand := none, keep := some keep, ended := tile.th.last } })

/-- Lupin works on the input at hand; an uncorrectable word of it halts the station (R352). -/
def State.lupWork (s : State) (n : StnId) (j : LupJob) (t : Tile) : State :=
  let r := match t.blk with
    | none => (s, some [])
    | some b => s.vitRead n ((s.st n).lay.blkAddr b) t.th.bodyLen
  match r.2 with
  | none => r.1.lupFault n (some t.th) (s.st n).lup.nIn ⟨⟨.mem, 2⟩, 0, 0, 0⟩
  | some body => r.1.lupTake n j t body

/-- The next input is popped and held (R234). -/
def State.lupFetch (s : State) (n : StnId) (j : LupJob) : State :=
  let qi : Fin 8 := Fin.ofNat 8 j.qi.val
  match (s.st n).lupPop s.ht qi with
  | none => s
  | some t => (s.popped n qi).modSt n (fun x => { x with lup := { x.lup with hand := some t } })

/-- One cycle of Lupin (R234): a formed output is pushed; the outputs that wait are formed; with none left, the input at
hand is processed, or the next one popped where `pops` lets Lupin start a tile. -/
def State.lupCycle (s : State) (n : StnId) (pops : Bool) : State :=
  match (s.st n).lup.cur with
  | none => s
  | some j =>
    if (s.st n).lup.stuck then s
    else
      let s1 := s.modSt n (fun x => x.lupPush s.ht j)
      let s2 := match (s1.st n).lup.keep, (s1.st n).lup.hand with
        | some _, _ => s1
        | none, some t => s1.lupWork n j t
        | none, none => if pops && (s1.st n).lup.wantsInput j then s1.lupFetch n j else s1
      if (s2.st n).lup.stuck then s2
      else ((State.lupForm n (s2.st n).lup.todo.length s2).lupSettle n).modSt n Stn.lupEnd

/-- The station is frozen by a cut: what was under way at the freeze settles (R111). -/
def State.cutFrozen (s : State) (n : StnId) : Bool := (s.st n).st = .halted && s.rbit (Reg.stnCutStat n.val) 0

/-- LUPIN_TILE (R234, R236): one cycle of Lupin. On a station frozen by a cut, Lupin completes the tile in hand and pushes
its results, and starts no other (R111). -/
def execLupinTile (n : StnId) (s : State) : Host.Outcome State Fault Refusal :=
  .next (if s.cutFrozen n then (s.act n .lupin).lupCycle n false else s.turn n .lupin (fun u => u.lupCycle n true))

end Sys2Proof.Machine
end

