-- ==== Sys2Proof/Machine/Txn.lean ====
section
/-! DEFINITION. What a new value of a register brings with it, register transactions (R368 to R374), and the takeover
of a gate bank (R327). -/

namespace Sys2Proof.Machine

open Sys2Proof

/-! ### Register values -/

/-- A register takes the bits of `v` that `mask` selects. -/
def State.put (s : State) (a : Nat) (mask v : Word) : State := s.setRg a ((s.rg a &&& ~~~mask) ||| (v &&& mask))

/-- The address lies in a port's block. -/
def inPrt (a : Nat) : Bool := decide (0x2000000 ≤ a ∧ a < 0x2800000)

/-- The port whose block holds an address. -/
def prtAt (a : Nat) : PortId := portId ((a - 0x2000000) / 0x10000)

/-- The offset of an address in its port's block. -/
def prtOff (a : Nat) : Nat := (a - 0x2000000) % 0x10000

/-- What a new value would spoil is settled first: a shaper's bucket up to now (R325). -/
def State.settleReg (s : State) (a : Nat) : State :=
  if inPrt a && decide (0x24 ≤ prtOff a ∧ prtOff a ≤ 0x34) then s.settleTokens (prtAt a) else s

/-- A gate bank is armed (R327): it takes over at PRT_GATE_TAKE, or in the next tick as a late action (R42). -/
def State.armGate (s : State) (p : PortId) : State :=
  let t := s.rg64 (Reg.prtGateTakeLo p.val)
  if t.toNat < s.ht.toNat then
    if (s.pt p).gateDue = s.ht + 1 then s
    else ((s.modPt p (fun x => { x with gateDue := s.ht + 1 })).inc Reg.htLateCnt).raise ⟨.tim, 6⟩ uDevice []
  else s.modPt p (fun x => { x with gateDue := t })

/-- What follows from a register that held `old`, in a commit of the entries `l`: a role (R452), a port's mode (R304), parents
and the root role (R28, R29), the reference of TSYNC (R22), an armed gate bank. -/
def State.follow (s : State) (l : List (Nat × Word)) (a : Nat) (old : Word) : State :=
  if inStn a && stnOff a == 4 then (s.setRg a old).setRole (stnAt a) (fld (s.rg a) 0 2) l
  else if inPrt a && prtOff a == 0 then
    if s.role (stnOf (prtAt a)) = 3 ∧ fld old 0 2 ≠ fld (s.rg a) 0 2 ∧ 4 ≤ s.stage then
      s.trainPort (prtAt a)
    else s
  else if inPrt a && (prtOff a == 0x50 || prtOff a == 0x48) then
    if s.rbit (Reg.prtGateCtrl (prtAt a).val) 0 then s.armGate (prtAt a) else s
  else if a = Reg.htCtrl then
    let t := if s.isRoot && !bitOf old 0 then { s with clk := { s.clk with slewBy := 0 } }.setAligned true else s
    t.parents
  else if a = Reg.htParent then s.parents
  else if a = Reg.htTsyncPeriod then { s with clk := { s.clk with tsyncRef := none } }
  else s

/-- A register's bits in `mask` take a value at once, with what follows. -/
def State.putNow (s : State) (a : Nat) (mask v : Word) : State :=
  let s1 := s.settleReg a
  (s1.put a mask v).follow [] a (s1.rg a)

/-! ### Transactions -/

/-- A requester's transaction. -/
def State.txn (s : State) (r : Requester) : Txn := match r with | .host => s.txnHost | .curator => s.txnCur

/-- A requester's transaction is replaced. -/
def State.setTxn (s : State) (r : Requester) (t : Txn) : State :=
  match r with | .host => { s with txnHost := t } | .curator => { s with txnCur := t }

/-- A write of TXN_BEGIN (R368). -/
def State.begin_ (s : State) (r : Requester) (v : Word) : State :=
  let t := s.txn r
  if !bitOf v 0 then s
  else if t.st ≠ .none then s.setTxn r { t with err := 1 }
  else if s.img.booted.isNone then s.setTxn r { t with err := 2 }
  else s.setTxn r { t with st := .open_, entries := [], err := 0 }

/-- The place of a commit that arrives now: the host's counts as first in its tick (R372). -/
def State.commitPlace (s : State) (r : Requester) : Nat := 2 * s.ht.toNat + (match r with | .host => 0 | .curator => 1)

/-- A write of TXN_COMMIT (R371): `at_` takes the tick of TXN_AT, which is late when it is not after the tick of the
write. -/
def State.commit (s : State) (r : Requester) (at_ : Bool) : State :=
  let t := s.txn r
  match t.st with
  | .open_ =>
    let arm (u : State) (d : DWord) : State := u.setTxn r { t with st := .armed, at_ := d, place := s.commitPlace r }
    if at_ then
      if t.want.toNat ≤ s.ht.toNat then ((arm s (s.ht + 1)).inc Reg.htLateCnt).raise ⟨.tim, 6⟩ uDevice []
      else arm s t.want
    else arm s (s.ht + 1)
  | .failed => s.setTxn r t.drop
  | _ => s.setTxn r { t with err := 4 }

/-- A write of TXN_ROLLBACK (R374). -/
def State.rollback (s : State) (r : Requester) (v : Word) : State := if bitOf v 0 then s.setTxn r (s.txn r).drop else s

/-- The bits of a register that a shadow entry sets. -/
def rwsMask (a : Nat) : Word := match regRow a with | some r => r.rws | none => 0

/-- The settings that would be in force after a commit. -/
def State.withEntries (s : State) (l : List (Nat × Word)) : Settings :=
  s.settings (fun a => match l.find? (fun e => e.1 = a) with
    | some e => (s.rg a &&& ~~~(rwsMask a)) ||| (e.2 &&& rwsMask a)
    | none => s.rg a)

/-- The rows of Table 14.7 that the entries write hold (R373). -/
def State.entriesOk (s : State) (l : List (Nat × Word)) : Bool :=
  let z := s.withEntries l
  (List.range 8).all (fun i => !(l.any (fun e => rowRegister i e.1)) || z.rowOk i)

/-- Every entry takes effect, and then what follows from each (R371). -/
def State.applyEntries (s : State) (l : List (Nat × Word)) : State :=
  let s1 := l.foldl (fun t e => t.settleReg e.1) s
  let s2 := l.foldl (fun t e => t.put e.1 (rwsMask e.1) e.2) s1
  l.foldl (fun t e => t.follow l e.1 (s1.rg e.1)) s2

/-- The host learns of its transaction's end (Table 17.3). -/
def State.txnVector (s : State) (r : Requester) : State := match r with | .host => s.vector 72 | .curator => s

/-- An armed transaction takes effect, or is refused (R371, R373). -/
def State.txnEffect (s : State) (r : Requester) : State :=
  let t := s.txn r
  if s.entriesOk t.entries then
    let s1 := (s.setTxn r t.drop).applyEntries t.entries
    ((s1.setRg64 Reg.txnLastLo s.ht).inc Reg.txnCommits).txnVector r
  else
    let s1 := s.setTxn r { t.drop with err := 5 }
    ((s1.inc Reg.txnRefused).raise ⟨.cfg, 7⟩ uDevice []).txnVector r

/-- The other requester. -/
def otherOf : Requester → Requester
  | .host => .curator
  | .curator => .host

/-- A transaction is due: armed, with its tick reached. -/
def State.txnDue (s : State) (r : Requester) : Bool := decide ((s.txn r).st = .armed ∧ (s.txn r).at_.toNat ≤ s.ht.toNat)

/-- TXN_BEGIN (R368). -/
def execTxnBegin (r : Requester) (value : Word) (s : State) : Host.Outcome State Fault Refusal := .next (s.begin_ r value)

/-- TXN_COMMIT_NOW (R371): it takes effect in the next tick. -/
def execTxnCommitNow (r : Requester) (s : State) : Host.Outcome State Fault Refusal := .next (s.commit r false)

/-- TXN_COMMIT_AT (R371). -/
def execTxnCommitAt (r : Requester) (s : State) : Host.Outcome State Fault Refusal := .next (s.commit r true)

/-- TXN_ROLLBACK (R374). -/
def execTxnRollback (r : Requester) (value : Word) (s : State) : Host.Outcome State Fault Refusal := .next (s.rollback r value)

/-- TXN_TAKES_EFFECT (R371 to R373): a due transaction, after the other one when that was committed first. -/
def execTxnTakesEffect (r : Requester) (s : State) : Host.Outcome State Fault Refusal :=
  .next (
    let waits := s.txnDue (otherOf r) && decide ((s.txn (otherOf r)).place < (s.txn r).place)
    if s.txnDue r && !waits then s.txnEffect r else s)

/-! ### Gate banks (R327) -/

/-- GATE_BANK_TAKEOVER (R327): the inactive bank becomes active from its entry 0, and ARM clears; a frame on the lanes
whose class the new entry closes counts in PRT_GATE_OVR. -/
def execGateBankTakeover (p : PortId) (s : State) : Host.Outcome State Fault Refusal :=
  .next (if s.rbit (Reg.prtGateCtrl p.val) 0 ∧ (s.pt p).gateDue.toNat ≤ s.ht.toNat then
    let s1 := (s.setRf (Reg.prtGateBank p.val) 0 1 (1 - s.gateBank p)).setRf (Reg.prtGateCtrl p.val) 0 1 0
    let s2 := s1.modPt p (fun x => { x with gateAt := s.ht, gateWas := s.openBefore p })
    if s2.cycle < (s2.pt p).txUntil ∧ !s2.isOpen p (s2.pt p).txTc.val then s2.inc (Reg.prtGateOvr p.val) else s2
    else s)

end Sys2Proof.Machine
end

