-- ==== Sys2Proof/Machine/RegAccess.lean ====
section
/-! DEFINITION. Writes and reads of BAR0 registers (R9 to R11, R426, R451): each field by its access code, the registers
whose write is an action, shadows of an open transaction (R369, R370), reads that clear or capture. -/

namespace Sys2Proof.Machine

open Sys2Proof

/-- The size of the BAR0 window. -/
def bar0Size : Nat := 2 ^ 26

/-! ### Shadows (R369, R370) -/

/-- A write to the RWS fields of a register in an open transaction: a shadow entry, or failure for want of one. -/
def State.shadow (s : State) (r : Requester) (a : Nat) (v : Word) : State :=
  let t := s.txn r
  if t.entries.any (fun e => e.1 = a) then
    s.setTxn r { t with entries := t.entries.map (fun e => if e.1 = a then (a, v) else e) }
  else if t.entries.length < 4096 then s.setTxn r { t with entries := t.entries ++ [(a, v)] }
  else (s.setTxn r { t with st := .failed, err := 3 }).raise ⟨.cfg, 6⟩ uDevice []

/-- The bits of a register that a write sets at once: RW, and RWS outside an open or failed transaction. -/
def State.nowMask (s : State) (r : Requester) (row : RegRow) : Word :=
  if (s.txn r).st = .open_ ∨ (s.txn r).st = .failed then row.rw else row.rw ||| row.rws

/-- The halves of a value pair (R451): a _HI write is held, a _LO write gives the whole value and uses the held half up. A
_LO write with no half held, which software must not make, leaves the upper half as it stands (log entry 115). -/
def State.putPair (s : State) (a : Nat) (mask v : Word) (half : Half) : State :=
  match half with
  | .valHi => { s with heldHi := Cells.ins s.heldHi a (v &&& mask) }
  | .valLo =>
    match Cells.look s.heldHi (a + 4) with
    | some h =>
      let s1 := { s with heldHi := Cells.erase s.heldHi (a + 4) }
      (s1.setRg (a + 4) h).putNow a mask v
    | none => s.putNow a mask v
  | _ => s.putNow a mask v

/-- A write of RWS fields outside a transaction is a commit of one write (R10): a write that Table 14.7 refuses sets none
of them, and is refused as a commit is (R373, log entry 98). -/
def State.refusedAlone (s : State) (r : Requester) (a : Nat) (row : RegRow) (v : Word) : Bool :=
  row.rws != 0 && (s.txn r).st != .open_ && (s.txn r).st != .failed && !s.entriesOk [(a, v)]

/-- A write of a register that has no action of its own: shadow, RW and RWS fields, W1C fields. -/
def State.plainWrite (s : State) (r : Requester) (a : Nat) (row : RegRow) (v : Word) : State :=
  let s0 := if row.rws ≠ 0 ∧ (s.txn r).st = .open_ then s.shadow r a v else s
  let bad := s.refusedAlone r a row v
  let s1 := if bad then (s0.inc Reg.txnRefused).raise ⟨.cfg, 7⟩ uDevice [] else s0
  let m := if bad then row.rw else s.nowMask r row
  let s2 := if m = 0 then s1 else s1.putPair a m v row.half
  let c := row.w1c &&& v
  if c = 0 then s2 else s2.clearBits a c

/-! ### Registers whose write is an action -/

/-- The messages of the vectors of register `i` that a word names. -/
def State.sendMsis (s : State) (i : Nat) (w : Word) : State :=
  (List.range 32).foldl (fun t b => if bitOf w b then t.sendMsi (32 * i + b) else t) s

/-- A write of GLB_IRQ_EN: each enable bit written 1 while its pending bit is 1 sends the vector's message (R433). -/
def State.enableIrq (s : State) (i : Nat) (v : Word) : State :=
  (s.setRg (Reg.glbIrqEn i) v).sendMsis i (v &&& s.rg (Reg.glbIrqPend i))

/-- A write of GLB_IRQ_PEND (R433): each 1 clears its bit, but for one that an event has set in this tick (R11). Where that
event found the bit 1, so that it sent nothing, the clear brings a further message. -/
def State.clearPend (s : State) (i : Nat) (v : Word) : State :=
  let a := Reg.glbIrqPend i
  let again := v &&& s.since a &&& s.wasRg a
  let s1 := s.clearBits a v
  let s2 := if again = 0 then s1 else { s1 with evts := Cells.ins s1.evts a ⟨s.wasRg a &&& ~~~v, s.since a⟩ }
  s2.sendMsis i (again &&& s2.rg (Reg.glbIrqEn i))

/-- A message held in the pending bit array goes out when it is no longer withheld. -/
def State.releaseMsi (s : State) (n : Nat) : State :=
  if s.rbit (Reg.glbPba (n / 32)) (n % 32) && !s.msiHeld n then
    (s.setRf (Reg.glbPba (n / 32)) (n % 32) 1 0).emit (.msix n)
  else s

/-- A write of word `k` of the MSI-X table: a message held for a masked vector goes out when the mask clears. -/
def State.writeMsix (s : State) (k : Nat) (v : Word) : State :=
  let s1 := s.setRg (Reg.glbMsix k) v
  if k % 4 = 3 then s1.releaseMsi (k / 4) else s1

/-- A write of GLB_IMG_CTRL (Table 14.11). -/
def State.writeImgCtrl (s : State) (v : Word) : State :=
  let s1 := if bitOf v 0 then s.loadStart else s
  let s2 := if bitOf v 1 then s1.loadEnd (bitOf v 2) else s1
  if bitOf v 3 then s2.confirm else s2

/-- A write of STN_CTRL (Table 2.12): RUN, then RESTART, then FENCE_REQ. -/
def State.writeStnCtrl (s : State) (n : StnId) (v : Word) : State :=
  let s1 := s.writeRun n (bitOf v 0)
  let s2 := if bitOf v 1 && s1.stnUp n then s1.restart n else s1
  if bitOf v 2 && s2.stnUp n && (s2.st n).st ≠ .fenced then s2.fence n else s2

/-- A write of CAT_CTRL (Table 16.15): AUTOINC and EPOCH, and a freeze or its end. -/
def State.writeCatCtrl (s : State) (v : Word) : State :=
  let s1 := s.put Reg.catCtrl 0x1F02 v
  if bitOf v 0 then s1.freezeCat else s1.thawCat

/-- A write of ACC_CTRL: ENABLE, which looks at discovered ports, and RETRY (R320). -/
def State.writeAccCtrl (s : State) (v : Word) : State :=
  let s1 := s.put Reg.accCtrl 1 v
  let s2 := if bitOf v 0 then allPorts.foldl State.examine s1 else s1
  if bitOf v 1 then s2.retryPorts else s2

/-- A write of PLT_CTRL (Table 15.12). -/
def State.writePltCtrl (s : State) (v : Word) : State :=
  let s1 := s.put Reg.pltCtrl 1 v
  if bitOf v 1 then s1.releaseFlt else s1

/-- A write of PWR_VALVE: the guard holds the duty at 255 (R378). -/
def State.writeValve (s : State) (v : Word) : State :=
  let s1 := s.put Reg.pwrValve 0x1FF v
  if s1.cur.guard then s1.setRf Reg.pwrValve 0 8 255 else s1

/-- A write of TXN_AT_LO or _HI: each requester has its own, and _HI is held (R376, R451). -/
def State.writeTxnAt (s : State) (r : Requester) (hi : Bool) (v : Word) : State :=
  let t := s.txn r
  s.setTxn r (if hi then { t with wantHi := v } else { t with want := dword (v.toNat + t.wantHi.toNat * 2 ^ 32) })

/-- A write of PRT_GATE_LEN: the active bank's field is ignored (R327). -/
def State.writeGateLen (s : State) (p : PortId) (v : Word) : State :=
  s.put (Reg.prtGateLen p.val) (if s.gateBank p = 0 then 0x01FF0000 else 0x000001FF) v

/-- A write to a station's register that is an action; none where it is a plain register. -/
def State.stnAction (s : State) (n : StnId) (o : Nat) (v : Word) : Option State :=
  if o = 0x8 then some (s.writeStnCtrl n v)
  else if o = 0x30008 then some (s.modSt n (fun x => x.setFlags v))
  else if o = 0x3000C then some (s.modSt n (fun x => x.clrFlags v))
  else if o = 0x30100 then some (s.writeCutCtrl n v)
  else if o = 0x30108 then some (s.writeCutAt n v)
  else none

/-- A write to a port's register that is an action. -/
def State.prtAction (s : State) (p : PortId) (o : Nat) (v : Word) : Option State :=
  if o = 0x44 then some (s.writeGateLen p v)
  else if 0x1000 ≤ o ∧ o < 0x1400 ∧ s.gateBank p = 0 then some s
  else if 0x1800 ≤ o ∧ o < 0x1C00 ∧ s.gateBank p = 1 then some s
  else none

/-- A write to a register of the Curator domain that is an action. -/
def State.domainAction (s : State) (r : Requester) (a : Nat) (v : Word) : Option State :=
  if a = Reg.glbCtrl then some (s.writeGlbCtrl v)
  else if Reg.glbIrqEn 0 ≤ a ∧ a ≤ Reg.glbIrqEn 7 then some (s.enableIrq ((a - Reg.glbIrqEn 0) / 4) v)
  else if Reg.glbIrqPend 0 ≤ a ∧ a ≤ Reg.glbIrqPend 7 then some (s.clearPend ((a - Reg.glbIrqPend 0) / 4) v)
  else if Reg.glbMsix 0 ≤ a ∧ a ≤ Reg.glbMsix 1023 then some (s.writeMsix ((a - Reg.glbMsix 0) / 4) v)
  else if a = Reg.glbImgCtrl then some (s.writeImgCtrl v)
  else if a = Reg.glbImgPush then some (s.push v)
  else if 0x8000 ≤ a ∧ a < 0x10000 then
    some { s with img := { s.img with window := Cells.write zeroByte s.img.window (a - 0x8000) (toLE 4 v.toNat) } }
  else if a = Reg.txnBegin then some (s.begin_ r v)
  else if a = Reg.txnCommit then some (if bitOf v 0 then s.commit r (bitOf v 1) else s)
  else if a = Reg.txnRollback then some (s.rollback r v)
  else if a = Reg.txnAtLo then some (s.writeTxnAt r false v)
  else if a = Reg.txnAtHi then some (s.writeTxnAt r true v)
  else if a = Reg.catCtrl then some (s.writeCatCtrl v)
  else if a = Reg.catCondClr then some (s.clearScore v)
  else if a = Reg.curDoorbell then some (s.doorbell v)
  else if a = Reg.pwrValve then some (s.writeValve v)
  else if a = Reg.pltMask then some (s.unmask v)
  else if a = Reg.pltCtrl then some (s.writePltCtrl v)
  else if a = Reg.accCtrl then some (s.writeAccCtrl v)
  else if a = Reg.crsRedAbandon then some (s.abandon (fld v 0 20))
  else none

/-- A write whose address names an action. -/
def State.action (s : State) (r : Requester) (a : Nat) (v : Word) : Option State :=
  if inStn a then s.stnAction (stnAt a) (stnOff a) v
  else if inPrt a then s.prtAction (prtAt a) (prtOff a) v
  else s.domainAction r a v

/-- What a cleared W1C bit ends: a stack's handling window (Table 16.7). -/
def State.cleared (s : State) (a : Nat) : State :=
  if 0x200000 ≤ a ∧ a < 0x300000 ∧ (a - 0x200000) % 0x20000 = 8 then s.stackCalm (stackId ((a - 0x200000) / 0x20000)) else s

/-- A write of the register at an address. -/
def State.writeReg (s : State) (r : Requester) (a : Nat) (v : Word) : State :=
  if !s.unitHears a then s
  else if isProg a then (if (s.st (stnAt a)).st = .running then s else s.putProg a (toLE 4 v.toNat))
  else match s.action r a v with
    | some t => t
    | none =>
      match regRow a with
      | some row => (s.plainWrite r a row v).cleared a
      | none => s

/-- An address of BAR0 at which a register may lie: a multiple of 4 inside the window (R8, R426). -/
def bar0Addr (a : Nat) : Bool := a % 4 == 0 && decide (a < bar0Size)

/-! ### PCI Express configuration space (R424, R425, log entry 20) -/

/-- The address at which a host access names the register at offset 0 of configuration space: above BAR0 (log entry 20). -/
def cfgBase : Nat := 0x4000000

/-- A configuration read: the IDs, the MSI-X message control, and of Advanced Error Reporting the uncorrectable error status and
mask and the control; other offsets answer 0. -/
def State.cfgRead (s : State) (o : Nat) : Word :=
  if o = 0 then s.rg Reg.glbId
  else if o = 0xB0 then word (0x11 + 255 * 2 ^ 16 + b2n s.pcie.fmask * 2 ^ 30 + b2n s.pcie.msix * 2 ^ 31)
  else if o = 0x104 then s.pcie.aer
  else if o = 0x108 then s.pcie.amask
  else if o = 0x118 then (s.pcie.actl &&& 0x140) ||| 0xA0
  else 0

/-- A configuration write: messages held go out when MSI-X is enabled and the function unmasked (R433); an error's status bit is
cleared by a 1. -/
def State.cfgWrite (s : State) (o : Nat) (v : Word) : State :=
  if o = 0xB0 then
    (List.range 256).foldl State.releaseMsi { s with pcie := { s.pcie with fmask := bitOf v 30, msix := bitOf v 31 } }
  else if o = 0x104 then { s with pcie := { s.pcie with aer := s.pcie.aer &&& ~~~v } }
  else if o = 0x108 then { s with pcie := { s.pcie with amask := v } }
  else if o = 0x118 then { s with pcie := { s.pcie with actl := v &&& 0x140 } }
  else s

/-! ### Accesses of 1 to 16 DW -/

/-- One DW of a write: a register of BAR0, or of configuration space for the host; at no register it is ignored (R9). -/
def State.writeDw (s : State) (r : Requester) (a : Nat) (v : Word) : State :=
  if bar0Addr a then s.writeReg r a v
  else if r = .host ∧ cfgBase ≤ a ∧ s.cur.aux then s.cfgWrite (a - cfgBase) v
  else s

/-- Consecutive registers take words in ascending address (R426). -/
def State.writeDws (s : State) (r : Requester) (a : Nat) : List Word → State
  | [] => s
  | v :: l => (s.writeDw r a v).writeDws r (a + 4) l

/-- REGISTER_WRITE (R10, R426, R430): consecutive registers, each field by its access code. A malformed write is discarded
and sets GLB_STATUS.BAR0_PARTIAL. -/
def execRegisterWrite (r : Requester) (addr : Nat) (value : RegWords) (s : State) :
    Host.Outcome State Fault Refusal :=
  .next (s.ifGood value.tlp 0 false (
    if bar0Bad value.tlp value.values.length then (if s.cur.aux then s.setBitEvt Reg.glbStatus 7 else s)
    else s.writeDws r addr value.values))

/-! ### Reads -/

/-- An RO pair (R451): its row has no writable field. -/
def RegRow.roPair (row : RegRow) : Bool := row.rw == 0 && row.rws == 0 && row.half != .single

/-- The low half of an RO pair. -/
def RegRow.roLo (row : RegRow) : Bool := row.roPair && (row.half == .valLo || row.half == .mapLo)

/-- The high half of an RO pair. -/
def RegRow.roHi (row : RegRow) : Bool := row.roPair && (row.half == .valHi || row.half == .mapHi)

/-- A read of a register that has no row of its own: the value in effect; RC fields then return to their reset values;
the _LO half of an RO pair captures both, and _HI reads the capture. A count reads as it stood at the start of the tick,
and what the device has added since stays in it (R11). -/
def State.plainRead (s : State) (r : Requester) (a : Nat) (row : RegRow) : State × Word :=
  let v := s.valueFor r a
  if row.roLo then ({ s with capHi := Cells.ins s.capHi (a + 4) (s.value (a + 4)) }, v)
  else if row.roHi then (s, (Cells.look s.capHi a).getD 0)
  else if row.rc = 0 then (s, v)
  else
    let left := (s.rg a &&& ~~~row.rc) ||| (s.since a &&& row.rc)
    ({ s.setRg a left with evts := Cells.ins s.evts a ⟨s.rg a &&& ~~~row.rc, s.since a⟩ },
     (v &&& ~~~row.rc) ||| (s.wasRg a &&& row.rc))

/-- A read of the register at an address. -/
def State.readReg (s : State) (r : Requester) (a : Nat) : State × Word :=
  if !s.unitUp a then (s, 0)
  else if isProg a then (s, s.value a)
  else if inStn a && stnOff a == 0x30130 then s.readCutData (stnAt a)
  else if a = Reg.catWindow 0 then s.readWindow0
  else if a = Reg.catWindow 15 then s.readWindow15
  else match regRow a with
    | some row => s.plainRead r a row
    | none => (s, 0)

/-- One DW of a read, of BAR0 or of configuration space: 0 from an address at which no register lies (R9). -/
def State.readDw (s : State) (r : Requester) (a : Nat) : State × Word :=
  if bar0Addr a then s.readReg r a
  else (s, if r = .host ∧ cfgBase ≤ a ∧ s.cur.aux then s.cfgRead (a - cfgBase) else 0)

/-- `n` consecutive registers are read in ascending address, and the values go to the requester (R426). -/
def State.readDws (s : State) (r : Requester) (a : Nat) : Nat → State
  | 0 => s
  | n + 1 => let d := s.readDw r a; (d.1.emit (.read r a d.2)).readDws r (a + 4) n

/-- A read of BAR0 (R426, R430): a malformed one returns zeros, acts on no register and sets GLB_STATUS.BAR0_PARTIAL. -/
def State.regRead (s : State) (r : Requester) (a n : Nat) (tlp : Tlp) : Host.Outcome State Fault Refusal :=
  if bar0Bad tlp n then execBar0MalformedRead n s else .next (s.ifGood tlp 0 true (s.readDws r a n))

/-- RC_READ (R11). -/
def execRcRead (addr : RegRead) (s : State) : Host.Outcome State Fault Refusal := s.regRead addr.by_ addr.addr addr.dws addr.tlp

/-- PAIR_LO_READ (R451). -/
def execPairLoRead (addr : RegRead) (s : State) : Host.Outcome State Fault Refusal := s.regRead addr.by_ addr.addr addr.dws addr.tlp

end Sys2Proof.Machine
end

