-- ==== Sys2Proof/Machine/Dispatch.lean ====
section
/-! DEFINITION. The dispatch: one arm for each command, each a direct call of its meaning. -/

namespace Sys2Proof.Machine

open Sys2Proof

/-- The effect of a command on everything but the queue. -/
def exec (i : Instr) (s : State) : Host.Outcome State Fault Refusal :=
  match i with
  | .powerOnReset => Sys2Proof.Machine.execPowerOnReset s
  | .auxPowerLoss => Sys2Proof.Machine.execAuxPowerLoss s
  | .pcieReset cause => Sys2Proof.Machine.execPcieReset cause s
  | .warmReset value => Sys2Proof.Machine.execWarmReset value s
  | .curatorBoot => Sys2Proof.Machine.execCuratorBoot s
  | .stageAdvance straps => Sys2Proof.Machine.execStageAdvance straps s
  | .stackTrainingFail k => Sys2Proof.Machine.execStackTrainingFail k s
  | .wavePower w => Sys2Proof.Machine.execWavePower w s
  | .waveRelease w => Sys2Proof.Machine.execWaveRelease w s
  | .phaseCOutputEnable => Sys2Proof.Machine.execPhaseCOutputEnable s
  | .tsyncEdge => Sys2Proof.Machine.execTsyncEdge s
  | .tsyncPulse => Sys2Proof.Machine.execTsyncPulse s
  | .tstampSend => Sys2Proof.Machine.execTstampSend s
  | .tstampRecord p t3 t1 t2 t4 => Sys2Proof.Machine.execTstampRecord p t3 t1 t2 t4 s
  | .parentStandbySwitch => Sys2Proof.Machine.execParentStandbySwitch s
  | .holdoverLimitExpire => Sys2Proof.Machine.execHoldoverLimitExpire s
  | .rootConflict p rank => Sys2Proof.Machine.execRootConflict p rank s
  | .parade => Sys2Proof.Machine.execParade s
  | .bucketDeadline b => Sys2Proof.Machine.execBucketDeadline b s
  | .closingBegin => Sys2Proof.Machine.execClosingBegin s
  | .drainComplete => Sys2Proof.Machine.execDrainComplete s
  | .closeOverrun => Sys2Proof.Machine.execCloseOverrun s
  | .stepOpen => Sys2Proof.Machine.execStepOpen s
  | .stoppedToClosed => Sys2Proof.Machine.execStoppedToClosed s
  | .stepEndRelease n st => Sys2Proof.Machine.execStepEndRelease n st s
  | .txnBegin r value => Sys2Proof.Machine.execTxnBegin r value s
  | .txnCommitNow r => Sys2Proof.Machine.execTxnCommitNow r s
  | .txnCommitAt r => Sys2Proof.Machine.execTxnCommitAt r s
  | .txnRollback r value => Sys2Proof.Machine.execTxnRollback r value s
  | .txnTakesEffect r => Sys2Proof.Machine.execTxnTakesEffect r s
  | .roleFromOffRelease n => Sys2Proof.Machine.execRoleFromOffRelease n s
  | .gateBankTakeover p => Sys2Proof.Machine.execGateBankTakeover p s
  | .registerWrite r addr value => Sys2Proof.Machine.execRegisterWrite r addr value s
  | .rcRead addr => Sys2Proof.Machine.execRcRead addr s
  | .pairLoRead addr => Sys2Proof.Machine.execPairLoRead addr s
  | .stnRunSet n => Sys2Proof.Machine.execStnRunSet n s
  | .stnRunClear n => Sys2Proof.Machine.execStnRunClear n s
  | .stnRestart n => Sys2Proof.Machine.execStnRestart n s
  | .stnFenceReq n => Sys2Proof.Machine.execStnFenceReq n s
  | .stnFlagSet n mask => Sys2Proof.Machine.execStnFlagSet n mask s
  | .stnFlagClr n mask => Sys2Proof.Machine.execStnFlagClr n mask s
  | .asNop n => Sys2Proof.Machine.execAsNop n s
  | .asJmp n => Sys2Proof.Machine.execAsJmp n s
  | .asDbnz n => Sys2Proof.Machine.execAsDbnz n s
  | .asBeqz n => Sys2Proof.Machine.execAsBeqz n s
  | .asStepw n => Sys2Proof.Machine.execAsStepw n s
  | .asHtwait n => Sys2Proof.Machine.execAsHtwait n s
  | .asLil n => Sys2Proof.Machine.execAsLil n s
  | .asLim n => Sys2Proof.Machine.execAsLim n s
  | .asLih n => Sys2Proof.Machine.execAsLih n s
  | .asAddi n => Sys2Proof.Machine.execAsAddi n s
  | .asAdd n => Sys2Proof.Machine.execAsAdd n s
  | .asSub n => Sys2Proof.Machine.execAsSub n s
  | .asTld n => Sys2Proof.Machine.execAsTld n s
  | .asTldp n => Sys2Proof.Machine.execAsTldp n s
  | .asTst n => Sys2Proof.Machine.execAsTst n s
  | .asTstp n => Sys2Proof.Machine.execAsTstp n s
  | .asTfwd n => Sys2Proof.Machine.execAsTfwd n s
  | .asTsend n => Sys2Proof.Machine.execAsTsend n s
  | .asTdrop n => Sys2Proof.Machine.execAsTdrop n s
  | .asThld n => Sys2Proof.Machine.execAsThld n s
  | .asBcopy n => Sys2Proof.Machine.execAsBcopy n s
  | .asFset n => Sys2Proof.Machine.execAsFset n s
  | .asFclr n => Sys2Proof.Machine.execAsFclr n s
  | .asFwait n => Sys2Proof.Machine.execAsFwait n s
  | .tldDataArrive n => Sys2Proof.Machine.execTldDataArrive n s
  | .bcopyComplete n k => Sys2Proof.Machine.execBcopyComplete n k s
  | .xsBundleIssue n => Sys2Proof.Machine.execXsBundleIssue n s
  | .engineResultLand n => Sys2Proof.Machine.execEngineResultLand n s
  | .watchdogExpire n => Sys2Proof.Machine.execWatchdogExpire n s
  | .lupinJobStart n => Sys2Proof.Machine.execLupinJobStart n s
  | .lupinTile n => Sys2Proof.Machine.execLupinTile n s
  | .cutArm n reg value => Sys2Proof.Machine.execCutArm n reg value s
  | .cutFreeze n => Sys2Proof.Machine.execCutFreeze n s
  | .cutResume n => Sys2Proof.Machine.execCutResume n s
  | .cutDataRead n => Sys2Proof.Machine.execCutDataRead n s
  | .endpointFrameReceive p frame corr uncorr => Sys2Proof.Machine.execEndpointFrameReceive p frame corr uncorr s
  | .fabricCellReceive p cell corr uncorr => Sys2Proof.Machine.execFabricCellReceive p cell corr uncorr s
  | .reassemblyGapTimeout p => Sys2Proof.Machine.execReassemblyGapTimeout p s
  | .ackSend p => Sys2Proof.Machine.execAckSend p s
  | .ackRecord p lseq => Sys2Proof.Machine.execAckRecord p lseq s
  | .nakRecord p lseq => Sys2Proof.Machine.execNakRecord p lseq s
  | .creditRecord p words => Sys2Proof.Machine.execCreditRecord p words s
  | .identRecord p w1 w2 => Sys2Proof.Machine.execIdentRecord p w1 w2 s
  | .epitaphRecord p failed lseq => Sys2Proof.Machine.execEpitaphRecord p failed lseq s
  | .epitaphTimeout p => Sys2Proof.Machine.execEpitaphTimeout p s
  | .pcsLock p => Sys2Proof.Machine.execPcsLock p s
  | .blockLockLossTimeout p => Sys2Proof.Machine.execBlockLockLossTimeout p s
  | .twinTakeover p => Sys2Proof.Machine.execTwinTakeover p s
  | .retrainTimeout p => Sys2Proof.Machine.execRetrainTimeout p s
  | .fabricCreditStart p => Sys2Proof.Machine.execFabricCreditStart p s
  | .accRetry => Sys2Proof.Machine.execAccRetry s
  | .lldpduTransmit p => Sys2Proof.Machine.execLldpduTransmit p s
  | .lldpduReceive p du => Sys2Proof.Machine.execLldpduReceive p du s
  | .lldpNeighbourExpiry p => Sys2Proof.Machine.execLldpNeighbourExpiry p s
  | .ptpSyncTransmit p => Sys2Proof.Machine.execPtpSyncTransmit p s
  | .ptpMessageReceive p msg => Sys2Proof.Machine.execPtpMessageReceive p msg s
  | .frameTransmitStart p c => Sys2Proof.Machine.execFrameTransmitStart p c s
  | .slotEnd p c => Sys2Proof.Machine.execSlotEnd p c s
  | .telemetrySample => Sys2Proof.Machine.execTelemetrySample s
  | .landingCreditReserve l c => Sys2Proof.Machine.execLandingCreditReserve l c s
  | .crossingGrant => Sys2Proof.Machine.execCrossingGrant s
  | .crossingDelivery t => Sys2Proof.Machine.execCrossingDelivery t s
  | .ageingSweep => Sys2Proof.Machine.execAgeingSweep s
  | .replyReservationLapse n => Sys2Proof.Machine.execReplyReservationLapse n s
  | .bucketHeaderReceive p bh => Sys2Proof.Machine.execBucketHeaderReceive p bh s
  | .bucketTileReceive p tile => Sys2Proof.Machine.execBucketTileReceive p tile s
  | .sizeExchangeRound b r => Sys2Proof.Machine.execSizeExchangeRound b r s
  | .excludeScan b => Sys2Proof.Machine.execExcludeScan b s
  | .entryStageChunk b h => Sys2Proof.Machine.execEntryStageChunk b h s
  | .fabricRoundChunk b r h => Sys2Proof.Machine.execFabricRoundChunk b r h s
  | .shardDelivery b => Sys2Proof.Machine.execShardDelivery b s
  | .crsRedAbandon value => Sys2Proof.Machine.execCrsRedAbandon value s
  | .sittingHeaderReceive p sh => Sys2Proof.Machine.execSittingHeaderReceive p sh s
  | .optStepSummary => Sys2Proof.Machine.execOptStepSummary s
  | .moeStepSummary => Sys2Proof.Machine.execMoeStepSummary s
  | .tallyRingDrain => Sys2Proof.Machine.execTallyRingDrain s
  | .lockHoldCutoff k => Sys2Proof.Machine.execLockHoldCutoff k s
  | .dramScrubStep k => Sys2Proof.Machine.execDramScrubStep k s
  | .vitrineScrubStep n line => Sys2Proof.Machine.execVitrineScrubStep n line s
  | .imgLoadStart => Sys2Proof.Machine.execImgLoadStart s
  | .imgPush value => Sys2Proof.Machine.execImgPush value s
  | .imgLoadEnd tryBit => Sys2Proof.Machine.execImgLoadEnd tryBit s
  | .imgVerifyComplete => Sys2Proof.Machine.execImgVerifyComplete s
  | .imgConfirm => Sys2Proof.Machine.execImgConfirm s
  | .plinthFrameRise => Sys2Proof.Machine.execPlinthFrameRise s
  | .plinthBlockReceive block => Sys2Proof.Machine.execPlinthBlockReceive block s
  | .plinthFrameFall => Sys2Proof.Machine.execPlinthFrameFall s
  | .echo => Sys2Proof.Machine.execEcho s
  | .info => Sys2Proof.Machine.execInfo s
  | .flashRead => Sys2Proof.Machine.execFlashRead s
  | .mirrorRead => Sys2Proof.Machine.execMirrorRead s
  | .attest => Sys2Proof.Machine.execAttest s
  | .stnProg => Sys2Proof.Machine.execStnProg s
  | .catFlush => Sys2Proof.Machine.execCatFlush s
  | .mailboxComplete => Sys2Proof.Machine.execMailboxComplete s
  | .curatorSample smp => Sys2Proof.Machine.execCuratorSample smp s
  | .ladderFall => Sys2Proof.Machine.execLadderFall s
  | .stackThrottleRelease k => Sys2Proof.Machine.execStackThrottleRelease k s
  | .overpowerComparator => Sys2Proof.Machine.execOverpowerComparator s
  | .curatorGuardExpire => Sys2Proof.Machine.execCuratorGuardExpire s
  | .vinOvervoltageTrip => Sys2Proof.Machine.execVinOvervoltageTrip s
  | .vinUndervoltageTrip => Sys2Proof.Machine.execVinUndervoltageTrip s
  | .railRegulationTrip => Sys2Proof.Machine.execRailRegulationTrip s
  | .logicOvertempTrip => Sys2Proof.Machine.execLogicOvertempTrip s
  | .stackOvertempTrip k => Sys2Proof.Machine.execStackOvertempTrip k s
  | .valveLoop => Sys2Proof.Machine.execValveLoop s
  | .leakDetected => Sys2Proof.Machine.execLeakDetected s
  | .holdChange level => Sys2Proof.Machine.execHoldChange level s
  | .inputChatter pin => Sys2Proof.Machine.execInputChatter pin s
  | .inputStuckTimeout pin => Sys2Proof.Machine.execInputStuckTimeout pin s
  | .pltUnmask value => Sys2Proof.Machine.execPltUnmask value s
  | .fltClr => Sys2Proof.Machine.execFltClr s
  | .catalogueEventTake => Sys2Proof.Machine.execCatalogueEventTake s
  | .fencedEventRecord => Sys2Proof.Machine.execFencedEventRecord s
  | .epochSeal => Sys2Proof.Machine.execEpochSeal s
  | .cataloguePersistFlush => Sys2Proof.Machine.execCataloguePersistFlush s
  | .flashCopyComplete => Sys2Proof.Machine.execFlashCopyComplete s
  | .catalogueFreeze => Sys2Proof.Machine.execCatalogueFreeze s
  | .catalogueUnfreeze => Sys2Proof.Machine.execCatalogueUnfreeze s
  | .freezeLapse => Sys2Proof.Machine.execFreezeLapse s
  | .catWindowCapture => Sys2Proof.Machine.execCatWindowCapture s
  | .catWindowAdvance => Sys2Proof.Machine.execCatWindowAdvance s
  | .scoreDecay => Sys2Proof.Machine.execScoreDecay s
  | .catCondClr value => Sys2Proof.Machine.execCatCondClr value s
  | .bar2Read off len tlp => Sys2Proof.Machine.execBar2Read off len tlp s
  | .bar2ReadComplete => Sys2Proof.Machine.execBar2ReadComplete s
  | .bar2Write off bytes tlp => Sys2Proof.Machine.execBar2Write off bytes tlp s
  | .bar2Fetchadd off w v => Sys2Proof.Machine.execBar2Fetchadd off w v s
  | .bar2Swap off w v => Sys2Proof.Machine.execBar2Swap off w v s
  | .bar2Cas off w cmp v => Sys2Proof.Machine.execBar2Cas off w cmp v s
  | .bar4Read off len tlp => Sys2Proof.Machine.execBar4Read off len tlp s
  | .bar4Write off bytes tlp => Sys2Proof.Machine.execBar4Write off bytes tlp s
  | .htwaitComplete n => Sys2Proof.Machine.execHtwaitComplete n s
  | .imgLoadBusyClear => Sys2Proof.Machine.execImgLoadBusyClear s
  | .phaseCInputsRead => Sys2Proof.Machine.execPhaseCInputsRead s
  | .exactSumLossReport loss => Sys2Proof.Machine.execExactSumLossReport loss s
  | .bar0MalformedRead dws => Sys2Proof.Machine.execBar0MalformedRead dws s

end Sys2Proof.Machine
end

