-- ==== Sys2Proof/Machine/Tick.lean ====
section
/-! DEFINITION. One tick of the device with no command waiting (log entry 2): hall time advances (R19, R25), the
watchdogs count (R104), link credit returns (R312), and the commands whose tick has come wait in the order of R41. -/

namespace Sys2Proof.Machine

open Sys2Proof

/-- How far HT advances in this tick (R25): by 1, or by 2 or 0 for a slew, at most once in 1,024 ticks. The root, and a
follower in HOLDOVER, count on their own reference and slew no more (R28, R29). -/
def State.advance (s : State) : Nat :=
  let free := s.isRoot || s.rbit Reg.htStatus 1
  let may := !free && (match s.clk.lastSlew with | none => true | some c => decide (c + 1024 ≤ s.cycle))
  if !s.counting then 0
  else if may && decide (0 < s.clk.slewBy) then 2
  else if may && decide (s.clk.slewBy < 0) then 0
  else 1

/-- Hall time takes its next value: the one that an edge of TSYNC gave (R21), else one that a slew may change (R25). -/
def State.clockTick (s : State) : State :=
  let n := s.advance
  let slew := s.counting && n != 1 && s.clk.load.isNone
  { s with
    ht := s.clk.load.getD (s.ht + dword n)
    cycle := s.cycle + 1
    evts := []
    clk := { s.clk with
      prev := some s.ht
      load := none
      slewBy := if slew then (if n = 2 then s.clk.slewBy - 1 else s.clk.slewBy + 1) else s.clk.slewBy
      lastSlew := if slew then some s.cycle else s.clk.lastSlew } }

/-- The watchdog of a station counts a tick in which both its streams wait (R104). -/
def Stn.watch (x : Stn) : Stn := if x.stalled then { x with wd := x.wd + 1 } else x

/-- The end of a cycle at a powered station: a freeze cycle ends in the freeze (R108), the last cycle of a c.idle in the stop
that waits for it (R73), a requester that waited on a pool counts (R298), and STN_CLK_LOWi follows FREE (R302). -/
def State.endCycle (s : State) (n : StnId) : State :=
  if !(s.st n).powered then s
  else
    let s1 := if (s.st n).inFreezeCycle then s.freeze n false
      else if (s.st n).inStopCycle then s.stopStreams n else s
    (List.range 5).foldl (fun t i => t.clkLow n i) (s1.countWait n)

/-- Changes of the step state that this tick may bring (R28, R34, R36, R37, R39): the close tick, the end of the drain,
the overrun, a holdover past its limit, the end of Stopped. -/
def State.dueStep (s : State) : List Instr :=
  let t := s.ht.toNat
  let closes := s.stepState == 1 && decide ((s.rg64 Reg.htStepCloseLo).toNat ≤ t)
  (if closes then [Instr.closingBegin] else []) ++
  (if closes || s.stepState == 2 then [Instr.drainComplete, Instr.closeOverrun] else []) ++
  (if s.clk.holdSince.any (fun h => decide ((s.rg Reg.htHoldover).toNat < t - h.toNat)) && !s.clk.holdDone then
    [Instr.holdoverLimitExpire] else []) ++
  (if s.stepState == 3 && s.stage == 6 then [Instr.stoppedToClosed] else [])

/-- The scheduled actions of R41 that fall in this tick, in its order; the opening last. A port whose gate bank a commit of
this tick arms may take over in it (R327). -/
def State.dueOrder (s : State) : List Instr :=
  let t := s.ht.toNat
  let deadline := (s.buckets.filter (fun e => e.2.st = .open_ && e.2.m.isNone && decide (e.2.deadline.toNat ≤ t))).map
    (fun e => Instr.bucketDeadline (Fin.ofNat 4096 e.1))
  let both := if s.txnCur.place < s.txnHost.place then [Requester.curator, .host] else [Requester.host, .curator]
  let txns := (both.filter s.txnDue).map Instr.txnTakesEffect
  let arms := (both.filter s.txnDue).flatMap (fun r => (s.txn r).entries.map (fun e => e.1))
  let armed (p : PortId) : Bool := arms.any (fun a => a == Reg.prtGateCtrl p.val || a == Reg.prtGateTakeLo p.val)
  let gates := (allPorts.filter (fun p =>
    (s.rbit (Reg.prtGateCtrl p.val) 0 && decide ((s.pt p).gateDue.toNat ≤ t)) || armed p)).map Instr.gateBankTakeover
  let mayOpen := decide ((s.rg64 Reg.htStepOpenLo).toNat ≤ t) && (s.stepState != 1 || !s.dueStep.isEmpty)
  deadline ++ s.dueStep ++ txns ++ gates ++ (if mayOpen || !txns.isEmpty then [Instr.stepOpen] else [])

/-- The actions that fall at multiples of HT in this tick. -/
def State.dueMultiples (s : State) : List Instr :=
  (if s.paradeDue then [Instr.parade] else []) ++
  (if s.plt.driven && s.rg Reg.htTsyncPeriod != 0 && s.atMultiple (s.rg Reg.htTsyncPeriod).toNat then [Instr.tsyncPulse] else []) ++
  (if s.atMultiple 4096 then [Instr.tstampSend, .ageingSweep] else []) ++
  (if s.rbit Reg.crsTelCtrl 5 && s.atMultiple (2 ^ clamp 8 24 (s.rf Reg.crsTelCtrl 0 5)) then [Instr.telemetrySample] else []) ++
  (if s.atMultiple (2 ^ s.epochLen) then [Instr.epochSeal] else []) ++
  (if s.atMultiple 1250000 then [Instr.cataloguePersistFlush] else []) ++
  (if s.atMultiple 1250000000 then [Instr.scoreDecay] else [])

/-- The other actions whose tick has come or has passed (R19, R26): the release after a role change, the waves, phase C, its
inputs, the pass of a Plinth load, and a parent that was lost or found (R28). -/
def State.dueTimers (s : State) : List Instr :=
  (allStns.filter (fun n => (s.st n).offTick.any (fun t => decide (t.toNat ≤ s.ht.toNat)))).map Instr.roleFromOffRelease ++
  (List.finRange 8).flatMap (fun w =>
    (if s.waveDue w 0 && (waveStns w).any (fun n => s.role n != 0 && !(s.st n).powered) then [Instr.wavePower w] else []) ++
    (if s.waveDue w 31250 && (waveStns w).any (fun n => (s.st n).powered && !(s.st n).released && (s.st n).offTick.isNone)
      then [Instr.waveRelease w] else [])) ++
  (if s.phaseCPast 125000 && !s.plt.driven then [Instr.phaseCOutputEnable] else []) ++
  (if s.phaseCPast 1250000 && !s.plt.reading then [Instr.phaseCInputsRead] else []) ++
  (pins.filter s.stuck).map Instr.inputStuckTimeout ++
  (if s.passed && s.img.load.any (fun l => l.ended) then [Instr.imgVerifyComplete] else []) ++
  (if s.clk.hasPrimary != s.parentUp s.primary || s.clk.hasStandby != s.parentUp s.standby then
    [Instr.parentStandbySwitch] else [])

/-- A stream at its step-end point whose record is of an earlier step goes on (R103). -/
def State.dueStream (s : State) (n : StnId) : List Instr :=
  let x := s.st n
  (if x.as.wait = .stepEnd && x.as.stepRec != some s.stepCur then [Instr.stepEndRelease n .access] else []) ++
  (if x.xs.wait = .stepEnd && x.xs.stepRec != some s.stepCur then [Instr.stepEndRelease n .execute] else [])

/-- Time limits of a station: the watchdog, htwait, a reply reservation (R104, R83, R289). -/
def State.dueStation (s : State) (n : StnId) : List Instr :=
  let x := s.st n
  let lim := (s.rg (Reg.stnWatchdog n.val)).toNat
  (if lim ≠ 0 ∧ lim ≤ x.wd then [Instr.watchdogExpire n] else []) ++
  (if x.as.wait = .htwait then [Instr.htwaitComplete n] else []) ++
  (if x.resv.head?.any (fun e => decide (2 * s.ageLimit ≤ s.ht.toNat - e.1.toNat)) then [Instr.replyReservationLapse n]
   else [])

/-- Times of a port: the epitaph awaited, a gap in the LSEQ, an LLDP neighbour, its own LLDPDU and Sync (R309, R306, R317,
R318). -/
def State.duePort (s : State) (p : PortId) : List Instr :=
  let x := s.pt p
  (if x.epiAt.any (fun t => decide (t.toNat ≤ s.ht.toNat)) then [Instr.epitaphTimeout p] else []) ++
  (if x.gapAt.any (fun t => decide (t.toNat + 256 ≤ s.ht.toNat)) then [Instr.reassemblyGapTimeout p] else []) ++
  (if x.nbr.any (fun n => decide (n.until_.toNat ≤ s.ht.toNat)) then [Instr.lldpNeighbourExpiry p] else []) ++
  (if s.lldpDue p && s.isOpen p 5 then [Instr.lldpduTransmit p] else []) ++
  (if s.syncDue p && s.isOpen p 5 then [Instr.ptpSyncTransmit p] else [])

/-- Times of a stack: a lock beyond MEM_HOLD_MAX, and the next unit of the scrub (R343, R347). -/
def State.dueStack (s : State) (k : StackId) : List Instr :=
  (if (s.sk k).locks.any (s.overheld k) then [Instr.lockHoldCutoff k] else []) ++
  (if s.scrubDue k then [Instr.dramScrubStep k] else [])

/-- The time limits that have come. -/
def State.dueLimits (s : State) : List Instr :=
  allStacks.flatMap s.dueStack ++
  (allStns.filter s.vitScrubDue).map (fun n => Instr.vitrineScrubStep n (s.st n).scrubAt) ++
  allStns.flatMap (fun n => s.dueStation n ++ s.dueStream n) ++ allPorts.flatMap s.duePort ++
  (if s.cat.freezeAt.isSome then [Instr.freezeLapse] else [])

/-- The memory of the device in a tick: each stack's write-backs and deferred units of the scrub, and its Porter. -/
def State.memTick (s : State) : State := allStacks.foldl (fun t k => (t.scrubTick k).porterTick k) s

/-- The ports in a tick: credit that is owed to a partner, and answers that wait for their gate. -/
def State.portTick (s : State) : State :=
  allPorts.foldl (fun t p => if t.portMode p = 0 then t else (t.sendCredit p).sendDelayResps p) s

/-- The next cycle begins at every station; a cut that a write armed for it is tested (R109). -/
def State.nextCycles (s : State) : State :=
  (allStns.filter (fun n => (s.st n).cut.arming)).foldl State.testCut
    { s with stn := s.stn.map (fun (x : Stn) => (x.newCycle.watch).vitBacks) }

/-- One tick with no command waiting. Credit that is owed at the close tick still goes out in it, before the actions of
that tick (log entry 118). -/
def State.tick (s : State) : State :=
  let s1 := ((allStns.foldl State.endCycle s).mirrorsTaken).clockTick
  let s2 := s1.nextCycles.mirrorRetry.tallyRetry
  let s3 := s2.endXfers.memTick.portTick
  let s4 := if s3.redWait.isEmpty then s3 else s3.retryRed
  { s4 with pending := if s4.counting then s4.dueOrder ++ s4.dueMultiples ++ s4.dueTimers ++ s4.dueLimits else [] }

end Sys2Proof.Machine
end

