-- ==== Sys2Proof/Frames.lean ====
section
/-! DEFINITION. The words that statements use to say what a command leaves alone: the registers that reporting touches,
a state that differs from another by reports only, an event that was posted, one byte of a memory. -/

namespace Sys2Proof

open Sys2Proof.Machine

/-- A register in which an interrupt is pending: GLB_IRQ_PEND and the pending bit array (R433). -/
def intReg (a : Nat) : Prop :=
  (Reg.glbIrqPend 0 ≤ a ∧ a < Reg.glbIrqPend 8) ∨ (Reg.glbPba 0 ≤ a ∧ a < Reg.glbPba 8)

/-- A register that a report may touch besides: CAT_LOST and CAT_STATUS (R402), the condition scores (R415), CUR_EVENT,
ACC_EVENT, PRT_STATUS. -/
def reportReg (a : Nat) : Prop :=
  intReg a ∨ a = Reg.catLost ∨ a = Reg.catStatus ∨ (Reg.catCondStn 0 ≤ a ∧ a < Reg.catCondOpt 16) ∨ a = Reg.curEvent ∨
  a = Reg.accEvent ∨ (Reg.prtStatus 0 ≤ a ∧ a < Reg.prtStatus 128 ∧ a % 0x10000 = 4)

/-- Every register outside a list reads as before. -/
def regsBut (l : List Nat) (s t : State) : Prop := ∀ a, a ∉ l → t.rg a = s.rg a

/-- Every register outside a list reads as before, but for pending interrupts. -/
def regsButInt (l : List Nat) (s t : State) : Prop := ∀ a, a ∉ l → ¬ intReg a → t.rg a = s.rg a

/-- Every register outside a list reads as before, but for those that a report touches. -/
def regsButReports (l : List Nat) (s t : State) : Prop := ∀ a, a ∉ l → ¬ reportReg a → t.rg a = s.rg a

/-- Every station but one is as it was. -/
def stnsBut (n : StnId) (s t : State) : Prop := ∀ m, m ≠ n → t.st m = s.st m

/-- Every port but one is as it was. -/
def portsBut (p : PortId) (s t : State) : Prop := ∀ q, q ≠ p → t.pt q = s.pt q

/-- The state differs in registers, with what the device did to them in the tick, and in what was sent only. -/
def sameButRegs (s t : State) : Prop := t = { s with regs := t.regs, evts := t.evts, out := t.out }

/-- The state differs in registers, in what was sent and in the Catalogue only. -/
def sameButReports (s t : State) : Prop := t = { s with regs := t.regs, evts := t.evts, out := t.out, cat := t.cat }

/-- One event of a code for a unit was captured at the tick of the state and posted (R402, R403): ahead of the queue when its
class is Fenced or Fatal, else at the queue's end, or lost and counted when 4,096 events wait. -/
def posted (c : Code) (u : UnitId) (s t : State) : Prop :=
  ∃ e : Event, e.code = c ∧ e.cls = c.cls ∧ e.unit = u ∧ e.ht = s.ht ∧ e.step = s.stepCur ∧
    (if c.cls = .fenced ∨ c.cls = .fatal then t.cat.urgent = s.cat.urgent ++ [e] ∧ t.cat.queue = s.cat.queue
     else if s.cat.queue.length < 4096 then t.cat.queue = s.cat.queue ++ [e] ∧ t.cat.urgent = s.cat.urgent
     else t.cat.queue = s.cat.queue ∧ t.cat.urgent = s.cat.urgent ∧
       (t.rg Reg.catLost).toNat = min 0xFFFFFFFF ((s.rg Reg.catLost).toNat + 1))

/-- An event of a code for a unit was captured since `s`, at its tick, and waits, in the queue or ahead of it, unless 4,096
events have filled the queue (R402, R403). -/
def raised (c : Code) (u : UnitId) (s t : State) : Prop :=
  ∃ e : Event, e.code = c ∧ e.cls = c.cls ∧ e.unit = u ∧ e.ht = s.ht ∧ e.step = s.stepCur ∧ s.cat.eid ≤ e.eid ∧
    (e ∈ t.cat.queue ∨ e ∈ t.cat.urgent ∨ 4096 ≤ t.cat.queue.length)

/-- The byte of DRAM at an offset (R336). -/
def dramByte (s : State) (a : Nat) : Byte := Cells.get zeroByte s.dram a

/-- The byte of a station's Vitrine at an offset. -/
def vitByte (s : State) (n : StnId) (a : Nat) : Byte := Cells.get zeroByte (s.st n).vit a

/-- The byte of the flash as written at an address. -/
def flashByte (s : State) (a : Nat) : Byte := Cells.get zeroByte s.flash a

/-- The sparse stores of the registers, of DRAM, of the flash and of each station's Vitrine have their one canonical form. -/
def canonical (s : State) : Prop :=
  Cells.wf regReset s.regs = true ∧ Cells.wf zeroByte s.dram = true ∧ Cells.wf zeroByte s.flash = true ∧
  ∀ n, Cells.wf zeroByte (s.st n).vit = true

end Sys2Proof
end

