-- ==== Sys2Proof/Safety.lean ====
section
/-! DEFINITION. What counts as a safe run, and the conditions and effects that several statements share: the instruction
at a station's program counter, an access-stream instruction that retires, words that read without an error. -/

namespace Sys2Proof

open Sys2Proof.Machine

/-- The step answers a next state. -/
def goesOn (s : State) : Prop := ∃ t, step s = .next t

/-- The legal instruction word `w` with opcode `op` stands at the AS program counter of station `n`, and the stream may
issue it (R80, R108, R110). -/
def asAt (s : State) (n : StnId) (w : Word) (op : Nat) : Prop :=
  s.mayAct n .as = true ∧ (s.st n).asWord = some w ∧ asLegal w = true ∧ asOp w = op

/-- The station in the cycle in which its access stream acts: the current one, or the next where the stream has acted in
this (log entry 106). -/
def asTurn (s : State) (n : StnId) : Stn := (s.act n .as).st n

/-- The station in the cycle in which its execute stream acts. -/
def xsTurn (s : State) (n : StnId) : Stn := (s.act n .xs).st n

/-- The station in the cycle in which Lupin acts. -/
def lupTurn (s : State) (n : StnId) : Stn := (s.act n .lupin).st n

/-- The access stream of station `n` goes on at `pc` and nothing else has changed but its G registers. -/
def asGoes (n : StnId) (pc : Nat) (s t : State) : Prop :=
  t = { s with stn := t.stn } ∧ stnsBut n s t ∧
  t.st n = { asTurn s n with
    wd := 0
    as := { (s.st n).as with pc := pc, g := (t.st n).as.g, wait := .none, obj := 0, stepRec := none } }

/-- The access stream of station `n` goes on at `pc` and nothing else has changed, no G register either. -/
def asPlain (n : StnId) (pc : Nat) (s t : State) : Prop := asGoes n pc s t ∧ (t.st n).as.g = (s.st n).as.g

/-- The access stream of station `n` goes on at `pc`; of the G registers only `d` has changed, to `v`. -/
def asSets (n : StnId) (d : Fin 16) (v pc : Nat) (s t : State) : Prop :=
  asGoes n pc s t ∧ (t.st n).as.g[d.val].toNat = v ∧ ∀ e : Fin 16, e ≠ d → (t.st n).as.g[e.val] = (s.st n).as.g[e.val]

/-- The access stream of station `n` waits, and nothing else has changed (R76). -/
def asWaits (n : StnId) (k : WaitKind) (obj : Nat) (s t : State) : Prop :=
  t = { s with stn := t.stn } ∧ stnsBut n s t ∧
  t.st n = { asTurn s n with as := { (s.st n).as with wait := k, obj := obj } }

/-- A G register of a station. -/
def gReg (s : State) (n : StnId) (d : Fin 16) : Nat := (s.st n).as.g[d.val].toNat

/-- Every 64-bit word of DRAM that `len` bytes from `o` touch is free of bad bits (R344). -/
def dramClean (s : State) (o len : Nat) : Prop := ∀ w, w ∈ wordsOf o len → s.badAt w = 0

/-- Every 64-bit word of a station's Vitrine that `len` bytes from `o` touch is free of bad bits (R352). -/
def vitClean (s : State) (n : StnId) (o len : Nat) : Prop := ∀ w, w ∈ wordsOf o len → (s.st n).vitBadAt w = 0

/-- What precedes the Carade header of a frame on the lanes of port `p` (R314): nothing on a fabric port, else the address that
Accession recorded of the partner, where it recorded one, the port's own, and PRT_ETYPE. -/
def ethFor (s : State) (p : PortId) (h : Option EthHdr) : Prop :=
  (s.isFabric p = true → h = none) ∧
  (s.isFabric p = false → ∃ x, h = some x ∧ x.src = BitVec.ofNat 48 (s.macOf p) ∧ x.type = s.rf (Reg.prtEtype p.val) 0 16 ∧
    ∀ nb, (s.pt p).nbr = some nb → x.dst = nb.du.mac)

/-- The tag of a frame of class `c` on port `p` (R315): with VLAN = 1 the VID of PRT_VLAN and the lowest PCP that PRT_PCP maps
to the class, else none. -/
def tagFor (s : State) (p : PortId) (c : TClass) (tag : Option (Nat × Nat)) : Prop :=
  (s.rbit (Reg.prtCfg p.val) 4 = false → tag = none) ∧
  (s.rbit (Reg.prtCfg p.val) 4 = true → ∃ v, tag = some (s.rf (Reg.prtVlan p.val) 0 12, v) ∧
    ∀ j, j < 8 → s.rf (Reg.prtPcp p.val) (3 * j) 3 = c.val → v ≤ j ∧ s.rf (Reg.prtPcp p.val) (3 * v) 3 = c.val)

/-- What precedes the Carade header of a frame of class `c` on the lanes of port `p`, with its tag. -/
def lanesFor (s : State) (p : PortId) (c : TClass) (h : Option EthHdr) : Prop := ethFor s p h ∧ ∀ x, h = some x → tagFor s p c x.tag

/-- What precedes a message of the Curator's agents on port `p`, to a group address under an EtherType (R315, R317, R318). -/
def agentFor (s : State) (p : PortId) (dst type : Nat) (h : EthHdr) : Prop :=
  h.dst = BitVec.ofNat 48 dst ∧ h.src = BitVec.ofNat 48 (s.macOf p) ∧ h.type = type ∧ tagFor s p 4 h.tag

/-- Every word of a bucket tile of index `k`, in its block or in the staging region, is free of bad bits (R346, R352). -/
def tileClean (s : State) (k : Nat) (x : BTile) : Prop :=
  (∀ n b, s.redStn k = some n → x.blk = some b → vitClean s n ((s.st n).lay.blkAddr b) 4096) ∧
  (∀ i, x.blk = none → x.stg = some i → dramClean s (s.stageAt i) 4096)

/-- Bucket tiles of a list, each with its index, hold blocks of their own: two of different indices at one station no common
one. -/
def apart (s : State) (l : List (Nat × BTile)) : Prop :=
  ∀ e ∈ l, ∀ n, s.redStn e.1 = some n → (s.st n).lay.tilePool ≠ none ∧
    ∀ g ∈ l, s.redStn g.1 = some n → e.2.blk ≠ none → e.2.blk = g.2.blk → e.1 = g.1

/-- A frame of a stream that counts no more (R161): counted, with RED-02 for the unit `u`, and no entry changes. -/
def strayed (u : UnitId) (s t : State) : Prop :=
  (t.rg Reg.crsRedStray).toNat = min 0xFFFFFFFF ((s.rg Reg.crsRedStray).toNat + 1) ∧ posted ⟨.red, 2⟩ u s t ∧
  regsButReports [Reg.crsRedStray] s t ∧
  t = { s with regs := t.regs, evts := t.evts, cat := t.cat, redDisc := t.redDisc, redStray := t.redStray }

/-- Nothing of a station has changed but what credits its frames hold (R320). -/
def stnsButVoq (s t : State) : Prop := ∀ n, t.st n = { s.st n with voq := (t.st n).voq }

end Sys2Proof
end

