-- ==== Sys2Proof/Certificates/Slice0/Obligations.lean ====
section
/-! DEFINITION. The statements about the block: for every family of commands what its commands do, when they complete
and what they leave alone; what holds of every step. -/

open Sys2Proof Sys2Proof.Machine

/-- A step takes the command at the front of the queue and runs it with the queue's rest. -/
def Obligations.StepRunsTheFrontCommand : Prop :=
  ∀ (c : Instr) (rest : List Instr) (s : State), step { s with pending := c :: rest } = exec c { s with pending := rest }

/-- R391, R12: right after reset no command waits, every register reads its reset value, no byte of DRAM, of the flash,
of a Vitrine or of a program memory is listed, no station has power, no port is up, and the stores of the registers, of
DRAM, of the flash and of each Vitrine have their canonical form. The model's choices in it: log entries 3, 5. -/
def Obligations.ResetState : Prop :=
  State.reset.pending = [] ∧ (∀ a, State.reset.rg a = regReset a) ∧ State.reset.ht = 0 ∧ State.reset.stage = 0 ∧
  (∀ n, (State.reset.st n).powered = false ∧ (State.reset.st n).released = false) ∧
  (∀ p, (State.reset.pt p).acc = .down) ∧ State.reset.dram = [] ∧ State.reset.flash = [] ∧
  (∀ n, (State.reset.st n).vit = [] ∧ (State.reset.st n).asMem = [] ∧ (State.reset.st n).xsMem = []) ∧ canonical State.reset

/-- Log entry 2 with R19, R21, R25, R26, R28 and R298: with no command waiting one tick passes. Hall time stands still
while it does not count; else it takes the value that an edge of TSYNC gave, or advances by 1, or, at a follower not in
HOLDOVER once in 1,024 ticks, by 2 or 0 towards its parent. A tick in which a request for a Cloakroom block waits counts
in STN_CLK_WAIT. The model's choices in it: log entries 2, 28, 39, 118. -/
def Obligations.EmptyQueueTicks : Prop :=
  ∀ s : State, s.pending = [] → ∃ t, step s = .next t ∧ t.cycle = s.cycle + 1 ∧ t.counting = s.counting ∧ t.clk.load = none ∧
    t.clk.prev = some s.ht ∧
    let may := s.isRoot = false ∧ s.rbit Reg.htStatus 1 = false ∧ ∀ c, s.clk.lastSlew = some c → c + 1024 ≤ s.cycle
    (s.counting = false → t.pending = []) ∧
    (∀ v, s.clk.load = some v → t.ht = v ∧ t.clk.slewBy = s.clk.slewBy ∧ t.clk.lastSlew = s.clk.lastSlew) ∧
    (s.clk.load = none → s.counting = false → t.ht = s.ht) ∧
    (s.clk.load = none → s.counting = true → (¬ may ∨ s.clk.slewBy = 0) → t.ht = s.ht + 1 ∧ t.clk.slewBy = s.clk.slewBy) ∧
    (s.clk.load = none → s.counting = true → may → 0 < s.clk.slewBy → t.ht = s.ht + 2 ∧ t.clk.slewBy = s.clk.slewBy - 1 ∧
      t.clk.lastSlew = some s.cycle) ∧
    (s.clk.load = none → s.counting = true → may → s.clk.slewBy < 0 → t.ht = s.ht ∧ t.clk.slewBy = s.clk.slewBy + 1 ∧
      t.clk.lastSlew = some s.cycle) ∧
    (∀ n, (s.st n).powered = true → (s.st n).inFreezeCycle = false →
      (t.rg (Reg.stnClkWait n.val)).toNat = (if (s.st n).reqs.any ((s.st n).reqLive s.ht) then
        min 0xFFFFFFFF ((s.rg (Reg.stnClkWait n.val)).toNat + 1) else (s.rg (Reg.stnClkWait n.val)).toNat))

/-- No command touches the queue of waiting commands: it is the senders' alone. -/
def Obligations.CommandsLeaveTheQueue : Prop :=
  ∀ (c : Instr) (s t : State), exec c s = .next t → t.pending = s.pending

/-- Every step keeps the one canonical form of the stores of the registers, of DRAM, of the flash and of each station's
Vitrine. The model's choices in it: log entry 3. -/
def Obligations.StepsKeepCanonicalForm : Prop :=
  ∀ s t : State, canonical s → step s = .next t → canonical t

/-- R83: nop, lil, lim, lih, addi, add and sub retire; each gives GD its value modulo 2^64 and changes nothing else.
R83: jmp, dbnz and beqz continue at this instruction plus OFF when they branch, else at the next one; dbnz decrements
GD. A branch that is taken to a target outside instructions 0 to 8,191 has no effect, on GD either: the station halts,
or is fenced by the escalation of R409, and STN_TRAP names the AS, its program counter and cause 4. -/
def Obligations.AccessArithmeticAndBranches : Prop :=
  (
  ∀ (s : State) (n : StnId) (w : Word),
    (asAt s n w 0x00 → ∃ t, exec (.asNop n) s = .next t ∧ asPlain n ((s.st n).as.pc + 1) s t) ∧
    (asAt s n w 0x08 → ∃ t, exec (.asLil n) s = .next t ∧ asSets n (asGD w) (asImm20 w) ((s.st n).as.pc + 1) s t) ∧
    (asAt s n w 0x09 → ∃ t, exec (.asLim n) s = .next t ∧
      asSets n (asGD w) (gReg s n (asGD w) / 2 ^ 40 * 2 ^ 40 + asImm20 w * 2 ^ 20 + gReg s n (asGD w) % 2 ^ 20)
        ((s.st n).as.pc + 1) s t) ∧
    (asAt s n w 0x0A → ∃ t, exec (.asLih n) s = .next t ∧
      asSets n (asGD w) (gReg s n (asGD w) / 2 ^ 60 * 2 ^ 60 + asImm20 w * 2 ^ 40 + gReg s n (asGD w) % 2 ^ 40)
        ((s.st n).as.pc + 1) s t) ∧
    (asAt s n w 0x0B → ∃ t, exec (.asAddi n) s = .next t ∧
      asSets n (asGD w) (((gReg s n (asGS w) : Int) + asImm18 w) % (2 ^ 64 : Nat)).toNat ((s.st n).as.pc + 1) s t) ∧
    (asAt s n w 0x0C → ∃ t, exec (.asAdd n) s = .next t ∧
      asSets n (asGD w) ((gReg s n (asGS w) + gReg s n (asGT w)) % 2 ^ 64) ((s.st n).as.pc + 1) s t) ∧
    (asAt s n w 0x0D → ∃ t, exec (.asSub n) s = .next t ∧
      asSets n (asGD w) ((gReg s n (asGS w) + (2 ^ 64 - gReg s n (asGT w))) % 2 ^ 64) ((s.st n).as.pc + 1) s t)
  ) ∧
  (
  ∀ (s : State) (n : StnId) (w : Word),
    let pc := (s.st n).as.pc
    let inside := 0 ≤ (pc : Int) + asOff w ∧ (pc : Int) + asOff w < 8192
    let target := ((pc : Int) + asOff w).toNat
    let stops (t : State) : Prop := (t.st n).st ≠ .running ∧
      t.rg (Reg.stnTrap n.val) = word (pc % 2 ^ 16 + 6 * 2 ^ 16 + 4 * 2 ^ 27) ∧ (t.st n).as.pc = pc ∧
      (t.st n).as.g = (s.st n).as.g
    (asAt s n w 0x01 → inside → ∃ t, exec (.asJmp n) s = .next t ∧ asPlain n target s t) ∧
    (asAt s n w 0x02 → gReg s n (asGD w) = 1 → ∃ t, exec (.asDbnz n) s = .next t ∧ asSets n (asGD w) 0 (pc + 1) s t) ∧
    (asAt s n w 0x02 → gReg s n (asGD w) ≠ 1 → inside → ∃ t, exec (.asDbnz n) s = .next t ∧
      asSets n (asGD w) ((gReg s n (asGD w) + (2 ^ 64 - 1)) % 2 ^ 64) target s t) ∧
    (asAt s n w 0x03 → gReg s n (asGD w) ≠ 0 → ∃ t, exec (.asBeqz n) s = .next t ∧ asPlain n (pc + 1) s t) ∧
    (asAt s n w 0x03 → gReg s n (asGD w) = 0 → inside → ∃ t, exec (.asBeqz n) s = .next t ∧ asPlain n target s t) ∧
    (asAt s n w 0x01 → ¬ inside → ∃ t, exec (.asJmp n) s = .next t ∧ stops t) ∧
    (asAt s n w 0x02 → gReg s n (asGD w) ≠ 1 → ¬ inside → ∃ t, exec (.asDbnz n) s = .next t ∧ stops t) ∧
    (asAt s n w 0x03 → gReg s n (asGD w) = 0 → ¬ inside → ∃ t, exec (.asBeqz n) s = .next t ∧ stops t)
  )

/-- R78, R79, R83, R103: fset and fclr give a flag its value; a set wins over a clear of its cycle, and the clear of a
start over a set; fwait goes by the value at the start of the cycle (where a cycle ends is log entry 106); fwait, htwait
and stepw go on or wait as the flag, hall time and the step say; a waiting htwait retires once HT has come. R78, R79: a
write of STN_FLAG_SET sets each flag whose bit is 1, unless the streams start in the cycle, and a write of STN_FLAG_CLR
clears it, unless the cycle sets it; no other flag and nothing else changes. The model's choices in it: log entry 106.
-/
def Obligations.FlagsAndWaits : Prop :=
  (
  ∀ (s : State) (n : StnId) (w : Word),
    let pc := (s.st n).as.pc
    let x := asTurn s n
    let fl := (asFL w).val
    let flagIs (b : Bool) (t : State) : Prop :=
      t = { s with stn := t.stn } ∧ stnsBut n s t ∧
      (t.st n).as = { (s.st n).as with pc := pc + 1, wait := .none, obj := 0, stepRec := none } ∧
      t.st n = { x with wd := 0, as := (t.st n).as, flags := (t.st n).flags,
                        cyc := { x.cyc with sets := if b then x.cyc.sets ||| flagBit (asFL w) else x.cyc.sets } } ∧
      (∀ i, i < 32 → i ≠ fl → bitOf (t.st n).flags i = bitOf (s.st n).flags i) ∧
      (((b = true ∧ x.cyc.start = false) ∨ (b = false ∧ bitOf x.cyc.sets fl = false)) → bitOf (t.st n).flags fl = b) ∧
      (((b = true ∧ x.cyc.start = true) ∨ (b = false ∧ bitOf x.cyc.sets fl = true)) →
        bitOf (t.st n).flags fl = bitOf (s.st n).flags fl)
    (asAt s n w 0x1C → ∃ t, exec (.asFset n) s = .next t ∧ flagIs true t) ∧
    (asAt s n w 0x1D → ∃ t, exec (.asFclr n) s = .next t ∧ flagIs false t) ∧
    (asAt s n w 0x1E → x.flagNow (asFL w) = asV w →
      ∃ t, exec (.asFwait n) s = .next t ∧ asPlain n (pc + 1) s t) ∧
    (asAt s n w 0x1E → x.flagNow (asFL w) ≠ asV w →
      ∃ t, exec (.asFwait n) s = .next t ∧ asWaits n .flag (asFL w).val s t) ∧
    (asAt s n w 0x05 → gReg s n (asGD w) ≤ s.ht.toNat → ∃ t, exec (.asHtwait n) s = .next t ∧ asPlain n (pc + 1) s t) ∧
    (asAt s n w 0x05 → s.ht.toNat < gReg s n (asGD w) → ∃ t, exec (.asHtwait n) s = .next t ∧ asWaits n .htwait 0 s t) ∧
    (asAt s n w 0x05 → (s.st n).as.wait = .htwait → gReg s n (asGD w) ≤ s.ht.toNat →
      ∃ t, exec (.htwaitComplete n) s = .next t ∧ asPlain n (pc + 1) s t) ∧
    (asAt s n w 0x04 → (s.st n).as.wait ≠ .stepEnd → ∃ t, exec (.asStepw n) s = .next t ∧
      t = { s with stn := t.stn } ∧ stnsBut n s t ∧
      t.st n = { x with as := { (s.st n).as with wait := .stepEnd, obj := 0, stepRec := some s.stepCur } })
  ) ∧
  (
  ∀ (s : State) (n : StnId) (mask : Word), s.stnUp n = true →
    let c := (s.st n).cyc
    (∃ t, exec (.stnFlagSet n mask) s = .next t ∧ t = { s with stn := t.stn } ∧ stnsBut n s t ∧
      t.st n = { s.st n with flags := (t.st n).flags, cyc := { c with sets := c.sets ||| mask } } ∧
      ∀ i, i < 32 → bitOf (t.st n).flags i = (bitOf (s.st n).flags i || (bitOf mask i && !c.start))) ∧
    (∃ t, exec (.stnFlagClr n mask) s = .next t ∧ t = { s with stn := t.stn } ∧ stnsBut n s t ∧
      t.st n = { s.st n with flags := (t.st n).flags } ∧
      ∀ i, i < 32 → bitOf (t.st n).flags i = (bitOf (s.st n).flags i && !(bitOf mask i && !bitOf c.sets i)))
  )

/-- R77, R83: tdrop pops the frame at the head of QA and frees its block; a stream to which QA allows no pop (it is
empty, its head's data have not come, or the XS or Lupin pops it: R75, R77) waits on it. R84, R81: tst stores the frame
at the head of QA in frame form (its header in 64 bytes, then payload and sidecar), tstp its payload and sidecar only,
at the address in GD: in DRAM or in this station's program region. No other byte of any memory changes; the frame leaves
the queue. The model's choices in it: log entries 106, 111. -/
def Obligations.AccessDropsAndStores : Prop :=
  (
  ∀ (s : State) (n : StnId) (w : Word), asAt s n w 0x16 →
    (∀ f, (asTurn s n).asPopHead s.ht (asQA w) = some f → ∃ t, exec (.asTdrop n) s = .next t ∧
      (t.st n).q[(asQA w).val] = (s.st n).q[(asQA w).val].tail ∧
      (∀ q : Fin 8, q ≠ asQA w → (t.st n).q[q.val] = (s.st n).q[q.val]) ∧
      (t.st n).used = ((s.st n).freeTile f.blk).used ∧ (t.st n).as.pc = (s.st n).as.pc + 1 ∧
      (t.st n).as.g = (s.st n).as.g ∧ (t.st n).vit = (s.st n).vit ∧ stnsBut n s t ∧ t = { s with stn := t.stn }) ∧
    ((asTurn s n).asPopHead s.ht (asQA w) = none →
      ∃ t, exec (.asTdrop n) s = .next t ∧ asWaits n .queueEmpty (asQA w).val s t)
  ) ∧
  (
  ∀ (s : State) (n : StnId) (w : Word) (f : Tile),
    let x := s.st n
    let g := x.as.g[(asGD w).val]
    let body := match f.blk with | some b => Cells.read zeroByte x.vit (x.lay.blkAddr b) f.th.bodyLen | none => []
    (asTurn s n).asPopHead s.ht (asQA w) = some f → (∀ b, f.blk = some b → vitClean s n (x.lay.blkAddr b) f.th.bodyLen) →
    let stored (bytes : List Byte) (t : State) : Prop :=
      (∀ a, dramByte t a = if addrSpace g = 0 ∧ addrOff g ≤ a ∧ a < addrOff g + bytes.length then nth bytes (a - addrOff g) 0
        else dramByte s a) ∧
      (∀ m a, vitByte t m a =
        if m = n ∧ addrSpace g = 1 ∧ addrOff g ≤ a ∧ a < addrOff g + bytes.length then nth bytes (a - addrOff g) 0
        else vitByte s m a) ∧
      (t.st n).q[(asQA w).val] = x.q[(asQA w).val].tail ∧
      (∀ q : Fin 8, q ≠ asQA w → (t.st n).q[q.val] = x.q[q.val]) ∧
      (t.st n).as.pc = x.as.pc + 1 ∧ (t.st n).as.g = x.as.g ∧ stnsBut n s t ∧ t.flash = s.flash ∧ t.prt = s.prt
    (asAt s n w 0x12 → x.addrOk g (64 + f.th.bodyLen) = true →
      ∃ t, exec (.asTst n) s = .next t ∧ stored (f.th.bytes ++ zeros 32 ++ body) t) ∧
    (asAt s n w 0x13 → (f.th.hdrOnly = true ∧ f.blk = none ∨ f.th.hdrOnly = false ∧ x.addrOk g f.th.bodyLen = true) →
      ∃ t, exec (.asTstp n) s = .next t ∧ stored body t)
  )

/-- R85, R63, R64, R281, R289: tfwd sends the frame at the head of QA to the hop word at HOP + 1 of its itinerary, tsend
to the hop word in GD; the frame enters the virtual output queue of its class, destination and landing, with a reply
reservation for a reply, or is freed at an END hop; a frame that no station takes is released and counted; the stream
waits while its share of the descriptors is in use, and a reply while no reservation can be made. That a frame is
released too where its link has failed and no fallback reaches a device, which hopDest answers with none, is the model's
choice (log entry 38). The model's choices in it: log entries 28, 38, 119. -/
def Obligations.AccessSends : Prop :=
  ∀ (s : State) (n : StnId) (w : Word) (f : Tile),
    let x := s.st n
    (asTurn s n).asPopHead s.ht (asQA w) = some f → (∀ b, f.blk = some b → vitClean s n (x.lay.blkAddr b) f.th.bodyLen) →
    let sends (hw : Word) (th : TH) (c : Instr) : Prop :=
      let popped (t : State) : Prop := exec c s = .next t ∧ (t.st n).q[(asQA w).val] = x.q[(asQA w).val].tail ∧
        (t.st n).as.pc = x.as.pc + 1 ∧ stnsBut n s t
      let gone (t : State) : Prop := (t.st n).voq = x.voq ∧ (t.st n).used = (x.freeTile f.blk).used
      let queued (d : Dest) (v : VoqFrame) (t : State) : Prop := (t.st n).voq = x.voq ++ [v] ∧
        v.tc = d.tc ∧ v.dst = d.stn ∧ v.land = d.land ∧ v.wire.th = some th ∧ v.wire.dst = d.dst ∧ v.entry = s.ht ∧
        v.credit = false ∧ v.fromAs = true ∧ v.aside = false ∧ (v.since = none ↔ d.tc = tclass (hopTc hw)) ∧
        (∀ b, f.blk = some b → v.hold = .vitrine b ∧ v.wire.data = Cells.read zeroByte x.vit (x.lay.blkAddr b) th.bodyLen)
      (hopKind hw = 0 → ∃ t, popped t ∧ gone t ∧ t = { s with stn := t.stn }) ∧
      (hopKind hw ≠ 0 → (s.hopDest hw th = none ∨ ∃ d, s.hopDest hw th = some d ∧ hopKind hw = 1 ∧ s.offStation d.stn = true) →
        ∃ t, popped t ∧ gone t ∧ posted ⟨.stn, 4⟩ (uStn n) s t ∧
          (t.rg (Reg.stnNoItin n.val)).toNat = min 0xFFFFFFFF ((s.rg (Reg.stnNoItin n.val)).toNat + 1) ∧
          regsButReports [Reg.stnNoItin n.val] s t ∧
          t = { s with stn := t.stn, regs := t.regs, evts := t.evts, cat := t.cat }) ∧
      (∀ d, hopKind hw ≠ 0 → s.hopDest hw th = some d → ¬ (hopKind hw = 1 ∧ s.offStation d.stn = true) →
        (s.sendFull n = true → ∃ t, exec c s = .next t ∧ asWaits n .crossing 0 s t) ∧
        (s.sendFull n = false → hopTc hw ≠ 0 → ∃ t v, popped t ∧ queued d v t ∧
          t = { s with stn := t.stn, xbar := t.xbar }) ∧
        (s.sendFull n = false → hopTc hw = 0 → s.respFull n = true → ∃ t, exec c s = .next t ∧ asWaits n .crossing 0 s t) ∧
        (s.sendFull n = false → hopTc hw = 0 → s.respFull n = false → ∀ b u, (s.act n .as).allocTile n .reply 0 = some (b, u) →
          ∃ t v, popped t ∧ queued d v t ∧ (t.st n).resv = x.resv ++ [(s.ht, b)] ∧ b ∉ x.usedOf (x.lay.tilePool.getD 0) ∧
            regsBut [Reg.stnClkLow n.val (x.lay.tilePool.getD 0)] s t ∧ t = { s with regs := t.regs, stn := t.stn, xbar := t.xbar }))
    (asAt s n w 0x14 →
      sends (s.hopWord f.th.itin (f.th.hop + 1)) (if f.th.hop + 1 < 16 then f.th.setHop (f.th.hop + 1) else f.th) (.asTfwd n)) ∧
    (asAt s n w 0x15 → hopLegal (word x.as.g[(asGD w).val].toNat) = true →
      sends (word x.as.g[(asGD w).val].toNat) f.th (.asTsend n)) ∧
    (asAt s n w 0x15 → hopLegal (word x.as.g[(asGD w).val].toNat) = false →
      ∃ t, exec (.asTsend n) s = .next t ∧ (t.st n).st ≠ .running ∧ (t.st n).as.pc = x.as.pc)

/-- R84, R87: tld and tldp take the lowest free block and an entry of QT at once, and issue a read whose bytes are those
in memory at issue; tldp counts its template's SEQ. With QT full, or with no block at hand (R297), the stream waits. No
memory changes. R84, R80: the data of the oldest load arrive: its entry becomes ready with the checked header, and
payload and sidecar stand in its block; a header that fails its check halts the station, an idle one too (R59). thld
reads a header into a template. The model's choices in it: log entries 28, 35, 106, 110, 112. -/
def Obligations.AccessLoads : Prop :=
  (
  ∀ (s : State) (n : StnId) (w : Word) (i b : Nat),
    let x := s.st n
    let y := asTurn s n
    let g := x.as.g[(asGD w).val]
    let off := addrOff g
    let tmpl := x.as.h[(asHT3 w).val]
    let th0 := tmpl.loaded (asLst w) (asItin w) (asHop w)
    let th1 := (TH.ofBytes (Cells.read zeroByte s.dram off 32)).loaded (asLst w) (asItin w) (asHop w)
    let taken (t : State) (l : Load) : Prop :=
      (t.st n).loads = x.loads ++ [l] ∧ l.id = x.loadId ∧ l.q = asQT w ∧ l.blk = b ∧ l.addr = g ∧ l.bad = none ∧
      (t.st n).q[(asQT w).val] = x.q[(asQT w).val] ++ [⟨⟨TH.zero, some b⟩, .load x.loadId⟩] ∧
      (∀ q : Fin 8, q ≠ asQT w → (t.st n).q[q.val] = x.q[q.val]) ∧ (t.st n).usedOf i = b :: x.usedOf i ∧
      (t.st n).as.pc = x.as.pc + 1 ∧ (t.st n).as.g = x.as.g ∧ (t.st n).vit = x.vit ∧ stnsBut n s t ∧
      regsBut [Reg.stnClkLow n.val i] s t ∧ t = { s with regs := t.regs, stn := t.stn, stk := t.stk }
    x.lay.tilePool = some i → i < x.used.length → addrSpace g = 0 → y.outranked s.ht i .as 0 = false →
    let free := y.cyc.given.contains i = false ∧ b < x.lay.count i ∧ b ∉ x.usedOf i ∧ (i, b) ∉ y.cyc.freed ∧
      ∀ c, c < b → c ∈ x.usedOf i ∨ (i, c) ∈ y.cyc.freed
    (asAt s n w 0x10 → y.canPush (asQT w) = true → free → x.addrOk g 64 = true → x.addrOk g (64 + th1.bodyLen) = true →
      th1.ok = true → dramClean s off 64 → dramClean s (off + 64) th1.bodyLen →
      ∃ t l, exec (.asTld n) s = .next t ∧ taken t l ∧ l.payload = false ∧ l.th = th1 ∧
        (th1.hdrOnly = false → l.body = Cells.read zeroByte s.dram (off + 64) th1.bodyLen) ∧
        (t.st n).as.h = x.as.h) ∧
    (asAt s n w 0x11 → y.canPush (asQT w) = true → free → th0.ok = true → x.addrOk g th0.bodyLen = true →
      dramClean s off th0.bodyLen →
      ∃ t l, exec (.asTldp n) s = .next t ∧ taken t l ∧ l.payload = true ∧ l.th = th0 ∧
        l.body = Cells.read zeroByte s.dram off th0.bodyLen ∧
        (t.st n).as.h[(asHT3 w).val] = tmpl.setSeq (tmpl.seq + 1)) ∧
    (asAt s n w 0x10 → x.addrOk g 64 = true → y.canPush (asQT w) = false →
      ∃ t, exec (.asTld n) s = .next t ∧ asWaits n .queueFull (asQT w).val s t) ∧
    (asAt s n w 0x10 → x.addrOk g 64 = true → y.canPush (asQT w) = true → (∀ c, c < x.lay.count i → c ∈ x.usedOf i) →
      ∃ t, exec (.asTld n) s = .next t ∧ (t.st n).as = { x.as with wait := .tileBlock, obj := 0 } ∧
        (∃ r, r ∈ (t.st n).reqs ∧ r.pool = i ∧ r.who = .as) ∧ (t.st n).q = x.q ∧ (t.st n).used = x.used ∧
        stnsBut n s t ∧ t = { s with stn := t.stn })
  ) ∧
  (
  ∀ (s : State) (n : StnId),
    let x := s.st n
    (∀ l rest, x.loads = l :: rest → l.bad = none → l.th.ok = true → l.extOk = true → l.th.hdrOnly = false →
      ∃ t, exec (.tldDataArrive n) s = .next t ∧ (t.st n).loads = rest ∧
        (t.st n).q[l.q.val] = x.q[l.q.val].map (fun e => if e.fill = .load l.id then ⟨⟨l.th, some l.blk⟩, .ready⟩ else e) ∧
        (∀ a, vitByte t n a = if x.lay.blkAddr l.blk ≤ a ∧ a < x.lay.blkAddr l.blk + l.body.length
          then nth l.body (a - x.lay.blkAddr l.blk) 0 else vitByte s n a) ∧
        (t.st n).as = x.as ∧ stnsBut n s t ∧ t = { s with stn := t.stn }) ∧
    (∀ l rest, x.loads = l :: rest → l.bad = none → l.th.ok = false → (x.st = .running ∨ x.st = .idle) →
      ∃ t, exec (.tldDataArrive n) s = .next t ∧ ((t.st n).st = .halted ∨ (t.st n).st = .fenced) ∧ (t.st n).as.pc = x.as.pc) ∧
    (∀ w, asAt s n w 0x17 → addrSpace x.as.g[(asGD w).val] = 0 → x.addrOk x.as.g[(asGD w).val] 32 = true →
      dramClean s (addrOff x.as.g[(asGD w).val]) 32 →
      ∃ t, exec (.asThld n) s = .next t ∧
        (t.st n).as.h[(asHT3 w).val] = TH.ofBytes (Cells.read zeroByte s.dram (addrOff x.as.g[(asGD w).val]) 32) ∧
        (∀ k : Fin 8, k ≠ asHT3 w → (t.st n).as.h[k.val] = x.as.h[k.val]) ∧ (t.st n).as.pc = x.as.pc + 1 ∧
        (t.st n).as.g = x.as.g ∧ stnsBut n s t ∧ t = { s with stn := t.stn, stk := t.stk })
  )

/-- R86: bcopy clears its flag and starts a copy of GT bytes, sets the flag at once for a length of 0, and waits while
four copies are outstanding; a copy that completes, from DRAM or the station's Vitrine to either, has its bytes at the
destination, nothing else written, and its flag set unless the streams have started again. The model's choices in it:
log entries 36, 143. -/
def Obligations.AccessCopies : Prop :=
  ∀ (s : State) (n : StnId) (w : Word),
    let x := s.st n
    let dst := x.as.g[(asGD w).val]
    let src := x.as.g[(asGS w).val]
    let len := x.as.g[(asGT w).val].toNat % 2 ^ 32
    let y := asTurn s n
    let live := (x.bcopies.filter (fun b => b.live)).length
    (asAt s n w 0x18 → len % 64 = 0 → x.addrOk dst len = true → x.addrOk src len = true → len ≠ 0 → live < 4 →
      ∃ t, exec (.asBcopy n) s = .next t ∧ (t.st n).bcopies = x.bcopies ++ [⟨src, dst, len, asFL w, true⟩] ∧
        (bitOf y.cyc.sets (asFL w).val = false → bitOf (t.st n).flags (asFL w).val = false) ∧ (t.st n).as.pc = x.as.pc + 1 ∧ (t.st n).vit = x.vit ∧
        stnsBut n s t ∧ t = { s with stn := t.stn }) ∧
    (asAt s n w 0x18 → len = 0 → x.addrOk dst 0 = true → x.addrOk src 0 = true →
      ∃ t, exec (.asBcopy n) s = .next t ∧ (t.st n).bcopies = x.bcopies ∧
        (y.cyc.start = false → bitOf (t.st n).flags (asFL w).val = true) ∧ (t.st n).as.pc = x.as.pc + 1) ∧
    (asAt s n w 0x18 → len % 64 = 0 → x.addrOk dst len = true → x.addrOk src len = true → len ≠ 0 → 4 ≤ live →
      ∃ t, exec (.asBcopy n) s = .next t ∧ asWaits n .bcopySlot 0 s t) ∧
    (∀ k b, x.bcopies[k]? = some b → (addrSpace b.src = 0 → dramClean s (addrOff b.src) b.len) →
      (addrSpace b.src ≠ 0 → vitClean s n (addrOff b.src) b.len) →
      let copied (a : Nat) : Byte :=
        let o := a - addrOff b.dst + addrOff b.src
        if addrSpace b.src = 0 then dramByte s o else vitByte s n o
      ∃ t, exec (.bcopyComplete n k) s = .next t ∧ (t.st n).bcopies = x.bcopies.eraseIdx k ∧
        (∀ a, dramByte t a = if addrSpace b.dst = 0 ∧ addrOff b.dst ≤ a ∧ a < addrOff b.dst + b.len then copied a
          else dramByte s a) ∧
        (∀ m a, vitByte t m a = if m = n ∧ addrSpace b.dst ≠ 0 ∧ addrOff b.dst ≤ a ∧ a < addrOff b.dst + b.len then copied a
          else vitByte s m a) ∧
        (∀ f, f < 32 → bitOf (t.st n).flags f = if f = b.fl.val ∧ b.live = true ∧ x.cyc.start = false then true else bitOf x.flags f) ∧
        (t.st n).as = x.as ∧ stnsBut n s t)

/-- R73, R67, R107: a write of RUN = 1 to an idle released station, and RESTART of a halted one, start both streams at
their entry points with cleared registers and flags and NB = NT = 0, and empty Lupin; RESTART also releases the tiles
and loads of the queues. A cut that is armed, or that a write of this cycle arms, freezes the station at once where its
STN_CUT_AT is 0. R73: a write of RUN = 0 to a running station stops both streams at the bundle boundary, which is now,
or the end of the c.idle that runs, until when they go on; the stop makes the station idle, and its queues and G
registers keep their contents. The model's choices in it: log entry 106. -/
def Obligations.StationStartAndStop : Prop :=
  (
  ∀ (s : State) (n : StnId),
    let cutNow := ((s.st n).cut.armed = true ∨ (s.st n).cut.arming = true) ∧ (s.rf (Reg.stnCutCtrl n.val) 0 2 = 1 ∨ s.rf (Reg.stnCutCtrl n.val) 0 2 = 2) ∧
      s.rg64 (Reg.stnCutAtLo n.val) = 0
    let started (t : State) : Prop :=
      (t.st n).as = { AsState.reset with pc := s.rf (Reg.stnAsEntry n.val) 0 13 } ∧
      (t.st n).xs = { XsState.reset with pc := 64 * s.rf (Reg.stnXsEntry n.val) 0 11 } ∧
      (t.st n).flags = 0 ∧ (t.st n).wd = 0 ∧ (t.st n).cut.nb = 0 ∧ (t.st n).cut.nt = 0 ∧ (t.st n).lup = Lupin.reset ∧
      (cutNow → (t.st n).st = .halted) ∧ (¬ cutNow → (t.st n).st = .running) ∧ stnsBut n s t ∧
      regsButReports [Reg.stnCtrl n.val, Reg.stnCutStat n.val, Reg.stnDiscarded n.val, Reg.stnCutHtLo n.val,
        Reg.stnCutHtLo n.val + 4, Reg.stnCutPend n.val, Reg.stnNumFlags n.val, Reg.stnPhxRecs n.val,
        Reg.stnPhxKept n.val] s t
    (s.role n ≠ 0 → s.cur.regOn = true → (s.st n).released = true → (s.st n).st = .idle →
      s.rbit (Reg.stnCtrl n.val) 0 = false →
      ∃ t, exec (.stnRunSet n) s = .next t ∧ started t ∧ t.rbit (Reg.stnCtrl n.val) 0 = true ∧
        t = { s with regs := t.regs, evts := t.evts, free := t.free, stn := t.stn, out := t.out, cat := t.cat }) ∧
    (s.stnUp n = true → (s.st n).st = .halted →
      ∃ t, exec (.stnRestart n) s = .next t ∧ started t ∧ (t.st n).loads = [] ∧
        (∀ q : Fin 8, ∀ e ∈ (t.st n).q[q.val], e.crossing = true) ∧
        t = { s with regs := t.regs, evts := t.evts, free := t.free, stn := t.stn, out := t.out, cat := t.cat })
  ) ∧
  (
  ∀ (s : State) (n : StnId), s.role n ≠ 0 → s.cur.regOn = true → (s.st n).st = .running →
    ((s.st n).xs.idle = 0 → ∃ t, exec (.stnRunClear n) s = .next t ∧ (t.st n).st = .idle ∧
      t.rbit (Reg.stnCtrl n.val) 0 = false ∧
      (t.st n).as = { (s.st n).as with wait := .none, obj := 0, stepRec := none } ∧ (t.st n).q = (s.st n).q ∧
      (t.st n).flags = (s.st n).flags ∧ (t.st n).voq = (s.st n).voq ∧ stnsBut n s t ∧
      t = { s with regs := t.regs, evts := t.evts, free := t.free, stn := t.stn, cat := t.cat } ∧
      regsButReports [Reg.stnCtrl n.val, Reg.stnNumFlags n.val, Reg.stnPhxRecs n.val, Reg.stnPhxKept n.val] s t) ∧
    ((s.st n).xs.idle ≠ 0 → ∃ t, exec (.stnRunClear n) s = .next t ∧ t.rbit (Reg.stnCtrl n.val) 0 = false ∧
      t.st n = { s.st n with xs := { (s.st n).xs with stop := true } } ∧ stnsBut n s t ∧
      t = { s with regs := t.regs, stn := t.stn } ∧ regsBut [Reg.stnCtrl n.val] s t)
  )

/-- R67, R237: RESTART of a halted station empties Q0 to Q7, T0 to T15 and Lupin, frees their blocks, counts their tiles
in STN_DISCARDED, starts both streams at their entry points, and leaves the VOQs and the ports as they are; it has no
effect on a station that is not halted. A start by RUN and a fence empty Lupin as well, free and count its tiles. The
model's choices in it: log entries 108, 109. -/
def Obligations.RestartAndLupin : Prop :=
  ∀ (s : State) (n : StnId), s.stnUp n = true → (s.st n).xs.pend = [] →
    let x := s.st n
    let d := Reg.stnDiscarded n.val
    let counted (k : Nat) (t : State) : Prop := (t.rg d).toNat = min 0xFFFFFFFF ((s.rg d).toNat + k)
    let lupBlk (b : Nat) : Prop := ∃ u ∈ x.lup.tiles, u.blk = some b
    let anyBlk (b : Nat) : Prop := lupBlk b ∨ (∃ q : Fin 8, ∃ e ∈ x.q[q.val], e.crossing = false ∧ e.tile.blk = some b) ∨
      (∃ r : Fin 16, ∃ u, x.xs.t[r.val] = some u ∧ u.blk = some b)
    let freed (is : Nat → Prop) (t : State) : Prop := ∀ i, x.lay.tilePool = some i → i < x.used.length → (x.usedOf i).Nodup →
      ∀ b, is b → b ∉ (t.st n).usedOf i
    let inQ := ((List.finRange 8).map (fun q => (x.q[q.val].filter (fun e => e.fill = .ready)).length)).sum
    let inT := ((List.finRange 16).filter (fun r => x.xs.t[r.val].isSome)).length
    let inLupin := x.lup.tiles.length
    (x.st = .halted → ∃ t, exec (.stnRestart n) s = .next t ∧
      (∀ q : Fin 8, ∀ e ∈ (t.st n).q[q.val], e.crossing = true) ∧ (∀ r : Fin 16, (t.st n).xs.t[r.val] = none) ∧
      (t.st n).lup = Lupin.reset ∧ freed anyBlk t ∧ counted (inQ + inT + inLupin) t ∧
      (t.st n).as.pc = s.rf (Reg.stnAsEntry n.val) 0 13 ∧ (t.st n).xs.pc = 64 * s.rf (Reg.stnXsEntry n.val) 0 11 ∧
      (x.cut.armed = false → x.cut.arming = false → (t.st n).st = .running) ∧ (t.st n).voq = x.voq ∧ t.prt = s.prt ∧ stnsBut n s t) ∧
    (x.st ≠ .halted → exec (.stnRestart n) s = .next s) ∧
    (x.st = .idle → s.role n ≠ 0 → s.cur.regOn = true → s.rbit (Reg.stnCtrl n.val) 0 = false → ∃ t, exec (.stnRunSet n) s = .next t ∧
      (t.st n).lup = Lupin.reset ∧ freed lupBlk t ∧ counted inLupin t) ∧
    (x.st ≠ .fenced → ∃ t, exec (.stnFenceReq n) s = .next t ∧
      (t.st n).lup = Lupin.reset ∧ freed lupBlk t ∧ counted (inQ + inT + x.voq.length + inLupin) t)

/-- R68: FENCE_REQ fences the station: its VOQ and T registers are empty, no arrived tile stays in a queue, both its
ports are down, and its interrupt is pending. The model's choices in it: log entry 109. -/
def Obligations.StationFence : Prop :=
  ∀ (s : State) (n : StnId), s.stnUp n = true → (s.st n).st ≠ .fenced →
    ∃ t, exec (.stnFenceReq n) s = .next t ∧ (t.st n).st = .fenced ∧ (t.st n).voq = [] ∧
      (∀ q : Fin 8, ∀ e ∈ (t.st n).q[q.val], e.crossing = true) ∧ (∀ d : Fin 16, (t.st n).xs.t[d.val] = none) ∧
      (t.pt (portId (2 * n.val))).acc = .down ∧ (t.pt (portId (2 * n.val + 1))).acc = .down ∧
      t.rbit (Reg.glbIrqPend (n.val / 32)) (n.val % 32) = true ∧
      t = { s with regs := t.regs, evts := t.evts, free := t.free, stn := t.stn, prt := t.prt, out := t.out, cat := t.cat } ∧
      regsButReports [Reg.stnDiscarded n.val, Reg.stnNumFlags n.val, Reg.stnPhxRecs n.val, Reg.stnPhxKept n.val] s t

/-- R109: a write of STN_CUT_CTRL with MODE 1 or 2, or of STN_CUT_AT_LO, which gives the 64-bit count, arms the cut from
the next cycle and cancels a freeze that is pending; MODE 0 or 3 arms nothing. Where the count has reached STN_CUT_AT, a
running station does nothing in that next cycle: it freezes, with HIT and PASSED. A write with RESUME then acts as
CUT_RESUME does. R108, R110: a freeze that is due halts the station at the end of the freeze cycle, which for a bundle
with c.idle is the last of its cycles, sets HIT and not PASSED, records the tick, and leaves its interrupt pending; the
streams stand as they were. R112, R115: RESUME clears HIT and PASSED and lets a station frozen by a cut go on from where
it stands, in the next cycle (log entry 135); a read of STN_CUT_DATA returns the word that STN_CUT_SEL selects and
increments WORD modulo 2^13. The model's choices in it: log entries 48, 135. -/
def Obligations.CutFreezeAndResume : Prop :=
  (
  ∀ (s : State) (n : StnId) (v : Word),
    let ctrl := Reg.stnCutCtrl n.val
    let stat := Reg.stnCutStat n.val
    let at_ := Reg.stnCutAtLo n.val
    let hi := Cells.get (fun _ => s.rg (at_ + 4)) s.heldHi (at_ + 4)
    let arms (t : State) : Prop :=
      t.st n = { s.st n with cut := { (s.st n).cut with armed := false, arming := true, due := false, toIdle := false } } ∧
      stnsBut n s t ∧ regsBut [ctrl, at_, at_ + 4] s t ∧ t = { s with regs := t.regs, heldHi := t.heldHi, stn := t.stn }
    (s.stnUp n = true →
      (bitOf v 8 = false → (fld v 0 2 = 1 ∨ fld v 0 2 = 2) → ∃ t, exec (.cutArm n .ctrl v) s = .next t ∧
        t.rg ctrl = v &&& 0x1F ∧ t.rg64 at_ = s.rg64 at_ ∧ arms t) ∧
      (bitOf v 8 = false → fld v 0 2 ≠ 1 → fld v 0 2 ≠ 2 →
        exec (.cutArm n .ctrl v) s = .next (s.setRg ctrl (v &&& 0x1F))) ∧
      (bitOf v 8 = true → ∃ u, exec (.cutArm n .ctrl (v &&& 0x1F)) s = .next u ∧
        exec (.cutArm n .ctrl v) s = exec (.cutResume n) u) ∧
      (∃ t, exec (.cutArm n .atLo v) s = .next t ∧ t.rg64 at_ = dword (hi.toNat * 2 ^ 32 + v.toNat) ∧
        t.rg ctrl = s.rg ctrl ∧ arms t)) ∧
    (s.canRun n = true → (s.st n).cyc.didAs = true → (s.st n).cut.arming = true → (s.st n).cut.due = false →
      (s.st n).xs.stop = false → (∃ c, s.cutCount n = some c ∧ (s.rg64 at_).toNat ≤ c.toNat) →
      ∃ t, exec (.asNop n) s = .next t ∧ (t.st n).st = .halted ∧ (t.st n).as = (s.st n).as ∧ t.rbit stat 0 = true ∧
        t.rbit stat 1 = true ∧ t.rg64 (Reg.stnCutHtLo n.val) = s.ht ∧ stnsBut n s t)
  ) ∧
  (
  ∀ (s : State) (n : StnId), (s.st n).cut.due = true → (s.st n).st = .running →
    ((s.st n).cut.toIdle = true → (s.st n).xs.idle ≠ 0 → exec (.cutFreeze n) s = .next s) ∧
    (((s.st n).cut.toIdle = false ∨ (s.st n).xs.idle = 0) → ∃ t, exec (.cutFreeze n) s = .next t ∧
      (t.st n).st = .halted ∧ (t.st n).cut = { (s.st n).cut with due := false, toIdle := false } ∧
      t.rbit (Reg.stnCutStat n.val) 0 = true ∧ t.rbit (Reg.stnCutStat n.val) 1 = s.rbit (Reg.stnCutStat n.val) 1 ∧
      t.rg64 (Reg.stnCutHtLo n.val) = s.ht ∧ t.rbit (Reg.glbIrqPend (n.val / 32)) (n.val % 32) = true ∧
      (t.st n).as = (s.st n).as ∧ (t.st n).q = (s.st n).q ∧ stnsBut n s t ∧
      t = { s with regs := t.regs, evts := t.evts, free := t.free, stn := t.stn, out := t.out, cat := t.cat } ∧
      regsButReports [Reg.stnCutStat n.val, Reg.stnCutHtLo n.val, Reg.stnCutHtLo n.val + 4, Reg.stnCutPend n.val,
        Reg.stnNumFlags n.val, Reg.stnPhxRecs n.val, Reg.stnPhxKept n.val] s t)
  ) ∧
  (
  ∀ (s : State) (n : StnId), s.stnUp n = true →
    let stat := Reg.stnCutStat n.val
    let sel := Reg.stnCutSel n.val
    ((s.st n).st = .halted → s.rbit stat 0 = true → s.rbit stat 2 = false →
      (((s.st n).cut.armed = false ∧ (s.st n).cut.arming = false) ∨ ∀ c, s.cutCount n = some c → c.toNat < (s.rg64 (Reg.stnCutAtLo n.val)).toNat) →
      ∃ t, exec (.cutResume n) s = .next t ∧ t.st n = { s.st n with
          st := .running, cyc := { (s.st n).cyc with didAs := true, didXs := true, didLup := true } } ∧ stnsBut n s t ∧
        t.rbit stat 0 = false ∧ t.rbit stat 1 = false ∧ regsBut [stat] s t ∧ t = { s with regs := t.regs, evts := t.evts, stn := t.stn }) ∧
    (∃ t, exec (.cutDataRead n) s = .next t ∧
      t.out = .read .host (Reg.stnCutData n.val) (s.value (Reg.stnCutData n.val)) :: s.out ∧
      t.rf sel 12 13 = (s.rf sel 12 13 + 1) % 2 ^ 13 ∧ t.rf sel 0 12 = s.rf sel 0 12 ∧ regsBut [sel] s t ∧
      sameButRegs s t)
  )

/-- R91, R92, R94, R95, R107, R108: a bundle of one control op issues in one issue cycle (c.idle N holds N), is counted
in NB, makes a due freeze of a cut whose count it reaches, moves the program counter to its end or its branch target,
and has the op's effect: flags at the end of the cycle, registers and header words as results pending for the end of the
next issue cycle. A pop from a queue that allows none, a push to one that accepts none, an unmet flag wait and a
step-end point that is not passed leave the bundle waiting and uncounted; a running c.idle covers the cycle. An illegal
bundle does not issue: the station halts with STN-07. The model's choices in it: log entries 106, 135. -/
def Obligations.ControlBundles : Prop :=
  ∀ (s : State) (n : StnId) (pc len : Nat) (w : Word),
    let x := s.st n
    let y := xsTurn s n
    let o : XOp := ⟨5, w⟩
    s.mayAct n .xs = true → x.xs.pend = [] →
    (x.xs.idle = 0 → x.fetch (s.redStns.contains n) 2049 x.xs.pc = .bundle pc [o] len →
      let hit : Bool := decide (s.rf (Reg.stnCutCtrl n.val) 0 2 = 1) && y.cut.armed && x.cut.nb + 1 == s.rg64 (Reg.stnCutAtLo n.val)
      let xs (next c : Nat) (r : List Result) : XsState :=
        { x.xs with pc := next, ic := x.xs.ic + 1, idle := c - 1, order := x.xs.order + 1, wait := WaitKind.none, obj := 0,
                    stepRec := none, got := [],
                    pend := r.map (fun y => ⟨x.xs.ic + 1, x.xs.order, 5, y, 0, TH.zero, 0, 0⟩) }
      let issues (next c : Nat) (r : List Result) (z : Stn) : Prop :=
        ∃ t, exec (.xsBundleIssue n) s = .next t ∧ t = { s with stn := t.stn } ∧ stnsBut n s t ∧
          t.st n = { z with
            wd := 0, issCnt := x.issCnt + 1, xs := xs next c r,
            cut := { y.cut with nb := x.cut.nb + 1, due := x.cut.due || hit, toIdle := !x.cut.due && hit && decide (1 < c) } }
      let waits (k : WaitKind) (obj : Nat) : Prop :=
        ∃ t, exec (.xsBundleIssue n) s = .next t ∧ t = { s with stn := t.stn } ∧ stnsBut n s t ∧
          t.st n = { y with xs := { x.xs with pc := pc, wait := k, obj := obj } }
      let there := (((pc : Int) + 2 * signed 16 (fld w 0 16)) % 2 ^ 32).toNat
      let xd : Fin 32 := o.x 21
      let xa := x.xs.x[(o.x 16).val]
      let next := pc + len
      (o.op = 0x01 → issues next 1 [] y) ∧
      (o.op = 0x02 → issues next (fld w 0 16) [] y) ∧
      (o.op = 0x03 → y.headReady o.q = none → waits .queueEmpty o.q.val) ∧
      (o.op = 0x04 → y.canPush o.q = false → waits .queueFull o.q.val) ∧
      (o.op = 0x05 → issues next 1 [.empty o.td] y) ∧
      (o.op = 0x06 → issues next 1 [] (y.setFlags (flagBit o.fl))) ∧
      (o.op = 0x07 → issues next 1 [] (y.clrFlags (flagBit o.fl))) ∧
      (o.op = 0x08 → y.flagNow o.fl = bitOf w 5 → issues next 1 [] y) ∧
      (o.op = 0x08 → y.flagNow o.fl ≠ bitOf w 5 → waits .flag o.fl.val) ∧
      (o.op = 0x09 → issues next 1 [.x xd (BitVec.ofInt 32 (signed 16 (fld w 0 16)))] y) ∧
      (o.op = 0x0A → issues next 1 [.x xd (word ((x.xs.x[xd.val]).toNat % 2 ^ 16 + fld w 0 16 * 2 ^ 16))] y) ∧
      (o.op = 0x0B → issues next 1 [.x xd (xa + BitVec.ofInt 32 (signed 16 (fld w 0 16)))] y) ∧
      (o.op = 0x0C → issues next 1 [.x xd (xa + x.xs.x[(o.x 11).val])] y) ∧
      (o.op = 0x0D → issues there 1 [] y) ∧
      (o.op = 0x0E → issues (if xa = 0 then next else there) 1 [] y) ∧
      (o.op = 0x0F → issues (if x.xs.x[xd.val] = 1 then next else there) 1 [.x xd (x.xs.x[xd.val] - 1)] y) ∧
      (∀ u, o.op = 0x10 → x.xs.t[o.tb.val] = some u → issues next 1 [.x xd (u.th.get (fld w 0 3))] y) ∧
      (∀ u, o.op = 0x11 → x.xs.t[o.tb.val] = some u → issues next 1 [.thWord o.tb (Fin.ofNat 8 (fld w 0 3)) xa] y) ∧
      (o.op = 0x12 → x.xs.stepRec = none → ∃ t, exec (.xsBundleIssue n) s = .next t ∧ t = { s with stn := t.stn } ∧ stnsBut n s t ∧
        t.st n = { y with xs := { x.xs with pc := pc, wait := .stepEnd, obj := 0, stepRec := some s.stepCur } }) ∧
      (o.op = 0x12 → x.xs.stepRec = some s.stepCur → waits .stepEnd 0) ∧
      (∀ r, o.op = 0x12 → x.xs.stepRec = some r → r ≠ s.stepCur → issues next 1 [] y)) ∧
    (x.xs.idle ≠ 0 → ∃ t, exec (.xsBundleIssue n) s = .next t ∧ t = { s with stn := t.stn } ∧ stnsBut n s t ∧
      t.st n = { y with issCnt := x.issCnt + 1, xs := { x.xs with ic := x.xs.ic + 1, idle := x.xs.idle - 1 } }) ∧
    (∀ slot, x.xs.idle = 0 → x.fetch (s.redStns.contains n) 2049 x.xs.pc = .bad pc slot →
      ∃ t, exec (.xsBundleIssue n) s = .next t ∧ ((t.st n).st = .halted ∨ (t.st n).st = .fenced) ∧
        t.rf (Reg.stnTrap n.val) 0 16 = pc / 2 % 2 ^ 16 ∧ t.rf (Reg.stnTrap n.val) 16 3 = slot % 8 ∧
        t.rf (Reg.stnTrap n.val) 27 3 = 4 ∧ raised ⟨.stn, 7⟩ (uStn n) s t ∧ (t.st n).xs.pc = pc ∧
        (t.st n).cut.nb = x.cut.nb ∧ ((t.st n).st = .halted → stnsBut n s t))

/-- R94, R99: c.pop takes the frame at the head of its queue, which lands in TD one issue cycle after, when the block of
the frame that it replaces is freed; c.push moves the frame out of TS, which reads empty; c.free empties TD and frees
its block. Of two results for one register the one later in the order of landing (issue cycle, then order of issue, then
slot) is kept, for an accumulator where it is of an op issued later or in the same bundle. The model's choices in it:
log entries 106, 134. -/
def Obligations.PopPushFreeAndLandingOrder : Prop :=
  ∀ (s : State) (n : StnId),
    let x := s.st n
    let y := xsTurn s n
    (∀ (pc len : Nat) (w : Word), s.mayAct n .xs = true → x.xs.idle = 0 → x.xs.pend = [] →
      let o : XOp := ⟨5, w⟩
      x.fetch (s.redStns.contains n) 2049 x.xs.pc = .bundle pc [o] len →
      let lands (r : Result) (t : State) : Prop :=
        (t.st n).xs.pend = [⟨x.xs.ic + 1, x.xs.order, 5, r, 0, TH.zero, 0, 0⟩] ∧ (t.st n).xs.t = x.xs.t
      let goes (t : State) : Prop := t = { s with stn := t.stn } ∧ stnsBut n s t ∧ (t.st n).xs.pc = pc + len ∧
        (t.st n).xs.ic = x.xs.ic + 1 ∧ (t.st n).cut.nb = x.cut.nb + 1 ∧ (t.st n).as = x.as ∧ (t.st n).used = x.used
      (∀ u, o.op = 0x03 → y.headReady o.q = some u → ∃ t, exec (.xsBundleIssue n) s = .next t ∧ goes t ∧
        (t.st n).q = x.q.set o.q.val x.q[o.q.val].tail ∧ lands (.frame o.td u) t) ∧
      (∀ u, o.op = 0x04 → y.canPush o.q = true → x.xs.t[o.tb.val] = some u → ∃ t, exec (.xsBundleIssue n) s = .next t ∧
        goes t ∧ (t.st n).q = x.q.set o.q.val (x.q[o.q.val] ++ [⟨u, .ready⟩]) ∧ (t.st n).xs.t = x.xs.t.set o.tb.val none ∧
        (t.st n).xs.pend = []) ∧
      (o.op = 0x05 → ∃ t, exec (.xsBundleIssue n) s = .next t ∧ goes t ∧ (t.st n).q = x.q ∧ lands (.empty o.td) t)) ∧
    (∀ p r d, x.xs.pend = [p] → p.res = r → (r = .empty d ∨ ∃ u, r = .frame d u) → p.land < x.xs.ic → p.flags = 0 →
      p.recs = 0 → p.kept = 0 → ∃ t, exec (.engineResultLand n) s = .next t ∧ t = { s with stn := t.stn } ∧ stnsBut n s t ∧
        (t.st n).xs.pend = [] ∧ (t.st n).xs.t = x.xs.t.set d.val (match r with | .frame _ u => some u | _ => none) ∧
        (∀ u b i, x.xs.t[d.val] = some u → u.blk = some b → x.lay.tilePool = some i →
          (t.st n).used = x.used.set i ((x.usedOf i).erase b)) ∧
        ((x.xs.t[d.val] = none ∨ ∃ u, x.xs.t[d.val] = some u ∧ u.blk = none) → (t.st n).used = x.used)) ∧
    (∀ p q, (x.xs.pend = [p, q] ∨ x.xs.pend = [q, p]) → p.land < x.xs.ic → q.land < x.xs.ic →
      p.flags = 0 → q.flags = 0 → p.recs = 0 → q.recs = 0 → p.kept = 0 → q.kept = 0 →
      (p.land < q.land ∨ (p.land = q.land ∧ (p.order < q.order ∨ (p.order = q.order ∧ p.slot < q.slot)))) →
      ∃ t u, exec (.engineResultLand n) s = .next t ∧ exec (.engineResultLand n) t = .next u ∧
        (∀ d v v', p.res = .x d v → q.res = .x d v' → (u.st n).xs.x[d.val] = v') ∧
        (p.order ≤ q.order → ∀ i a a', p.res = .acc i a → q.res = .acc i a' → (u.st n).xs.acc[i.val] = a') ∧
        (p.order ≤ q.order → ∀ i a a', p.res = .ea i a → q.res = .ea i a' → (u.st n).xs.ea[i.val] = a') ∧
        (∀ d f f', p.res = .frame d f → q.res = .frame d f' → (u.st n).xs.t[d.val] = some f'))

/-- R96, R97, R98: dclr issues on a free Dahlia and lands at the end of its own issue cycle, with Dahlia free again in
the next; while another op than a product occupies Dahlia, it is overissued: it is not performed, STN_OVERISSUE counts
it and STN-09 is raised; either way the bundle has issued. R97, R99: of the results whose issue cycle has ended, the
earliest in the order of landing lands: a scalar is written to its X register, an accumulator takes its value and what
is still pending there of ops issued before gives way, a tile's bytes stand in its block and its register names it, a
word of a header takes its value, the emptied register reads empty with its block free, and the result is pending no
longer. Its flags are set in STN_NUM_FLAGS, NUM-01 is raised for one whose REPORT bit is 1 and that the step has not
reported, and its record counts are added. A result whose cycle has not ended does not land. R99, R119, R124, R130,
R134, R233, R261: ops of the engines, each the one op of its bundle and at a free engine, with FTZ off, their words
clean and the tile block at hand. dmm of two INT8 tiles adds the exact dot products of their rows to its accumulator and
saturates each total once, with OF; dout of an INT32 accumulator scaled by 1 to INT8 clips at 127. mul of an FP32 tile
by ones gives the tile back; amax of one gives the largest magnitude, or the canonical NaN with NV; add of two FP64
tiles of one shape, all +0 in the second, gives the first with each zero +0. sort writes the records in key order, equal
keys in the order they had. run puts its descriptor into Lupin's queue. Each result is pending for the last issue cycle
of the op. The model's choices in it: log entries 45, 131, 134. -/
def Obligations.EngineOccupancyAndResults : Prop :=
  (
  ∀ (s : State) (n : StnId) (pc len : Nat) (w : Word),
    let x := s.st n
    let o : XOp := ⟨0, w⟩
    let a := o.acc
    let c := x.xs.ic
    s.mayAct n .xs = true → x.xs.idle = 0 → x.xs.pend = [] → s.rbit (Reg.stnCheck n.val) 0 = false → o.op = 0x04 →
    x.fetch (s.redStns.contains n) 2049 x.xs.pc = .bundle pc [o] len →
    (x.xs.freeAt[0] ≤ c → ∃ t, exec (.xsBundleIssue n) s = .next t ∧ t = { s with stn := t.stn } ∧ stnsBut n s t ∧
      (t.st n).xs.freeAt[0] = c + 1 ∧ (t.st n).xs.accNext[a.val] = ⟨.free, []⟩ ∧ (t.st n).xs.acc = x.xs.acc ∧
      (t.st n).xs.pend = [⟨c, x.xs.order, 0, .acc a ⟨.free, []⟩, 0, TH.zero, 0, 0⟩] ∧
      (t.st n).xs.ic = c + 1 ∧ (t.st n).xs.pc = pc + len ∧ (t.st n).cut.nb = x.cut.nb + 1 ∧ (t.st n).st = .running) ∧
    (c < x.xs.freeAt[0] → x.xs.mmTil[0] = none → ∃ t, exec (.xsBundleIssue n) s = .next t ∧
      (t.rg (Reg.stnOverissue n.val)).toNat = min 0xFFFFFFFF ((s.rg (Reg.stnOverissue n.val)).toNat + 1) ∧
      posted ⟨.stn, 9⟩ (uStn n) s t ∧ stnsBut n s t ∧ regsButReports [Reg.stnOverissue n.val] s t ∧
      t = { s with regs := t.regs, evts := t.evts, stn := t.stn, cat := t.cat } ∧
      (t.st n).xs.freeAt = x.xs.freeAt ∧ (t.st n).xs.accNext = x.xs.accNext ∧ (t.st n).xs.pend = [] ∧
      (t.st n).xs.ic = c + 1 ∧ (t.st n).xs.pc = pc + len ∧ (t.st n).cut.nb = x.cut.nb + 1)
  ) ∧
  (
  ∀ (s : State) (n : StnId),
    let x := s.st n
    (∀ p, (∀ q ∈ x.xs.pend, q ≠ p → q.land < x.xs.ic → p.land < q.land ∨ (p.land = q.land ∧ p.order < q.order)) →
      p ∈ x.xs.pend → p.land < x.xs.ic → p.flags = 0 → p.recs = 0 → p.kept = 0 →
      (∀ d v, p.res = .x d v → ∃ t, exec (.engineResultLand n) s = .next t ∧ t = { s with stn := t.stn } ∧ stnsBut n s t ∧
        t.st n = { x with xs := { x.xs with x := x.xs.x.set d.val v, pend := x.xs.pend.erase p } }) ∧
      (∀ i v, p.res = .acc i v → ∃ t, exec (.engineResultLand n) s = .next t ∧ t = { s with stn := t.stn } ∧ stnsBut n s t ∧
        t.st n = { x with xs := { x.xs with
          acc := x.xs.acc.set i.val v, pend := (x.xs.pend.erase p).map (Pend.supersede (some (0, i.val)) p.order) } }) ∧
      (∀ d, p.res = .empty d → ∃ t, exec (.engineResultLand n) s = .next t ∧ t = { s with stn := t.stn } ∧ stnsBut n s t ∧
        t.st n = { (match x.xs.t[d.val] with | some u => x.freeTile u.blk | none => x) with
          xs := { x.xs with t := x.xs.t.set d.val none, pend := x.xs.pend.erase p } }) ∧
      (∀ d th b bytes, p.res = .tile d th b bytes none → x.xs.t[d.val] = none →
        x.lay.blkAddr b + bytes.length ≤ 0x800000 →
        ∃ t, exec (.engineResultLand n) s = .next t ∧ t = { s with stn := t.stn } ∧ stnsBut n s t ∧
          (t.st n).xs.t = x.xs.t.set d.val (some ⟨th, some b⟩) ∧ (t.st n).xs.pend = x.xs.pend.erase p ∧ (t.st n).used = x.used ∧
          (t.st n).xs.x = x.xs.x ∧
          ∀ a, vitByte t n a = if x.lay.blkAddr b ≤ a ∧ a < x.lay.blkAddr b + bytes.length then
            nth bytes (a - x.lay.blkAddr b) 0 else vitByte s n a) ∧
      (∀ d (w : Fin 8) v u, p.res = .thWord d w v → x.xs.t[d.val] = some u → u.blk.isSome = true →
        (u.th.putWord w.val v).hdrOnly = false →
        ∃ t, exec (.engineResultLand n) s = .next t ∧ t = { s with stn := t.stn } ∧ stnsBut n s t ∧
          t.st n = { x with xs := { x.xs with
            t := x.xs.t.set d.val (some { u with th := u.th.putWord w.val v }), pend := x.xs.pend.erase p } }) ∧
      (∀ d (w : Fin 8) v u b i, p.res = .thWord d w v → x.xs.t[d.val] = some u → u.blk = some b → x.lay.tilePool = some i →
        (u.th.putWord w.val v).hdrOnly = true →
        ∃ t, exec (.engineResultLand n) s = .next t ∧ stnsBut n s t ∧ (t.st n).used = x.used.set i ((x.usedOf i).erase b) ∧
          (t.st n).xs.t = x.xs.t.set d.val (some ⟨{ u.th.putWord w.val v with w0 := 0 }, none⟩))) ∧
    (∀ p, x.xs.pend = [p] → p.land < x.xs.ic → (∀ d v, p.res = .x d v → ∃ t, exec (.engineResultLand n) s = .next t ∧
      (t.st n).xs.x = x.xs.x.set d.val v ∧ (t.st n).xs.pend = [] ∧ stnsBut n s t ∧
      (∀ i, i < 5 → t.rbit (Reg.stnNumFlags n.val) i = (s.rbit (Reg.stnNumFlags n.val) i || p.flags.getLsbD i)) ∧
      (∀ i, i < 5 → p.flags.getLsbD i = true → s.rbit (Reg.stnNumCtrl n.val) (8 + i) = true → x.numDone.getLsbD i = false →
        raised ⟨.num, 1⟩ (uStn n) s t ∧ (t.st n).numDone.getLsbD i = true) ∧
      ((∀ i, i < 5 → p.flags.getLsbD i = true → s.rbit (Reg.stnNumCtrl n.val) (8 + i) = false ∨ x.numDone.getLsbD i = true) →
        t.cat = s.cat) ∧
      (t.rg (Reg.stnPhxRecs n.val)).toNat = min 0xFFFFFFFF ((s.rg (Reg.stnPhxRecs n.val)).toNat + p.recs) ∧
      (t.rg (Reg.stnPhxKept n.val)).toNat = min 0xFFFFFFFF ((s.rg (Reg.stnPhxKept n.val)).toNat + p.kept) ∧
      regsButReports [Reg.stnNumFlags n.val, Reg.stnPhxRecs n.val, Reg.stnPhxKept n.val] s t)) ∧
    ((∀ q ∈ x.xs.pend, x.xs.ic ≤ q.land) → exec (.engineResultLand n) s = .next s)
  ) ∧
  (
  ∀ (s : State) (n : StnId) (pc len slot blk : Nat) (w : Word),
    let x := s.st n
    let o : XOp := ⟨slot, w⟩
    let c := x.xs.ic
    let elem (u : Tile) (k i j : Nat) : Nat := leAt (x.body u) ((64 * i + j) * k) k
    s.mayAct n .xs = true → x.xs.idle = 0 → x.xs.pend = [] → x.xs.got = [blk] → x.lay.tilePool ≠ none →
    s.rbit (Reg.stnCheck n.val) 0 = false → s.rbit (Reg.stnNumCtrl n.val) 0 = false →
    x.fetch (s.redStns.contains n) 2049 x.xs.pc = .bundle pc [o] len → (∀ e : Fin 4, x.xs.freeAt[e.val] ≤ c) →
    (∀ d : Fin 16, ∀ u b, x.xs.t[d.val] = some u → u.blk = some b →
      vitClean s n (x.lay.blkAddr b) u.th.bodyLen ∧ u.th.valid ≤ u.th.rows ∧ u.th.rows ≤ rowCap u.th.code ∧ u.th.cols ≤ 64) →
    let gives (land : Nat) (r : Result) (fl : Flags) (th : TH) (recs : Nat) : Prop := ∃ t, exec (.xsBundleIssue n) s = .next t ∧
      t = { s with stn := t.stn } ∧ stnsBut n s t ∧ (t.st n).st = .running ∧ (t.st n).xs.pc = pc + len ∧ (t.st n).xs.ic = c + 1 ∧
      (t.st n).xs.t = x.xs.t ∧ (t.st n).xs.x = x.xs.x ∧ (t.st n).xs.acc = x.xs.acc ∧ (t.st n).q = x.q ∧ (t.st n).used = x.used ∧
      (t.st n).vit = x.vit ∧ (t.st n).cut.nb = x.cut.nb + 1 ∧ (t.st n).xs.pend = [⟨land, x.xs.order, slot, r, fl, th, recs, 0⟩]
    (∀ a b, slot = 0 → o.op = 0x01 → x.xs.t[o.ta.val] = some a → x.xs.t[o.tb.val] = some b → a.blk ≠ none → b.blk ≠ none →
      a.th.hdrOnly = false → b.th.hdrOnly = false → a.th.fmt = 7 → b.th.fmt = 7 → a.th.tscale = 0x7F → b.th.tscale = 0x7F →
      a.th.cols = b.th.cols → (x.xs.accNext[o.acc.val].mode = .free ∨ x.xs.accNext[o.acc.val].mode = .int32) →
      let old (k : Nat) : Word := Cells.get zeroWord x.xs.accNext[o.acc.val].v k
      let dot (i j : Nat) : Int := (old (64 * i + j)).toInt +
        ((List.range a.th.cols).map (fun k => signed 8 (elem a 1 i k) * signed 8 (elem b 1 j k))).sum
      ∃ z : Acc, z.mode = .int32 ∧
        (∀ i j, i < a.th.rows → j < b.th.rows →
          (Cells.get zeroWord z.v (64 * i + j)).toInt = max (-2 ^ 31) (min (2 ^ 31 - 1) (dot i j))) ∧
        (∀ k, (∀ i j, i < a.th.rows → j < b.th.rows → k ≠ 64 * i + j) → Cells.get zeroWord z.v k = old k) ∧
        ∃ fl, (fl = 0 ∨ fl = fOF) ∧
          (fl = 0 ↔ ∀ i j, i < a.th.rows → j < b.th.rows → -2 ^ 31 ≤ dot i j ∧ dot i j ≤ 2 ^ 31 - 1) ∧
          gives (c + max 1 (cdiv (a.th.rows * b.th.rows) 256) + 23) (.acc o.acc z) fl a.th 0) ∧
    (slot = 0 → o.op = 0x03 → fld w 4 5 = 7 → fld w 1 3 = 0 → fld w 18 2 = 0 → bitOf w 0 = false →
      x.xs.accNext[o.accOut.val].mode = .int32 → x.xs.x[(o.x 9).val] = 0x3F800000 →
      let v (k : Nat) : Int := (Cells.get zeroWord x.xs.accNext[o.accOut.val].v k).toInt
      ∃ (th : TH) (bytes : List Byte) (fl : Flags), th.fmt = 7 ∧ th.rows = 64 ∧ th.valid = 64 ∧ th.cols = 64 ∧ bytes.length = 4096 ∧
        (∀ k, k < 4096 → signed 8 (leAt bytes k 1) = max (-127) (min 127 (v k))) ∧
        (fl = 0 ∨ fl = fOF) ∧ (fl = 0 ↔ ∀ k, k < 4096 → -127 ≤ v k ∧ v k ≤ 127) ∧
        gives (c + 27) (.tile o.td th blk bytes none) fl th 0) ∧
    (∀ a b, slot = 2 → o.op = 0x03 → fld w 0 5 = 0 → x.xs.t[o.ta.val] = some a → x.xs.t[o.tb.val] = some b → a.blk ≠ none →
      b.blk ≠ none → a.th.hdrOnly = false → b.th.hdrOnly = false → a.th.fmt = 0 → b.th.fmt = 0 → a.th.sameShape b.th = true →
      (∀ i j, i < a.th.rows → j < a.th.cols → elem a 4 i j % 2 ^ 31 < 0x7F800000 ∧ elem b 4 i j = 0x3F800000) →
      ∃ (th : TH) (bytes : List Byte), th.rows = a.th.rows ∧ th.cols = a.th.cols ∧ th.valid = a.th.valid ∧ th.fmt = 0 ∧
        (∀ i j, i < a.th.rows → j < a.th.cols → leAt bytes ((64 * i + j) * 4) 4 = elem a 4 i j) ∧
        gives (c + a.th.rows + 3) (.tile o.td th blk bytes none) 0 th 0) ∧
    (∀ a, slot = 2 → o.op = 0x07 → x.xs.t[o.ta.val] = some a → a.blk ≠ none → a.th.hdrOnly = false → a.th.fmt = 0 →
      let bits (i j : Nat) : Nat := elem a 4 i j % 2 ^ 31
      let inside (i j : Nat) : Prop := i < a.th.valid ∧ j < a.th.cols
      ((∀ i j, inside i j → bits i j < 0x7F800000) → ∃ m : Nat, m < 2 ^ 31 ∧ (∀ i j, inside i j → bits i j ≤ m) ∧
        (m = 0 ∨ ∃ i j, inside i j ∧ bits i j = m) ∧ gives (c + a.th.rows + 3) (.x (o.x 5) (word m)) 0 a.th 0) ∧
      ((∃ i j, inside i j ∧ 0x7F800000 < bits i j) → gives (c + a.th.rows + 3) (.x (o.x 5) 0x7FC00000) fNV a.th 0)) ∧
    (∀ a b, slot = 1 → o.op = 0x01 → bitOf w 13 = false → x.xs.t[o.ta.val] = some a → x.xs.t[o.tb.val] = some b → a.blk ≠ none →
      b.blk ≠ none → a.th.hdrOnly = false → b.th.hdrOnly = false → a.th.fmt = 5 → b.th.fmt = 5 → a.th.sameShape b.th = true →
      (∀ i j, i < a.th.rows → j < a.th.cols → elem a 8 i j % 2 ^ 63 < 0x7FF0000000000000 ∧ elem b 8 i j = 0) →
      ∃ (th : TH) (bytes : List Byte), th.rows = a.th.rows ∧ th.cols = a.th.cols ∧ th.fmt = 5 ∧
        (∀ i j, i < a.th.rows → j < a.th.cols →
          leAt bytes ((64 * i + j) * 8) 8 = (if elem a 8 i j % 2 ^ 63 = 0 then 0 else elem a 8 i j)) ∧
        gives (c + a.th.rows + 5) (.tile o.td th blk bytes none) 0 th 0) ∧
    (∀ a, slot = 4 → o.op = 0x01 → x.xs.t[o.ta.val] = some a → a.blk ≠ none → a.th.isRecords = true →
      let recs := a.th.records (x.body a)
      ∃ (l : List (List Byte)) (th : TH), l.Perm recs ∧ l.Pairwise (fun p q => recRank o.mode p ≤ recRank o.mode q) ∧
        (∀ k, l.filter (fun r => recRank o.mode r = k) = recs.filter (fun r => recRank o.mode r = k)) ∧
        th.nrec = a.th.nrec ∧ th.rsz = a.th.rsz ∧
        gives (c + sortOcc a.th.nrec + 11) (.tile o.td th blk (recordPayload (keyWidth o.mode) l) none) 0 th a.th.nrec) ∧
    (∀ d, slot = 3 → o.op = 0x01 → x.lup.jobs.length < 4 → x.xs.x[(o.x 12).val] = word d → d < 2 ^ 32 → d % 64 = 0 →
      d + 64 ≤ x.lay.prog * 65536 → vitClean s n d 64 → ∃ t, exec (.xsBundleIssue n) s = .next t ∧ stnsBut n s t ∧
        t = { s with stn := t.stn } ∧ (t.st n).xs.pc = pc + len ∧ (t.st n).xs.pend = [] ∧
        (t.st n).lup = { x.lup with jobs := x.lup.jobs ++ [⟨o.qi, o.qo, fld w 17 4, bytesToWords 16 (x.vitBytes d 64)⟩] })
  )

/-- R104: at the limit STN_WATCHDOG, a station whose streams both wait, but not both at the step-end point and neither
in htwait, halts with STN-05; both program counters, what each stream waits on, the queue depths and the flags stand in
the STN_WD registers. A limit of 0 disables the watchdog, and below the limit nothing happens. The model's choices in
it: log entry 1. -/
def Obligations.Watchdog : Prop :=
  ∀ (s : State) (n : StnId),
    let x := s.st n
    let lim := (s.rg (Reg.stnWatchdog n.val)).toNat
    let counts := x.st = .running ∧ x.as.wait ≠ .none ∧ x.xs.wait ≠ .none ∧ x.as.wait ≠ .htwait ∧ x.xs.wait ≠ .htwait ∧
      (x.as.wait ≠ .stepEnd ∨ x.xs.wait ≠ .stepEnd)
    (counts → lim ≠ 0 → lim ≤ x.wd → x.as.obj < 32 → x.xs.obj < 32 → ∃ t, exec (.watchdogExpire n) s = .next t ∧
      raised ⟨.stn, 5⟩ (uStn n) s t ∧
      ((t.st n).st = .halted ∨ (t.st n).st = .fenced) ∧ ((t.st n).st = .halted → stnsBut n s t) ∧
      t.rf (Reg.stnWdPc n.val) 0 13 = x.as.pc % 2 ^ 13 ∧ t.rf (Reg.stnWdPc n.val) 16 16 = x.xs.pc / 2 % 2 ^ 16 ∧
      t.rf (Reg.stnWdWait n.val) 0 4 = x.as.wait.code ∧ t.rf (Reg.stnWdWait n.val) 4 5 = x.as.obj ∧
      t.rf (Reg.stnWdWait n.val) 16 4 = x.xs.wait.code ∧ t.rf (Reg.stnWdWait n.val) 20 5 = x.xs.obj ∧
      t.rg (Reg.stnWdQdepth n.val) = x.qdepth ∧ t.rg (Reg.stnWdFlags n.val) = x.cyc.flags ∧
      regsButReports [Reg.stnWdPc n.val, Reg.stnWdWait n.val, Reg.stnWdQdepth n.val, Reg.stnWdFlags n.val,
        Reg.stnCutStat n.val, Reg.stnCutHtLo n.val, Reg.stnCutHtLo n.val + 4, Reg.stnCutPend n.val, Reg.stnDiscarded n.val, Reg.stnNumFlags n.val, Reg.stnPhxRecs n.val, Reg.stnPhxKept n.val] s t) ∧
    ((lim = 0 ∨ x.wd < lim) → exec (.watchdogExpire n) s = .next s)

/-- R234, R235, R251: with no job running, the job at the front of the queue begins with nothing held or formed; one
with a malformed descriptor word halts the station with SPA-03 recorded against that word. R111, R234, R237, R249: with
nothing to push and no input at hand, Lupin pops the next tile of QI; it then works on it and counts it; the first tile
of a pair of a check or expand job stays held. An output takes a tile block as it is formed, and waits while there is
none; it goes to the end of QO when QO accepts a push, also on a station that a cut has frozen. A job whose last input
is in ends once its outputs are pushed. The model's choices in it: log entries 28, 51, 106, 120, 136. -/
def Obligations.LupinJobsAndTiles : Prop :=
  (
  ∀ (s : State) (n : StnId) (j : LupJob) (rest : List LupJob),
    let x := s.st n
    s.canRun n = true → x.lup.cur = none → x.lup.jobs = j :: rest →
    (j.badWord = none → ∃ t, exec (.lupinJobStart n) s = .next t ∧ t = { s with stn := t.stn } ∧ stnsBut n s t ∧
      t.st n = { x with lup := { Lupin.reset with jobs := rest, cur := some j } }) ∧
    (∀ i, j.badWord = some i → ∃ t, exec (.lupinJobStart n) s = .next t ∧
      ((t.st n).st = .halted ∨ (t.st n).st = .fenced) ∧ ((t.st n).st = .halted → stnsBut n s t) ∧
      raised ⟨.spa, 3⟩ (uStn n) s t ∧
      t.rf (Reg.stnSpaLast n.val) 0 3 = 3 ∧ t.rf (Reg.stnSpaLast n.val) 10 6 = i ∧ t.rg (Reg.stnSpaElem n.val) = j.dw i ∧
      (t.rg (Reg.stnSpaCnt n.val)).toNat = min 0xFFFFFFFF ((s.rg (Reg.stnSpaCnt n.val)).toNat + 1))
  ) ∧
  (
  ∀ (s : State) (n : StnId) (j : LupJob),
    let x := s.st n
    let y := lupTurn s n
    let l := x.lup
    let qi : Fin 8 := Fin.ofNat 8 j.qi.val
    let only (t : State) : Prop := exec (.lupinTile n) s = .next t ∧ t = { s with stn := t.stn } ∧ stnsBut n s t
    let turn := s.mayAct n .lupin = true ∨ s.cutFrozen n = true
    l.cur = some j → l.stuck = false →
    (∀ u, s.mayAct n .lupin = true → l.outs = [] → l.todo = [] → l.keep = none → l.hand = none → l.ended = false →
      y.lupPop s.ht qi = some u → s.rf (Reg.stnCutCtrl n.val) 2 3 ≠ qi.val →
      ∃ t, only t ∧ t.st n = { y.pop qi with lup := { l with hand := some u } }) ∧
    (∀ u b, turn → l.outs = [] → l.todo = [] → l.keep = none → l.hand = some u → l.held = [] → (j.mode = 1 ∨ j.mode = 4) →
      u.th.hdrOnly = false → u.th.last = false → u.blk = some b → (j.mode = 1 → u.th.fmt = j.fmt) →
      vitClean s n (x.lay.blkAddr b) u.th.bodyLen →
      ∃ t, exec (.lupinTile n) s = .next t ∧ (t.st n).lup.held = [⟨l.nIn, u⟩] ∧ (t.st n).lup.nIn = l.nIn + 1 ∧
        (t.st n).lup.hand = none ∧ (t.st n).lup.outs = [] ∧ (t.st n).lup.ended = false ∧ (t.st n).used = x.used ∧
        (t.st n).q = x.q ∧
        (t.rg (Reg.stnLupTiles n.val)).toNat = min 0xFFFFFFFF ((s.rg (Reg.stnLupTiles n.val)).toNat + 1) ∧
        stnsBut n s t ∧ regsBut [Reg.stnLupTiles n.val] s t ∧ t = { s with regs := t.regs, evts := t.evts, stn := t.stn }) ∧
    (∀ u r, turn → l.outs = u :: r → l.todo = [] → l.keep = none → l.hand = none → l.pushable j = true →
      (y.lupMayPush s.ht j.qo = false → ∃ t, only t ∧ t.st n = y) ∧
      (y.lupMayPush s.ht j.qo = true → r ≠ [] → j.mode ≠ 2 →
        ∃ t, only t ∧ t.st n = { y.push j.qo ⟨u, .ready⟩ with lup := { l with outs := r } }) ∧
      (y.lupMayPush s.ht j.qo = true → r = [] → l.ended = true → l.held = [] →
        ∃ t, only t ∧ t.st n = { y.push j.qo ⟨u, .ready⟩ with lup := { Lupin.reset with jobs := l.jobs } })) ∧
    (∀ th bytes k, turn → l.outs = [] → l.todo = [(th, bytes)] → l.keep = some k → th.hdrOnly = false →
      (∀ i, x.lay.tilePool = some i → y.cyc.given.contains i = true ∨ y.outranked s.ht i .lupin 0 = true ∨ y.lowestFree i = none →
        ∃ t, only t ∧ (t.st n).lup = l ∧ (t.st n).used = x.used ∧ ∃ r ∈ (t.st n).reqs, r.pool = i ∧ r.who = .lupin ∧ r.last = s.ht) ∧
      (∀ i b, x.lay.tilePool = some i → i ∉ y.cyc.given → y.outranked s.ht i .lupin 0 = false → y.lowestFree i = some b →
        l.held = [] → ∃ t, exec (.lupinTile n) s = .next t ∧
        (t.st n).lup = { l with todo := [], keep := none, outs := [⟨th, some b⟩] } ∧ (t.st n).q = x.q ∧
        (∀ a, vitByte t n a = if x.lay.blkAddr b ≤ a ∧ a < x.lay.blkAddr b + bytes.length then
          nth bytes (a - x.lay.blkAddr b) 0 else vitByte s n a) ∧
        (i < x.used.length → (t.st n).usedOf i = b :: x.usedOf i) ∧
        (t.rg (Reg.stnLupTiles n.val)).toNat = min 0xFFFFFFFF ((s.rg (Reg.stnLupTiles n.val)).toNat + 1) ∧ stnsBut n s t ∧
        regsBut [Reg.stnLupTiles n.val, Reg.stnClkLow n.val i] s t ∧
        t = { s with regs := t.regs, evts := t.evts, stn := t.stn }))
  )

/-- R21, R22: at the root an armed TSYNC edge has HT take HT_EPOCH in the next tick (EmptyQueueTicks says so of a
pending load), or is ignored with TIM-01 when that tick has gone; an edge off its expected tick by more than 1 raises
TIM-01; the edge becomes the reference. R23, R313: a driven device sends a TSYNC pulse of 8 tk at a multiple of the
period, and every locked fabric port one TSTAMP record at a multiple of 4,096 tk. R313, R25, R27: a TSTAMP record gives
its port the round trip (t4 - t1) - (t3 - t2); at the parent in use it gives HT_OFFSET and the slew, and ALIGNED while
the offset is at most 1 tk; ALIGNED that ends raises TIM-08. The model's choices in it: log entry 49. -/
def Obligations.TimeSignals : Prop :=
  (
  ∀ s : State, s.isRoot = true →
    let period := (s.rg Reg.htTsyncPeriod).toNat
    let epoch := s.rg64 Reg.htEpochLo
    let armed := s.rbit Reg.htCtrl 1 = true
    let ref (at_ : DWord) (t : State) : Prop := t.clk = { s.clk with tsyncRef := if period = 0 then none else some at_ }
    (armed → s.ht.toNat + 1 ≤ epoch.toNat → ∃ t, exec .tsyncEdge s = .next t ∧
      t.clk = { s.clk with load := some epoch, tsyncRef := if period = 0 then none else some (epoch - 1) } ∧
      t.rbit Reg.htCtrl 1 = false ∧ regsBut [Reg.htCtrl] s t ∧ t = { s with regs := t.regs, evts := t.evts, clk := t.clk }) ∧
    (armed → epoch.toNat < s.ht.toNat + 1 → ∃ t, exec .tsyncEdge s = .next t ∧ t.rbit Reg.htCtrl 1 = false ∧
      posted ⟨.tim, 1⟩ uDevice s t ∧ ref s.ht t ∧ regsButReports [Reg.htCtrl] s t ∧
      t = { s with regs := t.regs, evts := t.evts, cat := t.cat, clk := t.clk }) ∧
    (¬ armed → period ≠ 0 → ∀ r, s.clk.tsyncRef = some r →
      ∃ t, exec .tsyncEdge s = .next t ∧ ref s.ht t ∧ t = { s with regs := t.regs, evts := t.evts, cat := t.cat, clk := t.clk } ∧
        ((r.toNat + period ≤ s.ht.toNat + 1 ∧ s.ht.toNat ≤ r.toNat + period + 1) → t.cat = s.cat ∧ t.regs = s.regs) ∧
        (¬ (r.toNat + period ≤ s.ht.toNat + 1 ∧ s.ht.toNat ≤ r.toNat + period + 1) → posted ⟨.tim, 1⟩ uDevice s t ∧
          regsButReports [] s t))
  ) ∧
  (
  ∀ s : State,
    (s.plt.driven = true → s.rg Reg.htTsyncPeriod ≠ 0 → s.atMultiple (s.rg Reg.htTsyncPeriod).toNat = true →
      exec .tsyncPulse s = .next { s with out := .tsync :: s.out, plt := { s.plt with syncTil := s.ht + 8 } }) ∧
    (s.atMultiple 4096 = true → ∃ t, exec .tstampSend s = .next t ∧ t = { s with out := t.out } ∧
      t.out = ((allPorts.filter (fun p => s.isFabric p && (s.pt p).locked)).map (fun p =>
        Out.tstamp p (s.ht * 16) (s.pt p).stT3 (s.pt p).stT4)).reverse ++ s.out)
  ) ∧
  (
  ∀ (s : State) (p : PortId) (t3 t1 t2 t4 : DWord), s.isFabric p = true → (s.pt p).locked = true →
    let off : Int := (((t2 - t1) - (t4 - t3)).toInt - signed 16 (s.rf (Reg.prtAsym p.val) 0 16)) / 2
    let parent := s.parentPort = some p ∧ s.parentUp p = true
    ∃ t, exec (.tstampRecord p t3 t1 t2 t4) s = .next t ∧
      t.pt p = { s.pt p with stT3 := t3, stT4 := t4, rtt := (t4 - t1) - (t3 - t2) } ∧ portsBut p s t ∧
      t = { s with regs := t.regs, evts := t.evts, out := t.out, prt := t.prt, clk := t.clk, cat := t.cat } ∧
      regsButReports [Reg.htOffset, Reg.htStatus] s t ∧
      (¬ parent → t = { s with prt := t.prt }) ∧
      (parent → t.rg Reg.htOffset = BitVec.ofInt 32 (off / 16) ∧ t.clk.slewBy = off / 16 ∧
        t.rbit Reg.htStatus 0 = decide (off.natAbs ≤ 16) ∧
        (16 < off.natAbs → s.rbit Reg.htStatus 0 = true → posted ⟨.tim, 8⟩ uDevice s t))
  )

/-- R28: ON_STANDBY and HOLDOVER follow the parents that are available; the root has neither. R28: a timed holdover
longer than HT_HOLDOVER clears ALIGNED, raises TIM-03 and stops a Closed device at once; the others stop when their
Closing ends. R29: a root that meets a root of a lower hall rank gives up the role, takes that link as its parent and
raises TIM-02; against a higher rank it keeps the role. -/
def Obligations.ParentsHoldoverAndRoot : Prop :=
  (
  ∀ s : State,
    let prim := s.parentUp s.primary
    let stand := s.parentUp s.standby
    ∃ t, exec .parentStandbySwitch s = .next t ∧
      t.rbit Reg.htStatus 3 = (!s.isRoot && (stand && (s.rbit Reg.htCtrl 2 || !prim))) ∧
      t.rbit Reg.htStatus 1 = (!s.isRoot && (!prim && !stand)) ∧ t.clk.hasPrimary = prim ∧ t.clk.hasStandby = stand ∧
      (∀ i, i < 32 → i ≠ 1 → i ≠ 3 → t.rbit Reg.htStatus i = s.rbit Reg.htStatus i) ∧
      regsButInt [Reg.htStatus] s t ∧ t = { s with regs := t.regs, evts := t.evts, out := t.out, clk := t.clk }
  ) ∧
  (
  ∀ (s : State) (t0 : DWord), s.clk.holdSince = some t0 → s.rbit Reg.htStatus 1 = true → s.clk.holdDone = false →
    (s.rg Reg.htHoldover).toNat < s.ht.toNat - t0.toNat →
    ∃ t, exec .holdoverLimitExpire s = .next t ∧ t.rbit Reg.htStatus 0 = false ∧ posted ⟨.tim, 3⟩ uDevice s t ∧
      t.clk.holdDone = true ∧ (s.stepState = 0 → t.stepState = 3 ∧ t.clk.stopWanted = s.clk.stopWanted) ∧
      ((s.stepState = 1 ∨ s.stepState = 2) → t.stepState = s.stepState ∧ t.clk.stopWanted = true) ∧
      regsButReports [Reg.htStatus] s t ∧ t = { s with regs := t.regs, evts := t.evts, out := t.out, clk := t.clk, cat := t.cat }
  ) ∧
  (
  ∀ (s : State) (p : PortId) (rank : Fin 512), s.isRoot = true →
    (rank.val < s.rank → ∃ t, exec (.rootConflict p rank) s = .next t ∧ t.rbit Reg.htCtrl 0 = false ∧
      t.rf Reg.htParent 0 7 = p.val ∧ posted ⟨.tim, 2⟩ uDevice s t ∧
      regsButReports [Reg.htCtrl, Reg.htParent, Reg.htStatus] s t ∧
      t = { s with regs := t.regs, evts := t.evts, out := t.out, clk := t.clk, cat := t.cat }) ∧
    (s.rank ≤ rank.val → exec (.rootConflict p rank) s = .next s)
  )

/-- R40, R34: at the close tick an open step begins to close, and the close tick advances by the period. R36: a drained
Closing ends in Closed, or in Stopped when holdover or HOLD wants it, and the summaries of the step that has closed are
due (R194). R37: a Closing not drained at the close tick plus HT_CLOSE_LIMIT sets CLOSE_OVERRUN and raises TIM-04, once.
The model's choices in it: log entry 15. -/
def Obligations.ClosingDrainAndOverrun : Prop :=
  (
  ∀ s : State, s.stepState = 1 → (s.rg64 Reg.htStepCloseLo).toNat ≤ s.ht.toNat →
    ∃ t, exec .closingBegin s = .next t ∧ t.stepState = 2 ∧ t.clk = { s.clk with closeAt := some s.ht, overrun := false } ∧
      t.rg64 Reg.htStepCloseLo = s.rg64 Reg.htStepCloseLo + dword (s.rg Reg.htStepPeriod).toNat ∧
      regsButReports [Reg.htStatus, Reg.htStepCloseLo, Reg.htStepCloseHi, Reg.crsRedLate, Reg.crsRedStatus, Reg.htStepFlags] s t ∧
      t.stn = s.stn ∧ t.prt = s.prt ∧ t.dram = s.dram ∧ t.ht = s.ht
  ) ∧
  (
  ∀ s : State, s.stepState = 2 → s.drained = true →
    ∃ t, exec .drainComplete s = .next t ∧ t.stepState = (if s.clk.stopWanted = true ∨ s.holding = true then 3 else 0) ∧
      t.clk = { s.clk with closeAt := none, stopWanted := false } ∧ regsBut [Reg.htStatus] s t ∧
      t.cur = { s.cur with optDue := s.cur.optDue ++ [s.stepCur], moeDue := s.cur.moeDue ++ [s.stepCur], closed := some s.stepCur } ∧
      (∀ i, i < 4 → t.rbit Reg.htStatus i = s.rbit Reg.htStatus i) ∧
      t = { s with regs := t.regs, evts := t.evts, clk := t.clk, cur := t.cur }
  ) ∧
  (
  ∀ (s : State) (c : DWord), s.clk.closeAt = some c → s.stepState = 2 → s.drained = false →
    c.toNat + (s.rg Reg.htCloseLimit).toNat ≤ s.ht.toNat →
    (s.clk.overrun = false → ∃ t, exec .closeOverrun s = .next t ∧ t.rbit Reg.htStepFlags 2 = true ∧
      t.clk = { s.clk with overrun := true } ∧ posted ⟨.tim, 4⟩ uDevice s t ∧ regsButReports [Reg.htStepFlags] s t ∧
      t = { s with regs := t.regs, evts := t.evts, out := t.out, clk := t.clk, cat := t.cat }) ∧
    (s.clk.overrun = true → exec .closeOverrun s = .next s)
  )

/-- R38, R40: a Closed device opens its step: HT_STEP_CUR takes HT_STEP_NUM, which counts on, HT_OPEN_ACTUAL takes HT,
the opening tick advances by the period, vector 68 is pending, and a late opening sets its flag. R39: Stopped becomes
Closed once ALIGNED and PARADE_DONE are set, stage 6 is reached and HOLD is not active. R103: a stream at its step-end
point issues once HT_STEP_CUR differs from its record: the AS retires stepw, the XS issues its bundle; while the step is
the one recorded nothing happens. R30: the parade records HT in HT_PARADE and sets PARADE_DONE, once it is due. -/
def Obligations.StepsOpenAndParade : Prop :=
  (
  ∀ s : State, s.stepState = 0 → (s.rg64 Reg.htStepOpenLo).toNat ≤ s.ht.toNat →
    ∃ t, exec .stepOpen s = .next t ∧ t.stepState = 1 ∧ t.rg Reg.htStepCur = s.rg Reg.htStepNum ∧
      t.rg Reg.htStepNum = s.rg Reg.htStepNum + 1 ∧ t.rg64 Reg.htOpenActualLo = s.ht ∧
      t.rg64 Reg.htStepOpenLo = s.rg64 Reg.htStepOpenLo + dword (s.rg Reg.htStepPeriod).toNat ∧
      t.rbit (Reg.glbIrqPend 2) 4 = true ∧
      ((s.rg64 Reg.htStepOpenLo).toNat < s.ht.toNat → t.rbit Reg.htStepFlags 3 = true) ∧
      (s.plt.driven = true → s.rbit Reg.pltCtrl 0 = true → t.plt.beatTil = s.ht + 8)
  ) ∧
  (
  ∀ s : State, s.stepState = 3 →
    (s.rbit Reg.htStatus 0 = true → s.rbit Reg.htStatus 2 = true → s.stage = 6 → s.holding = false →
      ∃ t, exec .stoppedToClosed s = .next t ∧ t.stepState = 0 ∧ regsBut [Reg.htStatus] s t ∧ t = { s with regs := t.regs, evts := t.evts }) ∧
    ((s.rbit Reg.htStatus 0 = false ∨ s.rbit Reg.htStatus 2 = false ∨ s.stage ≠ 6 ∨ s.holding = true) →
      exec .stoppedToClosed s = .next s)
  ) ∧
  (
  ∀ (s : State) (n : StnId) (w : Word),
    (asAt s n w 0x04 → (s.st n).as.wait = .stepEnd → (s.st n).as.stepRec ≠ some s.stepCur →
      ∃ t, exec (.stepEndRelease n .access) s = .next t ∧ asPlain n ((s.st n).as.pc + 1) s t) ∧
    ((s.st n).as.stepRec = some s.stepCur → exec (.stepEndRelease n .access) s = .next s) ∧
    ((s.st n).xs.wait = .stepEnd → (s.st n).xs.stepRec ≠ some s.stepCur →
      exec (.stepEndRelease n .execute) s = exec (.xsBundleIssue n) s) ∧
    ((s.st n).xs.stepRec = some s.stepCur → exec (.stepEndRelease n .execute) s = .next s)
  ) ∧
  (
  ∀ s : State, s.paradeDue = true → ∃ t, exec .parade s = .next t ∧ t.rg64 Reg.htParadeLo = s.ht ∧
    t.rbit Reg.htStatus 2 = true ∧ t.clk = { s.clk with parade := true } ∧
    regsBut [Reg.htParadeLo, Reg.htParadeHi, Reg.htStatus] s t ∧ t = { s with regs := t.regs, evts := t.evts, clk := t.clk }
  )

/-- R368: TXN_BEGIN.GO opens the writer's transaction from NONE once an image runs, and gives an error else. The other
requester's transaction and everything else stand. R371: TXN_COMMIT arms an open transaction for the next tick, or for
TXN_AT; a TXN_AT that has gone is a late action: the next tick, HT_LATE_CNT, TIM-06. From FAILED it drops the shadows;
from NONE and ARMED it is an error. The model's choices in it: log entry 98. -/
def Obligations.TransactionBeginAndCommit : Prop :=
  (
  ∀ (s : State) (r : Requester) (v : Word), bitOf v 0 = true →
    let x := s.txn r
    let only (t : State) : Prop := t.txn (otherOf r) = s.txn (otherOf r) ∧ t = { s with txnHost := t.txnHost, txnCur := t.txnCur }
    (x.st = .none → s.img.booted.isSome = true → ∃ t, exec (.txnBegin r v) s = .next t ∧
      t.txn r = { x with st := .open_, entries := [], err := 0 } ∧ only t) ∧
    (x.st = .none → s.img.booted = none → ∃ t, exec (.txnBegin r v) s = .next t ∧ t.txn r = { x with err := 2 } ∧ only t) ∧
    (x.st ≠ .none → ∃ t, exec (.txnBegin r v) s = .next t ∧ t.txn r = { x with err := 1 } ∧ only t)
  ) ∧
  (
  ∀ (s : State) (r : Requester),
    let x := s.txn r
    let armed (d : DWord) (t : State) : Prop := (t.txn r).st = .armed ∧ (t.txn r).at_ = d ∧ (t.txn r).entries = x.entries ∧
      t.txn (otherOf r) = s.txn (otherOf r)
    (x.st = .open_ → ∃ t, exec (.txnCommitNow r) s = .next t ∧ armed (s.ht + 1) t ∧
      t = { s with txnHost := t.txnHost, txnCur := t.txnCur }) ∧
    (x.st = .open_ → s.ht.toNat < x.want.toNat → ∃ t, exec (.txnCommitAt r) s = .next t ∧ armed x.want t ∧
      t = { s with txnHost := t.txnHost, txnCur := t.txnCur }) ∧
    (x.st = .open_ → x.want.toNat ≤ s.ht.toNat → ∃ t, exec (.txnCommitAt r) s = .next t ∧ armed (s.ht + 1) t ∧
      (t.rg Reg.htLateCnt).toNat = min 0xFFFFFFFF ((s.rg Reg.htLateCnt).toNat + 1) ∧ posted ⟨.tim, 6⟩ uDevice s t ∧
      regsButReports [Reg.htLateCnt] s t ∧
      t = { s with txnHost := t.txnHost, txnCur := t.txnCur, regs := t.regs, evts := t.evts, cat := t.cat }) ∧
    (x.st = .failed → ∃ t, exec (.txnCommitNow r) s = .next t ∧ t.txn r = { x with st := .none, entries := [] }) ∧
    ((x.st = .none ∨ x.st = .armed) → ∃ t, exec (.txnCommitNow r) s = .next t ∧ t.txn r = { x with err := 4 })
  )

/-- R374: TXN_ROLLBACK.GO discards the writer's shadows from OPEN, ARMED or FAILED and returns its transaction to NONE;
one that has taken effect has none left. The other requester's transaction and everything else stand. A warm reset
discards both transactions. -/
def Obligations.RollbackDiscards : Prop :=
  ∀ s : State,
    (∀ (r : Requester) (v : Word), bitOf v 0 = true → ∃ t, exec (.txnRollback r v) s = .next t ∧
      t.txn r = { s.txn r with st := .none, entries := [] } ∧ t.txn (otherOf r) = s.txn (otherOf r) ∧
      t = { s with txnHost := t.txnHost, txnCur := t.txnCur }) ∧
    (∀ (r : Requester) (v : Word), bitOf v 0 = true → (s.txn r).st = .none → (s.txn r).entries = [] →
      exec (.txnRollback r v) s = .next s) ∧
    (∀ v : Word, fld v 0 16 = 0x5752 → bitOf v 16 = true → s.img.load = none → s.cur.regOn = true → s.cur.aux = true →
      ∃ t, exec (.warmReset v) s = .next t ∧ (t.txn .host).st = .none ∧ (t.txn .host).entries = [] ∧
        (t.txn .curator).st = .none ∧ (t.txn .curator).entries = [])

/-- R371 to R373: a due transaction whose settings hold takes effect: every entry's RWS bits at once, of every block,
TXN_LAST, TXN_COMMITS; a role and a gate bank that it arms act too (R452, R327). One that would break Table 14.7 is
refused with TXN_REFUSED, error 5 and CFG-07, and none of its entries acts. The model's choices in it: log entry 98. -/
def Obligations.TakeoversAtTheirTick : Prop :=
  ∀ (s : State) (r : Requester), s.txnDue r = true →
    ¬ (s.txnDue (otherOf r) = true ∧ (s.txn (otherOf r)).place < (s.txn r).place) →
    let l := (s.txn r).entries
    let count := [Reg.txnLastLo, Reg.txnLastHi, Reg.txnCommits]
    let plain (a : Nat) : Prop := ¬ intReg a ∧ a ∉ count ∧ a ∉ [Reg.htCtrl, Reg.htParent, Reg.htTsyncPeriod] ∧
      (inStn a = true → stnOff a ≠ 4) ∧
      (inPrt a = true → prtOff a ∉ [0, 0x48, 0x50] ∧ ¬ (0x24 ≤ prtOff a ∧ prtOff a ≤ 0x34))
    (s.entriesOk (s.txn r).entries = true →
      ∃ t, exec (.txnTakesEffect r) s = .next t ∧ (t.txn r).st = .none ∧ (t.txn r).entries = [] ∧ (t.txn r).err = (s.txn r).err ∧
        t.rg64 Reg.txnLastLo = s.ht) ∧
    (s.entriesOk l = true → (l.map Prod.fst).Nodup → (∀ e ∈ l, plain e.1) →
      ∃ t, exec (.txnTakesEffect r) s = .next t ∧
        (∀ e ∈ l, t.rg e.1 = (s.rg e.1 &&& ~~~(rwsMask e.1)) ||| (e.2 &&& rwsMask e.1)) ∧
        (t.txn r).st = .none ∧ (t.txn r).entries = [] ∧ t.rg64 Reg.txnLastLo = s.ht ∧
        (t.rg Reg.txnCommits).toNat = min 0xFFFFFFFF ((s.rg Reg.txnCommits).toNat + 1) ∧
        regsButInt (l.map Prod.fst ++ count) s t ∧ t.stn = s.stn ∧ t.prt = s.prt ∧ t.cat = s.cat) ∧
    (∀ (n : StnId) (v : Word), l = [(Reg.stnRole n.val, v)] → s.entriesOk l = true →
      ∃ t, exec (.txnTakesEffect r) s = .next t ∧ t.role n = fld v 0 2 ∧ t.rg64 Reg.txnLastLo = s.ht ∧
        (fld v 0 2 = 0 → s.role n ≠ 0 → (t.st n).powered = false)) ∧
    (∀ (p : PortId) (v : Word), l = [(Reg.prtGateCtrl p.val, v)] → s.entriesOk l = true → bitOf v 0 = true →
      s.ht.toNat ≤ (s.rg64 (Reg.prtGateTakeLo p.val)).toNat →
      ∃ t, exec (.txnTakesEffect r) s = .next t ∧ t.rbit (Reg.prtGateCtrl p.val) 0 = true ∧
        t.pt p = { s.pt p with gateDue := s.rg64 (Reg.prtGateTakeLo p.val) } ∧ portsBut p s t ∧ t.stn = s.stn) ∧
    (s.entriesOk (s.txn r).entries = false →
      ∃ t, exec (.txnTakesEffect r) s = .next t ∧ (t.txn r).st = .none ∧ (t.txn r).entries = [] ∧ (t.txn r).err = 5 ∧
        (t.rg Reg.txnRefused).toNat = min 0xFFFFFFFF ((s.rg Reg.txnRefused).toNat + 1) ∧
        posted ⟨.cfg, 7⟩ uDevice s t ∧ regsButReports [Reg.txnRefused] s t ∧ t.stn = s.stn ∧ t.prt = s.prt)

/-- R327: an armed gate bank takes over at its tick: the other bank becomes active from entry 0, ARM clears, and a frame
on the lanes whose class the new entry closes counts in PRT_GATE_OVR. A bank that is not armed, or not yet due, stays.
The model's choices in it: log entry 99. -/
def Obligations.GateBankTakesOver : Prop :=
  ∀ (s : State) (p : PortId),
    ((s.rbit (Reg.prtGateCtrl p.val) 0 = false ∨ s.ht.toNat < (s.pt p).gateDue.toNat) → exec (.gateBankTakeover p) s = .next s) ∧
    (s.rbit (Reg.prtGateCtrl p.val) 0 = true → (s.pt p).gateDue.toNat ≤ s.ht.toNat →
    ∃ t, exec (.gateBankTakeover p) s = .next t ∧ t.gateBank p = 1 - s.gateBank p ∧ t.rbit (Reg.prtGateCtrl p.val) 0 = false ∧
      t.pt p = { s.pt p with gateAt := s.ht, gateWas := s.openBefore p } ∧ portsBut p s t ∧
      ((s.pt p).txUntil ≤ s.cycle ∨ t.isOpen p (s.pt p).txTc.val = true → t.rg (Reg.prtGateOvr p.val) = s.rg (Reg.prtGateOvr p.val)) ∧
      (s.cycle < (s.pt p).txUntil → t.isOpen p (s.pt p).txTc.val = false →
        (t.rg (Reg.prtGateOvr p.val)).toNat = min 0xFFFFFFFF ((s.rg (Reg.prtGateOvr p.val)).toNat + 1)) ∧
      regsBut [Reg.prtGateBank p.val, Reg.prtGateCtrl p.val, Reg.prtGateOvr p.val] s t ∧
      t = { s with regs := t.regs, evts := t.evts, prt := t.prt })

/-- R9, R426, Table 17.1: at a BAR0 address at which no register can lie (no multiple of 4, or outside the window) a
write is ignored and a read gives 0. A request that runs outside BAR2 or BAR4 reaches nothing: a read or an AtomicOp
completes as unsupported, a write is dropped (the model's choice). R11, R451: a read of a register with RC fields
returns them as they stood at the start of the tick and clears them, but for what the device has added in the tick; a
read of the _LO half of an RO pair captures both halves, and a read of _HI returns the capture; a unit that does not
answer reads 0. R426: a malformed BAR0 read, with a byte enable clear or of more than 16 DW, completes with zeros, acts
on no register and sets GLB_STATUS.BAR0_PARTIAL. The model's choices in it: log entries 17, 82. -/
def Obligations.RegisterReadsAndWindows : Prop :=
  (
  ∀ s : State,
    (∀ r a v, (a % 4 ≠ 0 ∨ (2 ^ 26 ≤ a ∧ r = .curator)) → exec (.registerWrite r a ⟨[v], .good⟩) s = .next s ∧
      exec (.rcRead ⟨r, a, 1, .good⟩) s = .next (s.emit (.read r a 0)) ∧
      exec (.pairLoRead ⟨r, a, 1, .good⟩) s = .next (s.emit (.read r a 0))) ∧
    (∀ off len tlp, s.cur.aux = true → 2 ^ 36 < off + len →
      exec (.bar2Read off len tlp) s = .next (s.emit (.completion 2 .unsupported []))) ∧
    (∀ off bytes tlp, 2 ^ 36 < off + bytes.length → exec (.bar2Write off bytes tlp) s = .next s) ∧
    (∀ off w v c, s.cur.aux = true → 2 ^ 36 < off + atomicBytes w →
      exec (.bar2Fetchadd ⟨.bar2, off, .good⟩ w v) s = .next (s.emit (.completion 2 .unsupported [])) ∧
      exec (.bar2Swap ⟨.bar2, off, .good⟩ w v) s = .next (s.emit (.completion 2 .unsupported [])) ∧
      exec (.bar2Cas ⟨.bar2, off, .good⟩ w c v) s = .next (s.emit (.completion 2 .unsupported []))) ∧
    (∀ off len tlp, s.cur.aux = true → 2 ^ 24 < off + len →
      exec (.bar4Read off len tlp) s = .next (s.emit (.completion 4 .unsupported []))) ∧
    (∀ off bytes tlp, 2 ^ 24 < off + bytes.length → exec (.bar4Write off bytes tlp) s = .next s)
  ) ∧
  (
  ∀ (s : State) (r : Requester) (a : Nat) (row : RegRow),
    a % 4 = 0 → a < 2 ^ 26 → regRow a = some row → isProg a = false → (inStn a = true → stnOff a ≠ 0x30130) →
    a ∉ [Reg.catWindow 0, Reg.catWindow 15] →
    (s.unitUp a = true → row.half = .single → row.rc ≠ 0 →
      ∃ t, exec (.rcRead ⟨r, a, 1, .good⟩) s = .next t ∧
        t.out = .read r a ((s.valueFor r a &&& ~~~row.rc) ||| (s.wasRg a &&& row.rc)) :: s.out ∧
        t.rg a = (s.rg a &&& ~~~row.rc) ||| (s.since a &&& row.rc) ∧ regsBut [a] s t ∧ sameButRegs s t) ∧
    (s.unitUp a = true → row.roLo = true →
      ∃ t, exec (.pairLoRead ⟨r, a, 1, .good⟩) s = .next t ∧ t.out = .read r a (s.valueFor r a) :: s.out ∧
        Cells.look t.capHi (a + 4) = some (s.value (a + 4)) ∧
        (∀ b, b ≠ a + 4 → Cells.look t.capHi b = Cells.look s.capHi b) ∧ t = { s with out := t.out, capHi := t.capHi }) ∧
    (s.unitUp a = true → row.roHi = true → ∀ h, Cells.look s.capHi a = some h →
      exec (.pairLoRead ⟨r, a, 1, .good⟩) s = .next (s.emit (.read r a h))) ∧
    (s.unitUp a = false → exec (.rcRead ⟨r, a, 1, .good⟩) s = .next (s.emit (.read r a 0)) ∧
      exec (.pairLoRead ⟨r, a, 1, .good⟩) s = .next (s.emit (.read r a 0)))
  ) ∧
  (
  ∀ (s : State) (dws : Nat), s.cur.aux = true →
    (∃ t, exec (.bar0MalformedRead dws) s = .next t ∧ t.out = .completion 0 .success (zeros (4 * dws)) :: s.out ∧
      t.rbit Reg.glbStatus 7 = true ∧ regsBut [Reg.glbStatus] s t ∧ sameButRegs s t) ∧
    (∀ r a, exec (.rcRead ⟨r, a, dws, .holed⟩) s = exec (.bar0MalformedRead dws) s ∧
      (16 < dws → exec (.rcRead ⟨r, a, dws, .good⟩) s = exec (.bar0MalformedRead dws) s))
  )

/-- R10, R11, R369, R373: a write of a single register without an action gives each RW field its bits and clears the W1C
bits written 1, but for those that the device has set in the same tick; its RWS fields take theirs at once outside a
transaction, unless Table 14.7 refuses the value (TXN_REFUSED, and CFG-07 is raised), and become a shadow in an open
one. The write of a unit that does not answer is discarded. A TLP of up to 16 DW writes consecutive registers in
ascending address; a longer one, or one with a byte enable clear, is discarded and sets GLB_STATUS.BAR0_PARTIAL (R426);
a poisoned one is counted and reported (R430). The model's choices in it: log entries 98, 115. -/
def Obligations.RegisterWrite : Prop :=
  ∀ (s : State) (r : Requester) (a : Nat) (v : Word) (row : RegRow),
    a % 4 = 0 → a < 2 ^ 26 → regRow a = some row → row.half = .single → inStn a = false → inPrt a = false →
    a ∉ [Reg.htCtrl, Reg.htParent, Reg.htTsyncPeriod] → s.domainAction r a v = none →
    let gets (mask : Word) : Word :=
      (((s.rg a &&& ~~~mask) ||| (v &&& mask)) &&& ~~~(row.w1c &&& v)) ||| (s.since a &&& (row.w1c &&& v))
    (s.unitUp a = false → exec (.registerWrite r a ⟨[v], .good⟩) s = .next s) ∧
    (s.unitUp a = true → ((s.txn r).st = .none ∨ (s.txn r).st = .armed) → (row.rws = 0 ∨ s.entriesOk [(a, v)] = true) →
      ∃ t, exec (.registerWrite r a ⟨[v], .good⟩) s = .next t ∧ t.rg a = gets (row.rw ||| row.rws) ∧
        regsBut [a] s t ∧ t = { s with regs := t.regs, evts := t.evts, cat := t.cat }) ∧
    (s.unitUp a = true → ((s.txn r).st = .none ∨ (s.txn r).st = .armed) → row.rws ≠ 0 → s.entriesOk [(a, v)] = false →
      a ≠ Reg.txnRefused → ¬ reportReg a →
      ∃ t, exec (.registerWrite r a ⟨[v], .good⟩) s = .next t ∧ t.rg a = gets row.rw ∧
        (t.rg Reg.txnRefused).toNat = min 0xFFFFFFFF ((s.rg Reg.txnRefused).toNat + 1) ∧ posted ⟨.cfg, 7⟩ uDevice s t ∧
        regsButReports [a, Reg.txnRefused] s t ∧ t = { s with regs := t.regs, evts := t.evts, cat := t.cat }) ∧
    (s.unitUp a = true → (s.txn r).st = .open_ → (s.txn r).entries.length < 4096 →
      (∀ e ∈ (s.txn r).entries, e.1 ≠ a) →
      ∃ t, exec (.registerWrite r a ⟨[v], .good⟩) s = .next t ∧ t.rg a = gets row.rw ∧
        (t.txn r).entries = (if row.rws ≠ 0 then (s.txn r).entries ++ [(a, v)] else (s.txn r).entries) ∧
        (t.txn r).st = .open_ ∧ t.txn (otherOf r) = s.txn (otherOf r) ∧ regsBut [a] s t) ∧
    (∀ vs t, vs ≠ [] → vs.length < 16 → exec (.registerWrite r a ⟨[v], .good⟩) s = .next t →
      exec (.registerWrite r a ⟨v :: vs, .good⟩) s = exec (.registerWrite r (a + 4) ⟨vs, .good⟩) t) ∧
    (∀ vs tlp, s.cur.aux = true → (tlp = .holed ∨ (tlp = .good ∧ 16 < vs.length)) →
      ∃ t, exec (.registerWrite r a ⟨vs, tlp⟩) s = .next t ∧ t.rbit Reg.glbStatus 7 = true ∧ regsBut [Reg.glbStatus] s t ∧
        t = { s with regs := t.regs, evts := t.evts }) ∧
    (∀ vs, s.cur.aux = true → ∃ t, exec (.registerWrite r a ⟨vs, .poisoned⟩) s = .next t ∧
      t.rf Reg.glbPcieErr 0 16 = min 0xFFFF (s.rf Reg.glbPcieErr 0 16 + 1) ∧ bitOf t.pcie.aer 12 = true ∧
      t.out = (if bitOf s.pcie.amask 12 then s.out else .poisonedTlp :: s.out) ∧ regsBut [Reg.glbPcieErr] s t ∧
      t = { s with regs := t.regs, evts := t.evts, out := t.out, pcie := t.pcie })

/-- R72: while a station is idle, halted or fenced, a word that the host writes into the window of its program memory
stands there, and no other byte of program memory changes; while it runs, the write is ignored. -/
def Obligations.ProgramMemoryWrites : Prop :=
  ∀ (s : State) (n : StnId) (o : Nat) (v : Word), s.cur.regOn = true → s.stnUp n = true → o % 4 = 0 →
    ((0x10000 ≤ o ∧ o < 0x18000) ∨ (0x20000 ≤ o ∧ o < 0x30000)) →
    let a := stnBase n + o
    let asAt_ := o - 0x10000
    let xsAt := o - 0x20000 + s.rf (Reg.stnXsPage n.val) 0 1 * 0x10000
    ((s.st n).st = .running → ∀ r, exec (.registerWrite r a ⟨[v], .good⟩) s = .next s) ∧
    ((s.st n).st ≠ .running → ∀ r, ∃ t, exec (.registerWrite r a ⟨[v], .good⟩) s = .next t ∧ t = { s with stn := t.stn } ∧
      stnsBut n s t ∧ t.st n = { s.st n with asMem := (t.st n).asMem, xsMem := (t.st n).xsMem } ∧
      (o < 0x18000 → (t.st n).xsMem = (s.st n).xsMem ∧ ∀ i, Cells.get zeroByte (t.st n).asMem i =
        if asAt_ ≤ i ∧ i < asAt_ + 4 then nth (toLE 4 v.toNat) (i - asAt_) 0 else Cells.get zeroByte (s.st n).asMem i) ∧
      (0x20000 ≤ o → (t.st n).asMem = (s.st n).asMem ∧ ∀ i, Cells.get zeroByte (t.st n).xsMem i =
        if xsAt ≤ i ∧ i < xsAt + 4 then nth (toLE 4 v.toNat) (i - xsAt) 0 else Cells.get zeroByte (s.st n).xsMem i))

/-- R427, R430, R340: a BAR2 read takes its data as the accesses of its requester come, and completes with them, oldest
first; a poisoned request, or one while the stacks are not up, completes with an error; a write puts its bytes at the
aperture (the order of accesses of different requesters is log entry 132). R428: FetchAdd, Swap and CAS replace the
aligned 32-bit or 64-bit word at the aperture and return its old value; no other byte of DRAM changes; an operand that
is not aligned, or of 128 bits, and an AtomicOp of another BAR complete as unsupported. The model's choices in it: log
entries 17, 40, 41, 96, 132. -/
def Obligations.DramApertureAndAtomics : Prop :=
  (
  ∀ (s : State), s.cur.aux = true →
    (∀ off len, off + len ≤ 2 ^ 36 →
      (s.ringUp = true → dramClean s (s.aperture off) len → ∃ t, exec (.bar2Read off len .good) s = .next t ∧
        t.bar2 = s.bar2 ++ [⟨some (Cells.read zeroByte s.dram (s.aperture off) len)⟩] ∧
        t = { s with bar2 := t.bar2, stk := t.stk }) ∧
      (s.ringUp = false → exec (.bar2Read off len .good) s = .next (s.emit (.completion 2 .completerAbort []))) ∧
      (∃ t, exec (.bar2Read off len .poisoned) s = .next t ∧ t.bar2 = s.bar2 ∧
        t.out = .completion 2 .unsupported [] :: (if bitOf s.pcie.amask 12 then s.out else .poisonedTlp :: s.out) ∧
        bitOf t.pcie.aer 12 = true ∧ t.rf Reg.glbPcieErr 0 16 = min 0xFFFF (s.rf Reg.glbPcieErr 0 16 + 1))) ∧
    (∀ b rest bs, s.bar2 = b :: rest → b.data = some bs → s.ringUp = true →
      exec .bar2ReadComplete s = .next { s with bar2 := rest, out := .completion 2 .success bs :: s.out }) ∧
    (∀ b rest, s.bar2 = b :: rest → (b.data = none ∨ s.ringUp = false) →
      exec .bar2ReadComplete s = .next { s with bar2 := rest, out := .completion 2 .completerAbort [] :: s.out }) ∧
    (∀ off bytes, off + bytes.length ≤ 2 ^ 36 → s.ringUp = true → dramClean s (s.aperture off) bytes.length →
      ∃ t, exec (.bar2Write off bytes .good) s = .next t ∧
        (∀ a, dramByte t a = if s.aperture off ≤ a ∧ a < s.aperture off + bytes.length
          then nth bytes (a - s.aperture off) 0 else dramByte s a) ∧
        t.out = s.out ∧ t.stn = s.stn ∧ t.prt = s.prt ∧ t.flash = s.flash)
  ) ∧
  (
  ∀ (s : State) (off : Nat) (w : AtomicWidth) (v cmp : DWord), s.cur.aux = true → off + atomicBytes w ≤ 2 ^ 36 →
    let n := atomicBytes w
    let o := s.aperture off
    let old := ofLE (Cells.read zeroByte s.dram o n)
    let does (new : Nat) (c : Instr) : Prop := ∃ t, exec c s = .next t ∧
      t.out = .completion 2 .success (Cells.read zeroByte s.dram o n) :: s.out ∧
      (∀ i, i < n → dramByte t (o + i) = BitVec.ofNat 8 (new / 256 ^ i)) ∧
      (∀ a, (a < o ∨ o + n ≤ a) → dramByte t a = dramByte s a) ∧ t.stn = s.stn ∧ t.prt = s.prt
    let refused (bar : Bar) : Prop :=
      exec (.bar2Fetchadd ⟨bar, off, .good⟩ w v) s = .next (s.emit (.completion (barNum bar) .unsupported [])) ∧
      exec (.bar2Swap ⟨bar, off, .good⟩ w v) s = .next (s.emit (.completion (barNum bar) .unsupported [])) ∧
      exec (.bar2Cas ⟨bar, off, .good⟩ w cmp v) s = .next (s.emit (.completion (barNum bar) .unsupported []))
    (w ≠ .w128 → off % n = 0 → s.ringUp = true → s.badAt o = 0 →
      does (old + v.toNat) (.bar2Fetchadd ⟨.bar2, off, .good⟩ w v) ∧ does v.toNat (.bar2Swap ⟨.bar2, off, .good⟩ w v) ∧
      does (if old = cmp.toNat % 256 ^ n then v.toNat else old) (.bar2Cas ⟨.bar2, off, .good⟩ w cmp v)) ∧
    ((w = .w128 ∨ off % n ≠ 0) → refused .bar2) ∧ refused .bar0 ∧ refused .bar4
  )

/-- R429: BAR4 shows the Vitrine of the station that GLB_VIT_SEL selects for the half: a read returns its bytes, a read
across both halves those of both stations, of an unpowered station Completer Abort; a write reaches the program region
only, and bytes beyond it are discarded and counted once. The model's choices in it: log entries 17, 41, 97. -/
def Obligations.Bar4ReadsAndWrites : Prop :=
  ∀ (s : State) (off : Nat), s.cur.aux = true →
    let n := s.vitStn off
    let o := off % 2 ^ 23
    (∀ len, off + len ≤ 2 ^ 24 → (off + len ≤ 2 ^ 23 ∨ 2 ^ 23 ≤ off) → s.vitUp n = true → vitClean s n o len →
      exec (.bar4Read off len .good) s = .next (s.emit (.completion 4 .success (Cells.read zeroByte (s.st n).vit o len)))) ∧
    (∀ len, off + len ≤ 2 ^ 24 → off < 2 ^ 23 → 2 ^ 23 < off + len → s.vitUp n = true → s.vitUp (s.vitStn (2 ^ 23)) = true →
      vitClean s n off (2 ^ 23 - off) → vitClean s (s.vitStn (2 ^ 23)) 0 (off + len - 2 ^ 23) →
      exec (.bar4Read off len .good) s = .next (s.emit (.completion 4 .success
        (Cells.read zeroByte (s.st n).vit off (2 ^ 23 - off) ++
          Cells.read zeroByte (s.st (s.vitStn (2 ^ 23))).vit 0 (off + len - 2 ^ 23))))) ∧
    (∀ len, off + len ≤ 2 ^ 24 → (off + len ≤ 2 ^ 23 ∨ 2 ^ 23 ≤ off) → s.vitUp n = false →
      exec (.bar4Read off len .good) s = .next (s.emit (.completion 4 .completerAbort []))) ∧
    (∀ bytes, off + bytes.length ≤ 2 ^ 24 → (off + bytes.length ≤ 2 ^ 23 ∨ 2 ^ 23 ≤ off) → s.vitUp n = true →
      vitClean s n o bytes.length →
      ∃ t, exec (.bar4Write off bytes .good) s = .next t ∧
        (∀ m a, vitByte t m a = if m = n ∧ o ≤ a ∧ a < o + bytes.length ∧ a < (s.st n).lay.prog * 65536
          then nth bytes (a - o) 0 else vitByte s m a) ∧
        (t.rf Reg.glbPcieErr 16 16 = if (s.st n).lay.prog * 65536 < o + bytes.length ∧ bytes ≠ []
          then min 0xFFFF (s.rf Reg.glbPcieErr 16 16 + 1) else s.rf Reg.glbPcieErr 16 16) ∧
        regsBut [Reg.glbPcieErr] s t ∧ t = { s with regs := t.regs, evts := t.evts, stn := t.stn })

/-- R343: the oldest lock of a stack that has been held for more than MEM_HOLD_MAX cycles from its first grant, a limit
of at least 8, ends; MEM_HOLD_CUTS counts, MEM_HOLD_WHO names the requester, HOLD_CUT is set and MEM-04 posted; a BAR2
request completes with Completer Abort, the Curator's mailbox command ends with status 4, the persist path does nothing
else. With no lock held so long nothing happens. R347, R348, R352: a patrol scrub step reads the next unit of every
pseudo-channel of its stack, a Vitrine scrub step one line: a word of one or two bad bits is counted as corrected, a
worse one as uncorrectable, and no bit changes yet. A unit whose bad words can all be corrected, a line with any bad
word, waits for its write-back, which the stack or the station makes at the tick; a write-back takes the correctable bad
bits away. An uncorrectable word of Vitrine or of the ingress buffer halts the station with MEM-02. A step of the patrol
scrub takes a cycle of each pseudo-channel, the next that no locked sequence has; a pass is 37,748,736 units. The
model's choices in it: log entries 37, 40, 132. -/
def Obligations.LocksAndScrubs : Prop :=
  (
  ∀ (s : State) (k : StackId),
    let tooLong (h : MemLock) : Bool := decide (h.since + max 8 (s.rf (Reg.memHoldMax k.val) 0 16) < s.ctlCycle)
    ((∀ h ∈ (s.sk k).locks, tooLong h = false) → exec (.lockHoldCutoff k) s = .next s) ∧
    (∀ h, (s.sk k).locks.find? tooLong = some h → ∃ t, exec (.lockHoldCutoff k) s = .next t ∧
      (t.rg (Reg.memHoldCuts k.val)).toNat = min 0xFFFFFFFF ((s.rg (Reg.memHoldCuts k.val)).toNat + 1) ∧
      t.rg (Reg.memHoldWho k.val) = word h.who.index ∧ t.rbit (Reg.memStatus k.val) 3 = true ∧
      posted ⟨.mem, 4⟩ (uStack k) s t ∧ t.sk k = { s.sk k with locks := (s.sk k).locks.erase h } ∧
      (∀ j, j ≠ k → t.sk j = s.sk j) ∧
      (h.who = .aperture → t.out.head? = some (.completion 2 .completerAbort [])) ∧
      t.cur = { s.cur with mail :=
        if h.who = .curator then s.cur.mail.map (fun m => if m.done.isNone then { m with done := some (4, []) } else m)
        else s.cur.mail } ∧
      regsButReports [Reg.memHoldCuts k.val, Reg.memHoldWho k.val, Reg.memStatus k.val] s t ∧
      t = { s with regs := t.regs, evts := t.evts, out := t.out, cat := t.cat, stk := t.stk, cur := t.cur })
  ) ∧
  (
  (∀ (s : State) (k : StackId), s.rbit (Reg.memScrubCtrl k.val) 0 = true → (s.sk k).lost = false → (s.sk k).locks = [] →
    let u := (s.sk k).scrub
    let units := (List.range 32).map (fun c => unitAddr c u)
    let wordsIn (a : Nat) := (List.range 8).map (fun i => wordKey k (a + 8 * i))
    let keys := units.flatMap wordsIn
    let bad (x : Nat) := Cells.get zeroNat s.dramBad x
    ∃ t, exec (.dramScrubStep k) s = .next t ∧
      (t.rg (Reg.memCeCnt k.val)).toNat = min 0xFFFFFFFF
        ((s.rg (Reg.memCeCnt k.val)).toNat + (keys.filter (fun x => decide (1 ≤ bad x ∧ bad x ≤ 2))).length) ∧
      (t.rg (Reg.memUeCnt k.val)).toNat = min 0xFFFFFFFF
        ((s.rg (Reg.memUeCnt k.val)).toNat + (keys.filter (fun x => decide (3 ≤ bad x))).length) ∧
      t.sk k = { s.sk k with
        scrub := if u + 1 = 37748736 then 0 else u + 1
        back := (s.sk k).back ++ units.filter (fun a =>
          (wordsIn a).any (fun x => bad x != 0) && (wordsIn a).all (fun x => decide (bad x ≤ 2)))
        spans := (s.sk k).spans ++ (List.range 32).map (fun c =>
          ⟨c, (s.sk k).freeFrom c s.ctlCycle, (s.sk k).freeFrom c s.ctlCycle + 1⟩) } ∧
      (∀ j, j ≠ k → t.sk j = s.sk j) ∧
      t.rg (Reg.memScrubPass k.val) = s.rg (Reg.memScrubPass k.val) + (if u + 1 = 37748736 then 1 else 0) ∧
      regsButReports [Reg.memCeCnt k.val, Reg.memUeCnt k.val, Reg.memUeAddrLo k.val, Reg.memUeAddrHi k.val,
        Reg.memStatus k.val, Reg.memScrubPass k.val] s t ∧
      t = { s with regs := t.regs, evts := t.evts, out := t.out, cat := t.cat, stk := t.stk }) ∧
  (∀ (s : State) (k : StackId) (x : Nat), (s.sk k).late = [] →
    let back : Prop := ∃ a ∈ (s.sk k).back, ∃ i < 8, x = wordKey k (a + 8 * i)
    (back → Cells.get zeroNat (s.scrubTick k).dramBad x = 0) ∧
    (¬ back → Cells.get zeroNat (s.scrubTick k).dramBad x = Cells.get zeroNat s.dramBad x)) ∧
  (∀ (s : State) (n : StnId) (line : Nat), s.rbit (Reg.stnVitScrub n.val) 0 = true → (s.st n).powered = true → line < 98304 →
    let mem := if line < 65536 then 0 else 1
    let bad (i : Nat) := (s.st n).badIn mem (128 * (line % 65536) + 8 * i)
    ∃ t, exec (.vitrineScrubStep n line) s = .next t ∧
      (t.rg (Reg.stnVitCe n.val)).toNat = min 0xFFFFFFFF ((s.rg (Reg.stnVitCe n.val)).toNat +
        ((List.range 16).filter (fun i => decide (1 ≤ bad i ∧ bad i ≤ 2))).length) ∧
      (t.rg (Reg.stnVitUe n.val)).toNat = min 0xFFFFFFFF ((s.rg (Reg.stnVitUe n.val)).toNat +
        ((List.range 16).filter (fun i => decide (3 ≤ bad i))).length) ∧
      (t.st n).scrubAt = (if line = 98303 then 0 else line + 1) ∧
      ((∀ i, i < 16 → bad i ≤ 2) →
        t.st n = { s.st n with
          scrubAt := (t.st n).scrubAt
          vitBack := if (List.range 16).any (fun i => bad i != 0) then (s.st n).vitBack ++ [line] else (s.st n).vitBack } ∧
        stnsBut n s t ∧ regsButReports [Reg.stnVitCe n.val] s t ∧
        t = { s with regs := t.regs, evts := t.evts, out := t.out, cat := t.cat, stn := t.stn }) ∧
      ((∃ i < 16, 3 ≤ bad i) → ((t.st n).st = .halted ∨ (t.st n).st = .fenced) ∧ (t.st n).as.pc = (s.st n).as.pc ∧
        raised ⟨.mem, 2⟩ (uStn n) s t)) ∧
  (∀ (x : Stn) (line k : Nat), line < 65536 →
    Cells.get zeroNat (x.lineBack line).vitBad k =
      if k / 16 = line ∧ Cells.get zeroNat x.vitBad k ≤ 2 then 0 else Cells.get zeroNat x.vitBad k)
  )

/-- R402, R403, R407, R414: the Curator takes the oldest queued event, once no Fenced or Fatal event waits: it counts in
the open record of its key or opens one with the next SEQ. A Fenced or Fatal event has its record first, sealed at once,
sets CUR_EVENT.CATALOGUE and starts a copy. A frozen Catalogue discards and counts the event instead. The model's
choices in it: log entries 91, 105. -/
def Obligations.EventsBecomeRecords : Prop :=
  ∀ (s : State) (e : Event) (rest : List Event), s.curReady = true →
    let opened (follow sealed : Bool) (t : State) : Prop := ∃ r : CatRec,
      t.cat.recs = (s.cat.recs ++ [r]).drop (s.cat.recs.length + 1 - 4096) ∧ r.seq = s.cat.next ∧ r.isOpen = !sealed ∧
      r.follow = follow ∧ r.code = e.code ∧ r.cls = e.cls ∧ r.unit = e.unit ∧ r.epoch = s.epochOf e.ht ∧ r.inRing = false ∧
      r.words.length = 16 ∧ nth r.words 0 0 = word e.ht.toNat ∧ nth r.words 1 0 = word (e.ht.toNat / 2 ^ 32) ∧
      nth r.words 2 0 = s.cat.next ∧ nth r.words 5 0 = 1 ∧ nth r.words 6 0 = 0 ∧ nth r.words 7 0 = e.step ∧
      nth r.words 15 0 = (if sealed then 0xA5000000 else 0) ∧ t.cat.next = s.cat.next + 1 ∧ t.cat.gap = false
    let counted (l : List Word) : List Word :=
      let since := e.ht.toNat - ((nth l 0 0).toNat + (nth l 1 0).toNat * 2 ^ 32)
      (l.set 5 (word (min 0xFFFFFFFF ((nth l 5 0).toNat + 1)))).set 6 (word (min 0xFFFFFFFF since))
    (s.cat.urgent = [] → s.cat.queue = e :: rest → s.rbit Reg.catCtrl 0 = false →
      (s.cat.recs.find? (fun r => r.isOpen && !r.follow && s.sameKey e r) = none →
        ∃ t, exec .catalogueEventTake s = .next t ∧ opened false false t ∧ t.cat.queue = rest ∧ t = { s with cat := t.cat }) ∧
      (∀ r0, s.cat.recs.find? (fun r => r.isOpen && !r.follow && s.sameKey e r) = some r0 →
        ∃ t, exec .catalogueEventTake s = .next t ∧ t.cat.queue = rest ∧ t.cat.next = s.cat.next ∧
          t.cat.recs = s.cat.recs.map (fun x => if x.seq = r0.seq then
            { x with words := counted x.words } else x) ∧
          t = { s with cat := t.cat })) ∧
    (s.cat.urgent = [] → s.cat.queue = e :: rest → s.rbit Reg.catCtrl 0 = true → e.cls ≠ .fenced → e.cls ≠ .fatal →
      ∃ t, exec .catalogueEventTake s = .next t ∧ t.cat = { s.cat with queue := rest } ∧
        (t.rg Reg.catFrozenCnt).toNat = min 0xFFFFFFFF ((s.rg Reg.catFrozenCnt).toNat + 1) ∧
        regsBut [Reg.catFrozenCnt] s t ∧ t = { s with regs := t.regs, evts := t.evts, cat := t.cat }) ∧
    (s.cat.urgent = e :: rest → s.rbit Reg.catCtrl 0 = false → s.cat.recs.any (fun r => !r.follow && s.sameKey e r) = false →
      s.cat.copying = none →
      ∃ t, exec .fencedEventRecord s = .next t ∧ opened false true t ∧ t.cat.urgent = rest ∧ t.cat.queue = s.cat.queue ∧
        t.rbit Reg.curEvent 3 = true ∧ (e.cls = .fenced → t.cat.fltFenced = true) ∧
        (∃ c, t.cat.copying = some c ∧ c.trigger = s.cat.next ∧ c.frozen = false ∧ c.ht = s.ht) ∧
        regsButInt [Reg.curEvent] s t ∧
        t = { s with regs := t.regs, evts := t.evts, out := t.out, cat := t.cat, flash := t.flash })

/-- R407, R406: the new epoch's first tick seals the open records of earlier epochs; the persist path writes a sealed
record to its slot of the DRAM ring as one locked sequence of six grants, where the hold limit allows them, its byte 63
being 0xA5 last, and to no other byte. R412: CAT_FLUSH starts a copy to the next slot of the flash and erases its
directory entry, or waits for the copy under way; a copy that completes writes its directory entry with the seal, names
its slot in CAT_COPY_LAST, and touches no other byte of the flash than its slot and its entry. The model's choices in
it: log entries 40, 92. -/
def Obligations.RecordsPersistAndCopy : Prop :=
  (
  (∀ s : State, s.curReady = true → ∃ t, exec .epochSeal s = .next t ∧ t = { s with cat := { s.cat with recs := t.cat.recs } } ∧
    t.cat.recs = s.cat.recs.map (fun r => if r.isOpen = true ∧ r.epoch ≠ s.epochOf s.ht
      then { r with isOpen := false, words := r.words.set 15 0xA5000000 } else r)) ∧
  (∀ (s : State) (r : CatRec), s.atMultiple 1250000 = true → s.curReady = true → s.ringUp = true →
    s.cat.recs.filter (fun x => !x.isOpen && !x.inRing) = [r] → r.words.length = 16 →
    let o := (s.rg64 Reg.catRingLo).toNat % 2 ^ 40 + r.seq.toNat % 65536 * 64
    dramClean s o 64 → o % 64 = 0 → s.inHold (s.loc o).stack 5 = true →
    ∃ t, exec .cataloguePersistFlush s = .next t ∧
      (∀ i, i < 63 → dramByte t (o + i) = nth (wordsToBytes r.words) i 0) ∧ dramByte t (o + 63) = 0xA5 ∧
      (∀ a, (a < o ∨ o + 64 ≤ a) → dramByte t a = dramByte s a) ∧
      t.cat = { s.cat with recs := s.cat.recs.map (fun x => if x.seq = r.seq then { x with inRing := true } else x) } ∧
      t.out = s.out ∧ t.stn = s.stn ∧ t.prt = s.prt ∧ t.flash = s.flash ∧
      (∀ a, (∀ k, a ≠ Reg.memGrants k 10 ∧ a ≠ Reg.memWaitMax k 10) → t.rg a = s.rg a))
  ) ∧
  (
  (∀ (s : State) (m : Mail), s.curReady = true → s.cur.mail = some m → m.op = 0x50 → m.done = none →
    (s.cat.copying = none → s.cat.waiting = none → ∃ t c, exec .catFlush s = .next t ∧ t.cat.copying = some c ∧ c.trigger = 0xFFFFFFFF ∧
      c.flush = true ∧ c.ht = s.ht ∧ c.head = s.cat.next ∧ c.frozen = s.rbit Reg.catCtrl 0 ∧
      (∀ a, flashByte t a = if 0x0FC00000 + 64 * (s.cat.slot % 23) ≤ a ∧ a < 0x0FC00000 + 64 * (s.cat.slot % 23) + 64
        then 0 else flashByte s a) ∧
      t = { s with flash := t.flash, cat := { s.cat with copying := some c } }) ∧
    (∀ c, s.cat.copying = some c → c.flush = false → s.cat.waiting = none → ∃ t w, exec .catFlush s = .next t ∧
      t.cat.waiting = some w ∧ w.flush = true ∧ t = { s with cat := { s.cat with waiting := some w } })) ∧
  (∀ (s : State) (c : CatCopy), s.curReady = true → s.cat.copying = some c → s.cat.waiting = none → s.cat.fltFatal = false →
    s.ringUp = false → (∀ r ∈ s.cat.recs, r.words.length = 16) →
    let k := s.cat.slot % 23
    ∃ t, exec .flashCopyComplete s = .next t ∧ t.cat = { s.cat with copying := none, slot := (k + 1) % 23 } ∧
      t.rg Reg.catCopyLast = word (k + 2 ^ 5 + (if c.frozen then 2 ^ 6 else 0)) ∧ regsBut [Reg.catCopyLast] s t ∧
      ofLE (Cells.read zeroByte t.flash (0x0FC00000 + 64 * k) 4) = 0x54414343 ∧
      ofLE (Cells.read zeroByte t.flash (0x0FC00000 + 64 * k + 16) 8) = c.ht.toNat ∧
      ofLE (Cells.read zeroByte t.flash (0x0FC00000 + 64 * k + 24) 4) = c.trigger.toNat ∧
      ofLE (Cells.read zeroByte t.flash (0x0FC00000 + 64 * k + 60) 4) = 0xA5000000 ∧
      (∀ a, (a < 0x0A000000 + k * 0x400000 ∨ 0x0A000000 + (k + 1) * 0x400000 ≤ a) →
        (a < 0x0FC00000 + 64 * k ∨ 0x0FC00000 + 64 * k + 64 ≤ a) → flashByte t a = flashByte s a) ∧
      (∀ m, s.cur.mail = some m → c.flush = true → ∃ l, t.cur.mail = some { m with done := some (0, l) }) ∧
      (c.flush = false → t.cur = s.cur) ∧
      t = { s with regs := t.regs, evts := t.evts, free := t.free, cat := t.cat, cur := t.cur, flash := t.flash })
  )

/-- R413, R414: a freeze seals every open record; its end, by the host or after CAT_FREEZE_MAX ms with LAPSED, marks the
next record; a read of CAT_WINDOW0 captures the newest record of the slot that CAT_CURSOR selects, and one of
CAT_WINDOW15 advances the cursor by 1 modulo 2^16 when AUTOINC is set. R417: a write of CAT_COND_CLR clears the score
and the bits of the unit it names and no other register. The model's choices in it: log entries 91, 93, 94. -/
def Obligations.CatalogueFreezeWindowAndClear : Prop :=
  (
  ∀ s : State,
    let frozen := s.rbit Reg.catCtrl 0 = true
    let thawed (t : State) : Prop := t.rbit Reg.catCtrl 0 = false ∧ t.cat = { s.cat with freezeAt := none, gap := true }
    (¬ frozen → ∃ t, exec .catalogueFreeze s = .next t ∧ t.rbit Reg.catCtrl 0 = true ∧ t.cat.freezeAt = some s.ht ∧
      t.cat.recs = s.cat.recs.map (fun r => if r.isOpen then { r with isOpen := false, words := r.words.set 15 0xA5000000 } else r) ∧
      t.cat = { s.cat with recs := t.cat.recs, freezeAt := some s.ht } ∧
      regsBut [Reg.catCtrl] s t ∧ t = { s with regs := t.regs, evts := t.evts, cat := t.cat }) ∧
    (frozen → exec .catalogueFreeze s = .next s) ∧
    (frozen → ∃ t, exec .catalogueUnfreeze s = .next t ∧ thawed t ∧ regsBut [Reg.catCtrl] s t ∧
      t = { s with regs := t.regs, evts := t.evts, cat := t.cat }) ∧
    (∀ t0, s.cat.freezeAt = some t0 → frozen → t0.toNat + max 1 (s.rf Reg.catFreezeMax 0 16) * 1250000 ≤ s.ht.toNat →
      ∃ t, exec .freezeLapse s = .next t ∧ thawed t ∧ t.rbit Reg.catStatus 3 = true ∧
        regsBut [Reg.catCtrl, Reg.catStatus] s t ∧ t = { s with regs := t.regs, evts := t.evts, cat := t.cat }) ∧
    (∀ r, (s.cat.recs.filter (fun x => x.seq.toNat % 65536 = s.rf Reg.catCursor 0 16)).getLast? = some r →
      ∃ t, exec .catWindowCapture s = .next t ∧ t.cat = { s.cat with window := r.words } ∧
        t.out = .read .host (Reg.catWindow 0) (nth r.words 0 0) :: s.out ∧ t = { s with out := t.out, cat := t.cat }) ∧
    (∃ t, exec .catWindowAdvance s = .next t ∧ t.out = .read .host (Reg.catWindow 15) (nth s.cat.window 15 0) :: s.out ∧
      t.rf Reg.catCursor 0 16 = (if s.rbit Reg.catCtrl 1 then (s.rf Reg.catCursor 0 16 + 1) % 65536 else s.rf Reg.catCursor 0 16) ∧
      regsBut [Reg.catCursor] s t ∧ sameButRegs s t)
  ) ∧
  (
  ∀ (s : State) (v : Word), ∃ t, exec (.catCondClr v) s = .next t ∧ t = { s with regs := t.regs, evts := t.evts } ∧
    let i := fld v 4 7
    let clears (a : Nat) : Prop := t.rg a = 0 ∧ regsBut [a] s t
    (fld v 0 4 = 1 → i < 64 → clears (Reg.catCondStn i)) ∧ (fld v 0 4 = 2 → clears (Reg.catCondPrt i)) ∧
    (fld v 0 4 = 4 → i < 8 → clears (Reg.catCondMem i)) ∧ (fld v 0 4 = 5 → i < 16 → clears (Reg.catCondOpt i))
  )

/-- R416: once a second every condition score loses its 2^S-th part, rounded down, with S of CAT_COND_CTRL (8 to 15),
and WATCH clears below half of its threshold; no other register changes. The model's choices in it: log entry 94. -/
def Obligations.ScoresDecay : Prop :=
  ∀ s : State,
    let shift := clamp 8 15 (s.rf Reg.catCondCtrl 0 4)
    let decays (a : Nat) (t : State) : Prop := t.rf a 0 16 = s.rf a 0 16 - s.rf a 0 16 / 2 ^ shift ∧
      (s.rf a 0 16 ≠ 0 → t.rbit a 16 =
        (s.rbit a 16 && !decide (2 * (s.rf a 0 16 - s.rf a 0 16 / 2 ^ shift) < s.rf Reg.catCondWatch 0 16)))
    s.atMultiple 1250000000 = true → s.curReady = true →
      (∀ p : PortId, Cells.get zeroNat s.cat.fecRest p.val + Cells.get zeroNat s.cat.fecNow p.val < 65536) →
      ∃ t, exec .scoreDecay s = .next t ∧ (∀ n, n < 64 → decays (Reg.catCondStn n) t) ∧
        (∀ p, p < 128 → decays (Reg.catCondPrt p) t) ∧ (∀ k, k < 8 → decays (Reg.catCondMem k) t) ∧
        (∀ o, o < 16 → decays (Reg.catCondOpt o) t) ∧
        (∀ a, (a < Reg.catCondStn 0 ∨ Reg.catCondOpt 16 ≤ a) → t.rg a = s.rg a) ∧
        t = { s with regs := t.regs, evts := t.evts, cat := t.cat }

/-- Table 15.1: a mailbox command that waits to be performed is performed: ECHO returns its arguments, INFO the serial,
the firmware version, the copy and the milliseconds since the reset release of stage 1; FLASH_READ, MIRROR_READ and
ATTEST put their bytes into DRAM and nothing else there, as locked sequences that the hold limit allows; an argument out
of range ends with status 2, an error of the flash device, which is a free value (log entry 95), with status 6. The
command's result waits for its completion. R380: a performed mailbox command completes: CUR_RSP holds its status, TAG,
response length and DONE, the response words follow, CUR_EVENT.DONE and its vector are set, and the mailbox is free; a
reserved opcode completes with status 1. R72, R380: STN_PROG puts its bytes from DRAM into a program memory of a station
that does not run and gives its staging block of pool 4 back, and changes no other byte of program memory; on a station
that runs it ends with status 3. The model's choices in it: log entries 6, 28, 95. -/
def Obligations.MailboxCommandsAndCompletion : Prop :=
  (
  ∀ (s : State) (m : Mail), s.cur.mail = some m → s.curReady = true → m.done = none →
    let done (st : Nat) (rsp : List Word) (t : State) : Prop := t.cur.mail = some { m with done := some (st, rsp) }
    let room (len : Nat) : Prop := s.ringUp = true ∧ ∀ k, s.inHold k (len / 32 + 4) = true
    let put (d : Nat) (bs : List Byte) (t : State) : Prop :=
      (∀ a, dramByte t a = if d ≤ a ∧ a < d + bs.length then nth bs (a - d) 0 else dramByte s a) ∧
      t.stn = s.stn ∧ t.prt = s.prt ∧ t.flash = s.flash ∧ t.out = s.out ∧ t.cat = s.cat ∧
      (∀ a, (∀ k, a ≠ Reg.memGrants k 8 ∧ a ≠ Reg.memWaitMax k 8) → t.rg a = s.rg a)
    let d2 := (s.rg (Reg.curArg 2)).toNat + (s.rg (Reg.curArg 3)).toNat * 2 ^ 32
    let d0 := (s.rg (Reg.curArg 0)).toNat + (s.rg (Reg.curArg 1)).toNat * 2 ^ 32
    let d8 := (s.rg (Reg.curArg 8)).toNat + (s.rg (Reg.curArg 9)).toNat * 2 ^ 32
    let o := (s.rg (Reg.curArg 0)).toNat
    let n := (s.rg (Reg.curArg 1)).toNat
    let fits := o % 64 = 0 ∧ n % 64 = 0 ∧ d2 % 64 = 0 ∧ n ≤ 65536 ∧ o + n ≤ 0x10000000 ∧ d2 + n ≤ dramSize
    let k := min (s.rg (Reg.curArg 2)).toNat s.cur.mirrors.length
    let entries := ((s.cur.mirrors.take k).map Mirror.entry).flatten
    let nonce := wordsToBytes ((List.range 8).map (fun i => s.rg (Reg.curArg i)))
    let ms := (s.cycle - s.cur.relAt) / 1250000
    (m.op = 0x01 → ∃ t, exec .echo s = .next t ∧ done 0 ((List.range (min 64 m.argw)).map (fun i => s.rg (Reg.curArg i))) t ∧
      t = { s with cur := { s.cur with mail := t.cur.mail } }) ∧
    (m.op = 0x02 → ∃ t, exec .info s = .next t ∧
      done 0 [word Config.serial.toNat, word (Config.serial.toNat / 2 ^ 32), Config.firmwareVersion s.cur.fwCopy,
        word s.cur.fwCopy, word ms, word (ms / 2 ^ 32)] t ∧
      t = { s with cur := { s.cur with mail := t.cur.mail } }) ∧
    (m.op = 0x10 → fits → room n → dramClean s d2 n → ∃ t, exec .flashRead s = .next t ∧
      if (s.fresh 1).1 = 1 then done 6 [] t ∧ t = { (s.fresh 1).2 with cur := { s.cur with mail := t.cur.mail } }
      else done 0 [] t ∧ put d2 (s.flashRead o n) t) ∧
    (m.op = 0x10 → ¬ fits → ∃ t, exec .flashRead s = .next t ∧ done 2 [] t ∧
      t = { s with cur := { s.cur with mail := t.cur.mail } }) ∧
    (m.op = 0x20 → d0 + 320 * k ≤ dramSize → room entries.length → dramClean s d0 entries.length →
      ∃ t, exec .mirrorRead s = .next t ∧ done 0 [word k, word (s.cur.mirrors.length - k)] t ∧ put d0 entries t ∧
        t.cur.mirrors = s.cur.mirrors.drop k) ∧
    (m.op = 0x30 → d8 + 288 ≤ dramSize → room 288 → dramClean s d8 288 →
      ∃ t, exec .attest s = .next t ∧ done 0 [] t ∧ put d8 (s.report nonce) t)
  ) ∧
  (
  ∀ (s : State) (m : Mail), s.cur.mail = some m → s.curReady = true →
    let answered (st : Nat) (rsp : List Word) (t : State) : Prop :=
      t.rg Reg.curRsp = word (st + m.tag * 2 ^ 8 + min 64 rsp.length * 2 ^ 16 + 2 ^ 31) ∧
      (∀ i, i < 64 → t.rg (Reg.curRspWord i) = nth rsp i (s.rg (Reg.curRspWord i))) ∧
      t.rbit Reg.curEvent 0 = true ∧ t.cur = { s.cur with mail := none } ∧
      regsButInt (Reg.curRsp :: Reg.curEvent :: (List.range 64).map Reg.curRspWord) s t ∧
      t = { s with regs := t.regs, evts := t.evts, out := t.out, cur := t.cur }
    (∀ st rsp, m.done = some (st, rsp) → ∃ t, exec .mailboxComplete s = .next t ∧ answered st rsp t) ∧
    (m.done = none → m.op ∉ [0x01, 0x02, 0x10, 0x20, 0x30, 0x40, 0x50] →
      ∃ t, exec .mailboxComplete s = .next t ∧ answered 1 [] t) ∧
    (m.done = none → m.op ∈ [0x01, 0x02, 0x10, 0x20, 0x30, 0x40, 0x50] → exec .mailboxComplete s = .next s)
  ) ∧
  (
  ∀ (s : State) (m : Mail), s.cur.mail = some m → s.curReady = true → m.done = none → m.op = 0x40 →
    let arg (i : Nat) : Nat := (s.rg (Reg.curArg i)).toNat
    let n := stnId (arg 0)
    let d := arg 4 + arg 5 * 2 ^ 32
    arg 0 < 64 → arg 1 < 2 → arg 2 % 4 = 0 → arg 3 % 4 = 0 → arg 3 ≤ 65536 →
    arg 2 + arg 3 ≤ (if arg 1 = 0 then 0x8000 else 0x20000) → d + arg 3 ≤ dramSize →
    (s.stnUp n = true → (s.st n).st ≠ .running → s.ringUp = true → (s.st n).lay.count 4 ≠ 0 →
      ∀ b, 4 ∉ (s.st n).cyc.given → (s.st n).outranked s.ht 4 .curator 0 = false → (s.st n).lowestFree 4 = some b → dramClean s d (arg 3) →
      let bytes := Cells.read zeroByte s.dram d (arg 3)
      let holds (mem : Cells Byte) (before : Cells Byte) : Prop := ∀ a, Cells.get zeroByte mem a =
        if arg 2 ≤ a ∧ a < arg 2 + arg 3 then nth bytes (a - arg 2) 0 else Cells.get zeroByte before a
      ∃ t, exec .stnProg s = .next t ∧ t.cur.mail = some { m with done := some (0, []) } ∧
        (arg 1 = 0 → holds (t.st n).asMem (s.st n).asMem ∧ (t.st n).xsMem = (s.st n).xsMem) ∧
        (arg 1 = 1 → holds (t.st n).xsMem (s.st n).xsMem ∧ (t.st n).asMem = (s.st n).asMem) ∧
        stnsBut n s t ∧ t.dram = s.dram ∧ t.flash = s.flash ∧ t.prt = s.prt ∧ (t.st n).as = (s.st n).as ∧
        (t.st n).xs = (s.st n).xs ∧ (t.st n).q = (s.st n).q ∧ (t.st n).usedOf 4 = (s.st n).usedOf 4) ∧
    ((s.st n).st = .running → ∃ t, exec .stnProg s = .next t ∧ t.cur.mail = some { m with done := some (3, []) } ∧
      t = { s with cur := { s.cur with mail := t.cur.mail } })
  )

/-- R364, R365, R356: LOAD_START opens a PCIe load of the slot that is not booted and clears its VALID, in the slot
table of the flash too; IMG_PUSH appends the window's first bytes to the slot and sets BUSY until they are in it;
LOAD_END ends the load; each is refused with SEQ_ERR while BUSY. CONFIRM makes a tried slot ACTIVE. R361, R365: the
verification of an image loaded over PCIe ends: a refused one sets FAIL, REFUSE and RECORD and posts its code; an
accepted one sets VALID and DONE, and becomes ACTIVE or, ended with TRY, the slot to try, while an image runs. R363,
R365, R359, R394: a load that passes while no image runs, over PCIe or with the Plinth's pass signalled, is accepted:
its slot is ACTIVE and VALID, GLB_IMG_STATUS, ID, VER, SECVER and MEAS show the image, its records that apply are kept,
those of registers outside the stations are in force, and phase C begins. R393: in phase B FRAME rising clears ERR,
starts a Plinth load and raises ACK; a block of 4,096 bytes joins the image; FRAME falling ends the load, which is
verified when LENGTH bytes have come and else fails with ERR, FAIL and PLT-04. A load that verifies signals its pass,
ACK and ERR both high, for 10 us before it is accepted; one that does not fails with its own code too. The model's
choices in it: log entries 7, 78, 79. -/
def Obligations.ImageLoadsAndVerification : Prop :=
  (
  ∀ s : State,
    let busy := s.rbit Reg.glbImgLoadst 0 = true
    let seqErr (t : State) : Prop := t.rbit Reg.glbImgLoadst 3 = true ∧ t = { s with regs := t.regs, evts := t.evts } ∧
      regsBut [Reg.glbImgLoadst] s t ∧ ∀ i, i ≠ 3 → t.rbit Reg.glbImgLoadst i = s.rbit Reg.glbImgLoadst i
    let tables (t : State) : Prop := ∀ a, (a < 0x9000000 ∨ 0x9010000 ≤ a) → flashByte t a = flashByte s a
    (s.curReady = true → ¬ busy → (∀ l, s.img.load = some l → l.src = .pcie) → ∀ k, s.img.booted = some k → k < 2 →
      ∃ t, exec .imgLoadStart s = .next t ∧ t.img = { s.img with load := some ⟨.pcie, 1 - k, 0, false, false⟩ } ∧
        t.rg Reg.glbImgLoadst = 0 ∧ t.rbit Reg.glbSlot (3 + (1 - k)) = false ∧ t.rf Reg.glbImgStatus 4 2 = 1 ∧
        t.rbit Reg.glbSlot (3 + k) = s.rbit Reg.glbSlot (3 + k) ∧
        regsBut [Reg.glbImgLoadst, Reg.glbSlot, Reg.glbImgStatus] s t ∧ tables t ∧
        t = { s with regs := t.regs, evts := t.evts, flash := t.flash, img := t.img }) ∧
    (s.curReady = true → busy → ∃ t, exec .imgLoadStart s = .next t ∧ seqErr t) ∧
    (∀ l v, s.img.load = some l → l.src = .pcie → l.ended = false →
      (¬ busy → fld v 0 16 % 4 = 0 → 4 ≤ fld v 0 16 → fld v 0 16 ≤ 32768 → l.bytes + fld v 0 16 ≤ 0x4000000 →
        ∃ t, exec (.imgPush v) s = .next t ∧ t.rbit Reg.glbImgLoadst 0 = true ∧
          t.img = { s.img with load := some { l with bytes := l.bytes + fld v 0 16 } } ∧
          (∀ a, flashByte t a =
            if l.slot * 0x4000000 + l.bytes ≤ a ∧ a < l.slot * 0x4000000 + l.bytes + fld v 0 16
            then Cells.get zeroByte s.img.window (a - (l.slot * 0x4000000 + l.bytes)) else flashByte s a) ∧
          regsBut [Reg.glbImgLoadst] s t ∧ t = { s with regs := t.regs, evts := t.evts, flash := t.flash, img := t.img }) ∧
      (busy → ∃ t, exec (.imgPush v) s = .next t ∧ seqErr t) ∧
      (∃ t, exec .imgLoadBusyClear s = .next t ∧ t.rbit Reg.glbImgLoadst 0 = false ∧ regsBut [Reg.glbImgLoadst] s t ∧
        t = { s with regs := t.regs, evts := t.evts }) ∧
      (¬ busy → ∀ b, ∃ t, exec (.imgLoadEnd b) s = .next t ∧ t.rbit Reg.glbImgLoadst 0 = true ∧
        t.img = { s.img with load := some { l with ended := true, try_ := b } } ∧
        regsBut [Reg.glbImgLoadst, Reg.glbImgStatus] s t ∧ t = { s with regs := t.regs, evts := t.evts, img := t.img }) ∧
      (busy → ∀ b, ∃ t, exec (.imgLoadEnd b) s = .next t ∧ seqErr t)) ∧
    (∀ k, s.img.booted = some k → s.img.tried = true → k < 2 → ∃ t, exec .imgConfirm s = .next t ∧ t.rf Reg.glbSlot 0 1 = k ∧
      regsBut [Reg.glbSlot, Reg.glbImgSecver] s t ∧ tables t ∧
      t = { s with regs := t.regs, evts := t.evts, flash := t.flash, img := { s.img with floor := t.img.floor } })
  ) ∧
  (
  ∀ (s : State) (l : ImgLoad), s.img.load = some l → l.ended = true → l.src = .pcie → s.plt.passAt = none → l.slot < 2 →
    let h := imgHead (Cells.read zeroByte s.flash (l.slot * 0x4000000) 64)
    let image := Cells.read zeroByte s.flash (l.slot * 0x4000000) (min 0x4000000 h.len)
    (∀ r, s.verify image = some r → ∃ t, exec .imgVerifyComplete s = .next t ∧ t.img = { s.img with load := none } ∧
      t.rbit Reg.glbImgLoadst 0 = false ∧ t.rbit Reg.glbImgLoadst 2 = true ∧ t.rf Reg.glbImgStatus 8 8 = r.refuse % 256 ∧
      t.rf Reg.glbImgStatus 16 16 = r.record % 65536 ∧ posted r.code uDevice s t ∧ t.flash = s.flash ∧
      t.rg Reg.glbSlot = s.rg Reg.glbSlot) ∧
    (∀ k, s.img.booted = some k → s.verify image = none → ∃ t, exec .imgVerifyComplete s = .next t ∧
      t.rbit Reg.glbImgLoadst 0 = false ∧
      t.rbit Reg.glbImgLoadst 1 = true ∧ t.rbit Reg.glbSlot (3 + l.slot) = true ∧ t.img.load = none ∧ t.img.booted = some k ∧
      (l.try_ = true → t.rbit Reg.glbSlot 1 = true ∧ t.rf Reg.glbSlot 2 1 = l.slot ∧ t.rf Reg.glbSlot 0 1 = s.rf Reg.glbSlot 0 1) ∧
      (l.try_ = false → t.rf Reg.glbSlot 0 1 = l.slot) ∧
      regsButInt [Reg.glbImgLoadst, Reg.glbSlot, Reg.glbImgSecver] s t ∧
      (∀ a, (a < 0x9000000 ∨ 0x9010000 ≤ a) → flashByte t a = flashByte s a) ∧
      t = { s with regs := t.regs, evts := t.evts, out := t.out, flash := t.flash, img := t.img })
  ) ∧
  (
  ∀ (s : State) (l : ImgLoad), s.img.load = some l → l.ended = true → s.img.booted = none → l.slot < 2 →
    let h := imgHead (Cells.read zeroByte s.flash (l.slot * 0x4000000) 64)
    let image := Cells.read zeroByte s.flash (l.slot * 0x4000000) h.len
    let recs := (((parseRecs image h.len (h.len / 16 + 1) 64).getD []).filter
      (fun r => r.applies (s.rank / 16) (s.rank % 16) && r.type != 255)).map RawRec.toRec
    h.len ≤ 0x4000000 →
    ((l.src = .pcie ∧ s.plt.passAt = none ∧ s.verify image = none) ∨ ∃ c, s.plt.passAt = some c ∧ c + 12500 ≤ s.cycle) →
    ∃ t, exec .imgVerifyComplete s = .next t ∧ t.img.booted = some l.slot ∧ t.img.load = none ∧ t.img.records = recs ∧
      t.rf Reg.glbSlot 0 1 = l.slot ∧ t.rbit Reg.glbSlot (3 + l.slot) = true ∧ t.rbit Reg.glbImgLoadst 1 = true ∧
      t.rf Reg.glbImgStatus 0 3 = 3 ∧ t.rf Reg.glbImgStatus 3 1 = l.slot ∧ t.rg Reg.glbImgId = h.id ∧
      t.rg Reg.glbImgVer = h.ver ∧ t.rf Reg.glbImgSecver 0 16 = h.secver ∧
      (∀ i, i < 12 → t.rg (Reg.glbImgMeas i) = word (leAt (sha384 image) (4 * i) 4)) ∧
      (∀ a v, inStn a = false → imgMask a ≠ 0 → ((recs.flatMap ImgRec.writes).filter (fun e => e.1 = a)).getLast? = some (a, v) →
        t.rg a = (s.rg a &&& ~~~(imgMask a)) ||| (v &&& imgMask a)) ∧
      t.rf Reg.pltPhase 0 2 = 2 ∧ t.plt.phaseC = some s.cycle ∧ t.plt.ack = false ∧ t.plt.err = false ∧ t.stn = s.stn ∧
      t.prt = s.prt ∧ t.dram = s.dram ∧ (∀ a, (a < 0x9000000 ∨ 0x9010000 ≤ a) → flashByte t a = flashByte s a)
  ) ∧
  (
  ∀ s : State,
    (s.rf Reg.pltPhase 0 2 = 1 → s.curReady = true → s.plt.passAt = none → (∀ l, s.img.load = some l → l.src = .plinth) →
      ∃ t, exec .plinthFrameRise s = .next t ∧ t.plt = { s.plt with err := false, ack := true } ∧
        (∃ k, t.img = { s.img with load := some ⟨.plinth, k, 0, false, false⟩ } ∧ t.rbit Reg.glbSlot (3 + k) = false) ∧
        t.rf Reg.glbImgStatus 4 2 = 2 ∧ regsBut [Reg.glbImgLoadst, Reg.glbSlot, Reg.glbImgStatus] s t ∧
        (∀ a, (a < 0x9000000 ∨ 0x9010000 ≤ a) → flashByte t a = flashByte s a) ∧
        t = { s with regs := t.regs, evts := t.evts, flash := t.flash, img := t.img, plt := t.plt }) ∧
    (∀ l, s.img.load = some l → l.src = .plinth → l.ended = false →
      (∀ block : List Byte, s.plt.ack = true → block.length = 4096 → l.bytes + 4096 ≤ 0x4000000 →
        ∃ t, exec (.plinthBlockReceive block) s = .next t ∧ t.img = { s.img with load := some { l with bytes := l.bytes + 4096 } } ∧
          (∀ a, flashByte t a = if l.slot * 0x4000000 + l.bytes ≤ a ∧ a < l.slot * 0x4000000 + l.bytes + 4096
            then nth block (a - (l.slot * 0x4000000 + l.bytes)) 0 else flashByte s a) ∧
          t = { s with flash := t.flash, img := t.img }) ∧
      (let len := (imgHead (Cells.read zeroByte s.flash (l.slot * 0x4000000) 64)).len
       (64 ≤ l.bytes → len ≤ l.bytes → ∃ t, exec .plinthFrameFall s = .next t ∧
          t.img = { s.img with load := some { l with ended := true } } ∧ t.rf Reg.glbImgStatus 0 3 = 2 ∧
          regsBut [Reg.glbImgStatus] s t ∧ t = { s with regs := t.regs, evts := t.evts, img := t.img }) ∧
       ((l.bytes < 64 ∨ l.bytes < len) → ∃ t, exec .plinthFrameFall s = .next t ∧ t.img = { s.img with load := none } ∧
          t.plt = { s.plt with err := true, ack := false, passAt := none } ∧ t.rbit Reg.glbImgLoadst 2 = true ∧ posted ⟨.plt, 4⟩ (uPin 5) s t ∧
          regsButReports [Reg.glbImgLoadst, Reg.glbImgStatus] s t ∧
          t = { s with regs := t.regs, evts := t.evts, out := t.out, img := t.img, plt := t.plt, cat := t.cat }))) ∧
    (∀ l, s.img.load = some l → l.src = .plinth → l.ended = true → l.slot < 2 →
      let h := imgHead (Cells.read zeroByte s.flash (l.slot * 0x4000000) 64)
      let image := Cells.read zeroByte s.flash (l.slot * 0x4000000) (min 0x4000000 h.len)
      (s.plt.passAt = none → s.verify image = none →
        exec .imgVerifyComplete s = .next { s with plt := { s.plt with ack := true, err := true, passAt := some s.cycle } }) ∧
      (∀ c, s.plt.passAt = some c → s.cycle < c + 12500 → exec .imgVerifyComplete s = .next s) ∧
      (∀ r, s.plt.passAt = none → s.verify image = some r → ∃ t, exec .imgVerifyComplete s = .next t ∧
        t.img = { s.img with load := none } ∧ t.plt = { s.plt with err := true, ack := false, passAt := none } ∧
        t.rf Reg.glbImgStatus 8 8 = r.refuse % 256 ∧ t.rf Reg.glbImgStatus 16 16 = r.record % 65536 ∧
        t.rbit Reg.glbImgLoadst 2 = true ∧ raised r.code uDevice s t ∧ raised ⟨.plt, 4⟩ (uPin 5) s t ∧ t.flash = s.flash))
  )

/-- R391, R356, R425, R435, R444: a power-on reset returns everything to its reset value but the flash, whose slot table
gives GLB_SLOT and FLOOR: of the copies whose CRC holds the one written last; with auxiliary power lost no unit answers;
a PCIe reset clears the interrupt enables, the aperture, MSI-X and its masks and the outstanding reads; a warm reset,
written with its key, switches the regulators off, completes the outstanding BAR2 reads with Completer Abort, stops the
device, starts phase B and leaves hall time counting; without auxiliary power it does nothing. The model's choices in
it: log entries 18, 19, 20, 79. -/
def Obligations.Resets : Prop :=
  ∀ s : State,
    (let table (z : SlotTable) (t : State) : Prop :=
      t.rg Reg.glbSlot = z.slot ∧ t.img = { Img.reset with floor := z.floor } ∧ t.rf Reg.glbImgSecver 16 16 = z.floor % 65536
     ∃ t, exec .powerOnReset s = .next t ∧ t.flash = s.flash ∧
      (∀ k, k < 2 → ∀ z, s.tableCopy k = some z → (∀ y, s.tableCopy (1 - k) = some y → y.num < z.num) → table z t) ∧
      (s.tableCopy 0 = none → s.tableCopy 1 = none → table ⟨0, 0, 0⟩ t) ∧
      (∀ a, a ≠ Reg.glbSlot → a ≠ Reg.glbImgSecver → t.rg a = regReset a) ∧ t.ht = 0 ∧ t.cur.regOn = false ∧
      t = { State.reset with pending := s.pending, out := s.out, free := s.free, flash := s.flash, regs := t.regs, img := t.img }) ∧
    (∃ t, exec .auxPowerLoss s = .next t ∧ t.cur.aux = false ∧ t.out = .switchedOff :: s.out ∧ t.flash = s.flash ∧
      (∀ n, (t.st n).powered = false) ∧ t.cat = State.reset.cat ∧ (∀ a, t.unitUp a = false)) ∧
    (∀ c l, s.img.load = none → ∃ t, exec (.pcieReset ⟨c, l⟩) s = .next t ∧ t.bar2 = [] ∧
      t.pcie = { Pcie.reset with link := if c = .flr then s.pcie.link else l } ∧
      (∀ i, i < 8 → t.rg (Reg.glbIrqEn i) = regReset (Reg.glbIrqEn i)) ∧ t.rg Reg.glbAperture = regReset Reg.glbAperture ∧
      t.rg Reg.glbVitSel = regReset Reg.glbVitSel ∧ t.txnHost.st ≠ .open_ ∧ t.txnHost.st ≠ .failed ∧
      (s.txnHost.st = .armed → t.txnHost = s.txnHost) ∧
      (∀ a, (a < 0x40 ∨ 0x60 ≤ a) → (a < 0x4000 ∨ 0x5020 ≤ a) → a ≠ Reg.glbAperture → a ≠ Reg.glbVitSel → t.rg a = s.rg a) ∧
      t = { s with regs := t.regs, heldHi := t.heldHi, capHi := t.capHi, bar2 := [], txnHost := t.txnHost, pcie := t.pcie }) ∧
    (∀ v : Word, (fld v 0 16 ≠ 0x5752 ∨ bitOf v 16 = false ∨ s.cur.aux = false) → exec (.warmReset v) s = .next s) ∧
    (∀ v : Word, fld v 0 16 = 0x5752 → bitOf v 16 = true → s.cur.aux = true → s.img.load = none → s.cur.regOn = true →
      ∃ t, exec (.warmReset v) s = .next t ∧ t.ht = s.ht ∧ t.cycle = s.cycle ∧ t.flash = s.flash ∧ t.stepState = 3 ∧ t.stage = 1 ∧
        t.rbit Reg.curStatus 0 = false ∧ t.rf Reg.pltPhase 0 2 = 1 ∧ t.cur.regOn = false ∧ t.clk.warm = true ∧
        (t.txn .host).st = .none ∧ (t.txn .curator).st = .none ∧ t.img.booted = none ∧
        (∀ n, t.st n = Stn.reset) ∧ (∀ p, t.pt p = Prt.reset) ∧ t.dram = [] ∧
        t.rbit Reg.htStatus 0 = s.isRoot ∧ .switchedOff ∈ t.out ∧ t.bar2 = [] ∧ t.plt.phb = true ∧ t.cur.relAt = s.cycle ∧
        ∃ l, t.out = l ++ List.replicate s.bar2.length (.completion 2 .completerAbort []) ++ s.out)

/-- R362: the boot ROM takes the first firmware copy whose check passes, and READY sets; with no good copy the Curator
does not run and SEC-05 is posted. Table 15.4: each stage starts when its condition holds: stage 1 samples the straps,
starts hall time and phase B, 2 waits for the image, the hot-swap stage and 10 ms of good input (R443), 3 follows, 4
follows once every stack has trained and puts the image's DRAM records in place, 5 follows the parade, 6 the last wave.
After a Fatal fault none follows (R411). R349: a stack that fails its training posts MEM-05, and FLT_N is asserted.
R383, R452: a wave, when its tick has come, powers its stations but those of role OFF, and 31,250 tk later releases
them, starting those whose RUN is 1; a station powered by a change of role is released in the same way by itself. The
model's choices in it: log entries 7, 23, 41, 76, 78, 80, 84, 116. -/
def Obligations.StartUpAndWaves : Prop :=
  (
  ∀ s : State, s.stage = 1 → s.curReady = false → s.cur.aux = true →
    let ok (k : Nat) : Bool := Config.firmwareOk k (s.flashRead (0x8000000 + k * 0x800000) 0x800000)
    (ok 0 = false → ok 1 = false → ∃ t, exec .curatorBoot s = .next t ∧ posted ⟨.sec, 5⟩ uDevice s t ∧ t.curReady = false ∧
      t.cat.fltFatal = true ∧ t.cur.fwCopy = s.cur.fwCopy) ∧
    (∀ k, k < 2 → ok k = true → (k = 1 → ok 0 = false) →
      ∃ t, exec .curatorBoot s = .next t ∧ t.curReady = true ∧ t.cur.fwCopy = k ∧ t.cur.bootAt = s.cycle ∧
        t.rf Reg.curInfo 0 16 = (Config.firmwareVersion k).toNat % 65536 ∧ t.rf Reg.curInfo 16 1 = k ∧ t.rf Reg.glbSlot 1 1 = 0 ∧
        (∀ a, (a < 0x9000000 ∨ 0x9010000 ≤ a) → flashByte t a = flashByte s a) ∧ t.dram = s.dram ∧ t.ht = s.ht)
  ) ∧
  (
  ∀ (s : State) (l : List Strap),
    let reach (v : Nat) (t : State) : Prop := t.stage = v ∧ regsBut [Reg.pwrStatus] s t
    (∀ g0 g1 g2 g3 p0 p1 p2 r, s.stage = 0 → s.cur.aux = true → l = [g0, g1, g2, g3, p0, p1, p2, r] → .unsteady ∉ l →
      let trit (z : Strap) : Nat := (tritOf z).getD 0
      let g := trit g0 + 3 * (trit g1 + 3 * (trit g2 + 3 * trit g3))
      let p := trit p0 + 3 * (trit p1 + 3 * trit p2)
      g ≤ 31 → p ≤ 15 → r ≠ .open_ →
      ∃ t, exec (.stageAdvance l) s = .next t ∧ t.stage = 1 ∧ t.counting = true ∧ t.rf Reg.pltStrap 0 5 = g ∧
        t.rf Reg.pltStrap 8 4 = p ∧ t.rbit Reg.pltStrap 12 = decide (r = .high) ∧ t.rbit Reg.pltStrap 13 = true ∧
        t.isRoot = decide (r = .high) ∧ t.rf Reg.pltPhase 0 2 = 1 ∧ t.plt.phb = true ∧ t.cur.relAt = s.cycle ∧
        t.cat.queue = s.cat.queue ∧ t.ht = s.ht) ∧
    (s.cat.fltFatal = true → 1 ≤ s.stage → exec (.stageAdvance l) s = .next s) ∧
    (s.stage = 1 → s.cur.aux = true → s.img.booted.isSome = true → s.cur.smp.hotSwap = true → 1000 ≤ s.cur.vinGood →
      s.cat.fltFatal = false → ∃ t, exec (.stageAdvance l) s = .next t ∧ reach 2 t ∧
        t = { s with regs := t.regs, cur := { s.cur with regOn := true, clocksOn := true } }) ∧
    (s.stage = 1 → (s.cur.aux = false ∨ s.img.booted = none ∨ s.cur.smp.hotSwap = false ∨ s.cur.vinGood < 1000) →
      exec (.stageAdvance l) s = .next s) ∧
    (s.stage = 2 → s.cur.regOn = true → s.cat.fltFatal = false →
      ∃ t, exec (.stageAdvance l) s = .next t ∧ reach 3 t ∧ t = { s with regs := t.regs }) ∧
    (s.stage = 3 → s.cur.regOn = true → s.cat.fltFatal = false → (∀ k, (s.sk k).lost = false) →
      (s.img.records = [] → ∃ t, exec (.stageAdvance l) s = .next t ∧ t.stage = 4 ∧ t.cur.trained = true ∧
        t.clk.stage4At = some s.ht ∧ t.dram = s.dram ∧
        stnsButVoq s t ∧
        (∀ p, s.portMode p ≠ 0 → (s.st (stnOf p)).st ≠ .fenced → (t.pt p).acc = .training) ∧
        (∀ p, (s.portMode p = 0 ∨ (s.st (stnOf p)).st = .fenced) → (t.pt p).acc = .down)) ∧
      (∀ o n : Nat, n < 2 ^ 32 → s.img.records = [⟨5, o, toLE 4 n⟩] → ∃ t, exec (.stageAdvance l) s = .next t ∧ t.stage = 4 ∧
        ∀ a, dramByte t a = if o ≤ a ∧ a < o + n then 0 else dramByte s a) ∧
      (∀ o body, s.img.records = [⟨4, o, body⟩] → dramClean s o body.length →
        ∃ t, exec (.stageAdvance l) s = .next t ∧ t.stage = 4 ∧
        ∀ a, dramByte t a = if o ≤ a ∧ a < o + body.length then nth body (a - o) 0 else dramByte s a)) ∧
    (s.stage = 3 → (∃ k, (s.sk k).lost = true) → exec (.stageAdvance l) s = .next s) ∧
    (s.stage = 4 → s.cur.regOn = true → s.cat.fltFatal = false → s.rbit Reg.htStatus 2 = true → ∃ t, exec (.stageAdvance l) s = .next t ∧ reach 5 t ∧
      let from_ := max (s.rg64 Reg.htParadeLo).toNat (s.clk.stage4At.getD 0).toNat
      t = { s with regs := t.regs, clk := { s.clk with w0 := some (dword ((from_ / 65536 + 1) * 65536)) } }) ∧
    (∀ w, s.stage = 5 → s.clk.w0 = some w → s.cur.regOn = true → s.cat.fltFatal = false →
      (w.toNat + 250000 ≤ s.ht.toNat → ∃ t, exec (.stageAdvance l) s = .next t ∧ reach 6 t ∧ t = { s with regs := t.regs }) ∧
      (s.ht.toNat < w.toNat + 250000 → exec (.stageAdvance l) s = .next s))
  ) ∧
  (
  ∀ s : State,
    (∀ k, s.cur.regOn = true → 3 ≤ s.stage → ∃ t, exec (.stackTrainingFail k) s = .next t ∧ (t.sk k).lost = true ∧
      t.cur.trained = false ∧ t.cur.clocksOn = false ∧ t.cat.fltFatal = true ∧ posted ⟨.mem, 5⟩ (uStack k) s t ∧
      (∀ p, (t.pt p).acc = .down) ∧ stnsButVoq s t ∧ t.dram = s.dram) ∧
    (∀ (w : Fin 8) (w0 : DWord), s.cur.regOn = true → s.cat.fltFatal = false → s.clk.w0 = some w0 →
      let pw := w0.toNat + 31250 * w.val
      (pw ≤ s.ht.toNat → ∃ t, exec (.wavePower w) s = .next t ∧
        (∀ n : StnId, n.val % 8 = w.val → s.role n ≠ 0 → (t.st n).powered = true ∧ t.role n = s.role n) ∧
        (∀ n : StnId, (n.val % 8 ≠ w.val ∨ s.role n = 0 ∨ (s.st n).powered = true) → t.st n = s.st n) ∧
        (∀ n : StnId, n.val % 8 = w.val → s.role n ≠ 0 → (s.st n).powered = false →
          (t.st n).released = false ∧ (t.st n).st = (s.st n).st ∧ (t.st n).q = Stn.reset.q)) ∧
      (pw + 31250 ≤ s.ht.toNat → (∀ n, (s.st n).cut.armed = false ∧ (s.st n).cut.arming = false) →
        ∃ t, exec (.waveRelease w) s = .next t ∧
        (∀ n : StnId, n.val % 8 = w.val → (s.st n).powered = true → (s.st n).offTick = none → (t.st n).released = true) ∧
        (∀ n : StnId, n.val % 8 = w.val → (s.st n).powered = true → (s.st n).released = false → (s.st n).offTick = none →
          (s.st n).st = .idle →
          ((n.val ∈ s.img.marks ∨ s.rbit (Reg.stnCtrl n.val) 0 = true) → (t.st n).st = .running) ∧
          (n.val ∉ s.img.marks → s.rbit (Reg.stnCtrl n.val) 0 = false → (t.st n).st = .idle)) ∧
        (∀ n : StnId, n.val % 8 ≠ w.val → t.st n = s.st n)) ∧
      (s.ht.toNat < pw → exec (.wavePower w) s = .next s)) ∧
    (∀ (n : StnId) (t0 : DWord), (s.st n).offTick = some t0 → t0.toNat ≤ s.ht.toNat → (s.st n).powered = true →
      s.rbit (Reg.stnCtrl n.val) 0 = false →
      ∃ t, exec (.roleFromOffRelease n) s = .next t ∧ t.st n = { s.st n with released := true, offTick := none } ∧
        stnsBut n s t ∧ t = { s with stn := t.stn })
  )

/-- R394, R395, R396, R440: 100 us after phase C begins the outputs are driven, 1 ms after it the inputs are read; HOLD
holds a Closed step in Stopped; an input that chatters sets its bit, posts its code and keeps its level for a filter
time; HOLD or LEAK active for longer than its timeout, or FLOW with no edge for its timeout while the valve is open, is
stuck: it is masked, with its code; a write of 1 unmasks, and the timeout starts again; FLT_CLR releases FLT_N for a
Fenced fault. The model's choices in it: log entries 24, 90. -/
def Obligations.PlinthPins : Prop :=
  ∀ s : State,
    let acts (t : State) (h : Pin) : Prop := t.stepState =
      (if h.level = true ∧ t.plt.reading = true ∧ t.rbit Reg.pltMask 1 = false ∧ s.stepState = 0 then 3 else s.stepState)
    (∀ t0, s.plt.phaseC = some t0 →
      (t0 + 125000 ≤ s.cycle → exec .phaseCOutputEnable s = .next { s with plt := { s.plt with driven := true, phc := true } }) ∧
      (s.cycle < t0 + 125000 → exec .phaseCOutputEnable s = .next s) ∧
      (t0 + 1250000 ≤ s.cycle → s.plt.reading = false → s.plt.leak.level = false → ∃ t, exec .phaseCInputsRead s = .next t ∧
        t.plt = { s.plt with
          reading := true
          hold := { s.plt.hold with rise := s.cycle }
          leak := { s.plt.leak with rise := s.cycle }
          flow := { s.plt.flow with rise := s.cycle } } ∧
        t.rbit Reg.pltPhase 2 = false ∧ acts t s.plt.hold ∧ regsBut [Reg.pltPhase, Reg.htStatus] s t ∧
        t = { s with regs := t.regs, plt := t.plt }) ∧
      (s.cycle < t0 + 1250000 → exec .phaseCInputsRead s = .next s)) ∧
    (∀ b, s.plt.phaseC.isSome = true →
      (s.plt.hold.hush ≤ s.cycle → ∃ t, exec (.holdChange b) s = .next t ∧
        t.plt = { s.plt with hold := { s.plt.hold with
          raw := b
          since := if s.plt.hold.raw = b then s.plt.hold.since else s.cycle
          level := b
          rise := if b = true ∧ s.plt.hold.level = false then s.cycle else s.plt.hold.rise } } ∧
        bitOf (t.value Reg.pltIn) 1 = (b && s.plt.reading && !s.rbit Reg.pltMask 1) ∧ acts t t.plt.hold ∧ regsBut [Reg.htStatus] s t ∧ t = { s with regs := t.regs, plt := t.plt }) ∧
      (s.cycle < s.plt.hold.hush → exec (.holdChange b) s = .next s)) ∧
    (∀ pin, s.plt.reading = true → ∃ t, exec (.inputChatter pin) s = .next t ∧ t.rbit Reg.pltChatter (pinBit pin) = true ∧
      posted ⟨.plt, 2⟩ (uPin (pinBit pin)) s t ∧
      t.plt.pin pin = { s.plt.pin pin with since := s.cycle, hush := s.cycle + 1250 * s.rf (pinFilt pin) 0 16 } ∧
      (∀ k, k ≠ pin → t.plt.pin k = s.plt.pin k) ∧ regsButReports [Reg.pltChatter] s t ∧
      t = { s with regs := t.regs, evts := t.evts, out := t.out, cat := t.cat, plt := t.plt }) ∧
    (∀ pin, s.plt.reading = true → s.rf (pinFilt pin) 16 16 ≠ 0 → s.rbit Reg.pltMask (pinBit pin) = false →
      let from_ := (s.plt.pin pin).rise + 1250000 * s.rf (pinFilt pin) 16 16
      let stuck := if pin = .flow then s.rf Reg.pwrValve 0 8 ≠ 0 ∧ from_ ≤ s.cycle else (s.plt.pin pin).level = true ∧ from_ < s.cycle
      (stuck → ∃ t, exec (.inputStuckTimeout pin) s = .next t ∧ t.rbit Reg.pltMask (pinBit pin) = true ∧
        posted ⟨.plt, 1⟩ (uPin (pinBit pin)) s t ∧ t.plt = s.plt ∧ regsButReports [Reg.pltMask] s t ∧
        t.cur = { s.cur with flowSaid := if pin = .flow then false else s.cur.flowSaid } ∧
        t = { s with regs := t.regs, evts := t.evts, out := t.out, cat := t.cat, cur := t.cur }) ∧
      (¬ stuck → exec (.inputStuckTimeout pin) s = .next s)) ∧
    (∀ v, s.since Reg.pltMask = 0 → s.plt.leak.level = false → ∃ t, exec (.pltUnmask v) s = .next t ∧
      t.rg Reg.pltMask = s.rg Reg.pltMask &&& ~~~(v &&& 0x2A) ∧
      (∀ pin, t.plt.pin pin = if bitOf v (pinBit pin) ∧ s.rbit Reg.pltMask (pinBit pin) then { s.plt.pin pin with rise := s.cycle }
        else s.plt.pin pin) ∧ acts t s.plt.hold ∧
      regsBut [Reg.pltMask, Reg.htStatus] s t ∧ t = { s with regs := t.regs, plt := t.plt }) ∧
    exec .fltClr s = .next { s with cat := { s.cat with fltFenced := false } }

/-- R378, R381, R385, R387, R390: each trip posts its Fatal code and switches the regulators off, so that only the
Curator domain keeps what it held; the power comparator and the Curator's guard set the ladder to step 7. The model's
choices in it: log entries 41, 81, 88. -/
def Obligations.TripsAndGuard : Prop :=
  ∀ s : State, s.cur.regOn = true →
    let trips (c : Code) (i : Instr) : Prop := ∃ t, exec i s = .next t ∧ posted c uDevice s t ∧ t.cur.regOn = false ∧
      t.cur.clocksOn = false ∧ t.cat.fltFatal = true ∧ t.out.head? = some .switchedOff ∧ (∀ n, t.st n = Stn.reset) ∧
      (∀ p, t.pt p = Prt.reset) ∧ t.dram = [] ∧ t.buckets = [] ∧ t.flash = s.flash ∧ t.ht = s.ht ∧ t.img = s.img ∧
      (∀ a, a < 0x100000 → ¬ reportReg a → a ≠ Reg.pwrValve → t.rg a = s.rg a)
    trips ⟨.pwr, 3⟩ .vinOvervoltageTrip ∧ trips ⟨.pwr, 2⟩ .vinUndervoltageTrip ∧ trips ⟨.pwr, 7⟩ .railRegulationTrip ∧
    ((1 ≤ s.cur.hot110 ∨ 10000 ≤ s.cur.hot105) → trips ⟨.thm, 3⟩ .logicOvertempTrip) ∧
    ((s.cur.hot110 = 0 ∧ s.cur.hot105 < 10000) → exec .logicOvertempTrip s = .next s) ∧
    (∀ k : StackId, 100 ≤ s.cur.hot98[k.val] → trips ⟨.thm, 6⟩ (.stackOvertempTrip k)) ∧
    (s.plt.phaseC.isSome = true → s.plt.leak.hush ≤ s.cycle → s.plt.reading = true → s.rbit Reg.pltMask 3 = false →
      s.plt.leaked = false → trips ⟨.thm, 10⟩ .leakDetected ∧
      ∃ t, exec .leakDetected s = .next t ∧ t.rf Reg.pwrValve 0 8 = 0 ∧ t.plt.leak.level = true ∧ t.plt.leaked = true) ∧
    (∃ t, exec .overpowerComparator s = .next t ∧ t.ladder = 7 ∧ t.stage = s.stage ∧
      raised ⟨.pwr, 4⟩ uDevice s t ∧
      t = { s with regs := t.regs, evts := t.evts, out := t.out, cat := t.cat, cur := { s.cur with quiet := 0 } } ∧
      regsButReports [Reg.pwrStatus] s t) ∧
    (s.cur.guard = false → s.curReady = true → ∃ t, exec .curatorGuardExpire s = .next t ∧ t.ladder = 7 ∧
      t.rf Reg.pwrValve 0 8 = 255 ∧ t.rbit Reg.curStatus 2 = true ∧ t.cur.guard = true ∧ t.cat.fltFatal = true ∧
      (∃ e, t.cat.urgent = s.cat.urgent ++ [e] ∧ e.code = ⟨.pwr, 8⟩) ∧ stnsButVoq s t ∧ regsButReports [Reg.pwrStatus, Reg.pwrValve, Reg.curStatus] s t)

/-- R377, R385, R387, R389: a sample is shown in the power registers and moves the ladder (a draw above the limit raises
it by one, 105 degrees or a low input set it to 7); 1 ms of low draw lets it fall by one; a cooler stack loses one level
of throttling; the valve's duty moves by at most 16. The model's choices in it: log entries 86, 87, 89. -/
def Obligations.PowerAndThermalLoops : Prop :=
  ∀ s : State,
    (∀ z : Sample, s.curReady = true → s.rbit Reg.pltMask 5 = true → z.leak = false → s.plt.leak.level = false →
      let flow := s.rf Reg.pwrFlowAssume 0 16
      let hot := (hottest z.tStn).toNat
      let above := ({ s with cur := { s.cur with smp := z } } : State).limit flow < (1000 * z.pin.toNat : Nat)
      let rung := if 105 ≤ hot ∨ z.vin.toNat < 38000 ∨ s.cur.guard = true then 7
        else min 7 (if above ∨ 100 ≤ hot then s.ladder + 1 else s.ladder)
      ∃ t, exec (.curatorSample z) s = .next t ∧ t.rg Reg.pwrVin = word z.vin.toNat ∧ t.rf Reg.pwrPin 0 16 = z.pin.toNat % 65536 ∧
        t.rf Reg.pwrTempMax 0 8 = hot ∧ t.rf Reg.pwrTempMax 24 8 = z.tIn.toNat ∧ t.rf Reg.pwrFlow 0 16 = flow ∧
        t.ladder = max rung (s.rf Reg.pwrLadderMin 0 3) ∧ t.stage = s.stage ∧ t.cur.smp = z ∧
        t.rbit Reg.pwrStatus 7 = decide (z.vin.toNat < 40000) ∧
        t.dram = s.dram ∧ t.flash = s.flash ∧ t.ht = s.ht ∧ ∀ n, (t.st n).as = (s.st n).as) ∧
    (s.curReady = true → 100 ≤ s.cur.quiet → s.cur.hotHold = false → s.cur.guard = false →
      s.rf Reg.pwrLadderMin 0 3 < s.ladder → ∃ t, exec .ladderFall s = .next t ∧ t.ladder = s.ladder - 1 ∧ t.stage = s.stage ∧
        t.cur = { s.cur with quiet := 0, fallHold := 100 } ∧ regsBut [Reg.pwrStatus] s t ∧
        t = { s with regs := t.regs, evts := t.evts, cur := t.cur }) ∧
    ((s.cur.quiet < 100 ∨ s.ladder ≤ s.rf Reg.pwrLadderMin 0 3) → exec .ladderFall s = .next s) ∧
    (∀ k : StackId, 100 ≤ s.cur.cool[k.val] → stackLevel (nth s.cur.smp.tMem k.val 0).toNat < s.cur.throttle[k.val] →
      ∃ t, exec (.stackThrottleRelease k) s = .next t ∧ t.cur.throttle[k.val] = s.cur.throttle[k.val] - 1 ∧
        t.cur.cool[k.val] = 0 ∧ (∀ j : StackId, j ≠ k → t.cur.throttle[j.val] = s.cur.throttle[j.val]) ∧
        t = { s with cur := { s.cur with throttle := t.cur.throttle, cool := t.cur.cool } }) ∧
    (s.curReady = true → s.rbit Reg.pwrValve 8 = false → s.cur.guard = false → s.plt.leaked = false →
      ∃ t, exec .valveLoop s = .next t ∧ t.rf Reg.pwrValve 0 8 ≤ s.rf Reg.pwrValve 0 8 + 16 ∧
        s.rf Reg.pwrValve 0 8 ≤ t.rf Reg.pwrValve 0 8 + 16 ∧ t.rbit Reg.pwrValve 8 = false ∧
        t.cur.drawSum = 0 ∧ t.cur.drawCnt = 0 ∧ regsBut [Reg.pwrValve] s t ∧
        t = { s with regs := t.regs, cur := t.cur, free := t.free }) ∧
    ((s.curReady = false ∨ s.rbit Reg.pwrValve 8 = true ∨ s.cur.guard = true ∨ s.plt.leaked = true) →
      exec .valveLoop s = .next { s with cur := { s.cur with drawSum := 0, drawCnt := 0 } })

/-- R280, R282, R283, R284, R289: the sources that ask for a landing come in turn after the source granted last, and the
first of them whose credit is free reserves it: an entry of the queue with a block of the Cloakroom, for a TC_RSP frame
with payload that of the oldest reply reservation, for a header-only frame none; the link credit of the port, or of
every live member of the group; the Curator's block. A source whose credit is not free is passed over; a frame for a
station that takes no tile is released. The model's choices in it: log entries 12, 28, 71. -/
def Obligations.LandingCredits : Prop :=
  ∀ (s : State) (l : Landing) (c : TClass) (pre post : List Nat) (n : StnId) (f : VoqFrame),
    let asks := (List.range 64).filter (fun k => ((s.st (stnId k)).requester l c).isSome)
    let key : Landing × Option TClass := match l with | .port p => (.port p, some c) | k => (k, none)
    let last := ((s.xbar.landSrc.find? (fun e => e.1 == key)).map (fun e => e.2)).getD 63
    let turn := asks.filter (fun k => decide (last < k)) ++ asks.filter (fun k => decide (k ≤ last))
    (turn = [] → exec (.landingCreditReserve l c) s = .next s) ∧
    (turn = pre ++ n.val :: post → (s.st n).requester l c = some f →
    let runs (t : State) : Prop := exec (.landingCreditReserve l c) s = .next t
    let marked (blk : Option Nat) (paid : List PortId) (t : State) : Prop :=
      (t.st n).voq = (s.st n).voq.map (fun g =>
        if g.id = f.id then { g with credit := true, landBlk := blk, paid := paid } else g) ∧
      t.xbar = { s.xbar with landSrc := t.xbar.landSrc } ∧ t.xbar.landSrc.head? = some (key, n.val) ∧
      t = { s with regs := t.regs, evts := t.evts, stn := t.stn, prt := t.prt, xbar := t.xbar }
    (∀ (m : StnId) (q : Fin 4), l = .queue m q → pre = [] →
      let i : Fin 8 := Fin.ofNat 8 q.val
      let lands (blk : Option Nat) (t : State) : Prop := runs t ∧ marked blk [] t ∧ t.prt = s.prt ∧
        (t.st m).q[q.val] = (s.st m).q[q.val] ++ [⟨⟨f.wire.th.getD TH.zero, blk⟩, .frame f.id⟩] ∧
        (∀ k, k ≠ n → k ≠ m → t.st k = s.st k)
      (s.offStation m = false → (s.st m).st ≠ .halted → (s.st m).landMayPush s.ht i = true →
        (f.wire.hdrOnly = true → ∃ t, lands none t ∧ (t.st m).resv = (s.st m).resv ∧ (t.st m).used = (s.st m).used) ∧
        (∀ t0 b r, f.wire.hdrOnly = false → f.tc = 1 → (s.st m).resv = (t0, b) :: r →
          ∃ t, lands (some b) t ∧ (t.st m).resv = r ∧ (t.st m).used = (s.st m).used) ∧
        (∀ b u, f.wire.hdrOnly = false → (f.tc ≠ 1 ∨ (s.st m).resv = []) → s.allocTile m .landing f.id = some (b, u) →
          ∃ t, lands (some b) t ∧ (t.st m).resv = (s.st m).resv ∧ (t.st m).used = (u.st m).used)) ∧
      (s.offStation m = false → ((s.st m).st = .halted ∨ (s.st m).landMayPush s.ht i = false) → post = [] → runs s) ∧
      (s.offStation m = true → post = [] → ∃ t, runs t ∧ (t.st n).voq = (s.st n).voq.filter (fun g => !(g.id = f.id)) ∧
        posted ⟨.stn, 4⟩ (uStn n) s t ∧ regsButReports [Reg.stnNoItin n.val] s t)) ∧
    (∀ p, l = .port p → (∀ k ∈ pre, ∃ g, (s.st (stnId k)).requester l c = some g ∧ s.linkCredit p g.wire = false) →
      (s.linkCredit p f.wire = true → s.portBad (s.orTwin p) = false → ∃ t, runs t ∧ marked none [p] t ∧ stnsBut n s t ∧
        t.pt (s.credPort p) = (s.pt (s.credPort p)).takeCredit (poolOf f.wire.tc f.wire.esc) (s.takesHdr p f.wire) ∧
        portsBut (s.credPort p) s t) ∧
      ((s.linkCredit p f.wire = false ∨ s.portBad (s.orTwin p) = true) → post = [] → runs s)) ∧
    (∀ g, l = .group g → pre = [] →
      (∀ u, s.takeLinks f.wire (s.livePorts l) = some u → ∃ t, runs t ∧ marked none (s.livePorts l) t ∧ stnsBut n s t ∧
        t.prt = u.prt) ∧
      (s.takeLinks f.wire (s.livePorts l) = none → post = [] → runs s)) ∧
    (l = .curator → pre = [] → ∀ i b u, s.alloc n .wicket (2 * f.id) f.wire.len = some (i, b, u) →
      ∃ t, runs t ∧ marked (some b) [] t ∧ stnsBut n s t ∧ t.prt = s.prt ∧ (t.st n).used = (u.st n).used))

/-- R276, R277, R288: every transfer that a pass of the matching starts is of a ready frame, which leaves its VOQ, from
a source and to an output that no other transfer of the pass takes; it occupies its input and output for one tick per
240 bytes or part, and its last bytes land 10 ticks, between quarters 22, after the pass and those, less one. A free
output chooses TC_MGT first, else the class of the weighted round robin, and in it the source after the one it accepted
last; of the outputs that choose it an input accepts the one after the last, and goes without only where the die-to-die
link carries 8 transfers, which no grant exceeds; the pointers move on the accepted grants. A ready frame alone in the
device is granted. (The frames' words in the ingress region can be read: R352.) The model's choices in it: log entries
12, 127. -/
def Obligations.CrossingGrants : Prop :=
  ∀ s : State,
    let reads (n : StnId) (g : VoqFrame) : Prop := (s.st n).ingLost g.hold (32 + g.wire.data.length) = false
    let lands (x : Xfer) : Nat := s.cycle + (if quarter x.src = quarter x.fr.dst then 10 else 22) + cdiv x.fr.wire.len 240 - 1
    let moves (x : Xfer) : Prop := x.fr ∈ (s.st x.src).voq ∧ s.ready x.src x.fr = true ∧ s.inputFree x.src = true ∧
      x.until_ = s.cycle + cdiv x.fr.wire.len 240 ∧ x.lands = lands x ∧ (x.fr.land ≠ .curator → s.outputFree x.fr.dst = true)
    let before (last a b : Nat) : Prop := if last < a then b ≤ last ∨ a ≤ b else b ≤ last ∧ a ≤ b
    let turn (u : State) (o : StnId) : Nat × Nat := Cells.get noTurn u.xbar.outTurn o.val
    let used (o : StnId) (c : Nat) : Nat := if c = (turn s o).1 ∧ (turn s o).2 < s.weight c then (turn s o).2 else 0
    let has (o : StnId) (c : Nat) : Prop := ∃ e ∈ s.readyFor o, e.2.tc.val = c
    let serves (o : StnId) (k : Nat) : Prop := let c := ((turn s o).1 + k) % 4
      has o c ∧ (k = 0 → (turn s o).2 < s.weight c)
    let class_ (o : StnId) (c : Nat) : Prop :=
      if c = 4 then has o 4 else ¬ has o 4 ∧ ∃ k, k < 5 ∧ c = ((turn s o).1 + k) % 4 ∧ serves o k ∧ ∀ j, j < k → ¬ serves o j
    let picks (o : StnId) (n : Nat) (f : VoqFrame) : Prop := s.outputFree o = true ∧ class_ o f.tc.val ∧
      (∀ e ∈ s.readyFor o, e.2.tc = f.tc → before (Cells.get noPointer s.xbar.outSrc o.val) n e.1) ∧
      (s.readyFor o).find? (fun e => e.2.tc == f.tc && e.1 == n) = some (n, f)
    let load (u : State) (a b : Nat) : Nat := (u.xbar.xfers.filter (fun x =>
      !(x.fr.land == .curator) && quarter x.src == a && quarter x.fr.dst == b && decide (s.cycle ≤ x.until_))).length
    ((∀ n, ∀ g ∈ (s.st n).voq, reads n g) → ∃ t l, exec .crossingGrant s = .next t ∧ t.xbar.xfers = s.xbar.xfers ++ l ∧ (∀ x ∈ l, moves x) ∧
      (l.map (fun x => x.src)).Nodup ∧
      (∀ x ∈ l, ∀ y ∈ l, x.fr.land ≠ .curator → y.fr.land ≠ .curator → x.fr.dst = y.fr.dst → x = y) ∧
      (∀ x ∈ l, x.fr.land ≠ .curator → picks x.fr.dst x.src.val x.fr ∧
        (∀ o f, picks o x.src.val f → before (Cells.get noPointer s.xbar.inOut x.src.val) x.fr.dst.val o.val) ∧
        Cells.get noPointer t.xbar.outSrc x.fr.dst.val = x.src.val ∧ Cells.get noPointer t.xbar.inOut x.src.val = x.fr.dst.val ∧
        turn t x.fr.dst = if x.fr.tc = 4 then turn s x.fr.dst else (x.fr.tc.val, used x.fr.dst x.fr.tc.val + 1)) ∧
      (∀ (o n : StnId) f, picks o n.val f → (∃ x ∈ l, x.src = n) ∨
        ∃ p g, picks p n.val g ∧ quarter n ≠ quarter p ∧ 8 ≤ t.linkLoad (quarter n) (quarter p)) ∧
      (∀ a b, a ≠ b → load t a b ≤ max 8 (load s a b)) ∧
      (∀ n, (t.st n).voq = (s.st n).voq.filter (fun g => !(l.any (fun x => x.src == n && x.fr.id == g.id)))) ∧
      (∀ n, (t.st n).q = (s.st n).q ∧ (t.st n).as = (s.st n).as ∧ (t.st n).vit = (s.st n).vit) ∧
      t.prt = s.prt ∧ t.dram = s.dram ∧ t.ht = s.ht) ∧
    (∀ (n : StnId) (f : VoqFrame), s.xbar.xfers = [] → (s.st n).voq = [f] → (∀ m, m ≠ n → (s.st m).voq = []) →
      s.ready n f = true → f.land ≠ .curator → s.mirrored n f = false →
      (∀ a p h b, f.hold = .ingress a h p (some b) → ∀ w ∈ wordsOf (ingAddr b) (32 + f.wire.data.length), (s.st n).badIn 1 w = 0) →
      ∃ t, exec .crossingGrant s = .next t ∧ t.st n = { s.st n with voq := [] } ∧ stnsBut n s t ∧
        (let x : Xfer := ⟨n, f, s.cycle + cdiv f.wire.len 240, 0, false⟩
         t.xbar.xfers = [{ x with lands := lands x }]) ∧
        t = { s with stn := t.stn, xbar := t.xbar }) ∧
    ((∀ n, ∀ f ∈ (s.st n).voq, f.credit = false) → exec .crossingGrant s = .next s)

/-- R63, R277, R284, R293, R328, R379: the oldest transfer to a station whose bytes have landed, for a port its first
and for any other landing its last, is delivered: into the queue entry and block reserved for it, to its port, to every
port of its group, or into the Curator's ring of 512 frames, which counts what it drops; in the tick after its last
bytes have landed the ingress room or the block that it held at its source goes back, and until then the frame counts as
gone on. R286, R287, R289: a sweep discards every VOQ frame, and every frame that waits at a port (log entry 137), older
than CRS_AGE_LIMIT, held within its bounds, and counts it by class; a reply reservation unused for twice that limit is
given back, counted, and posts CRS-03. The model's choices in it: log entries 71, 109, 130, 137. -/
def Obligations.CrossingDeliversAndAgeing : Prop :=
  (
  ∀ (s : State) (m : StnId) (x : Xfer),
    s.xbar.xfers.find? (fun y => y.fr.dst == m && !y.out && decide (y.due ≤ s.cycle)) = some x → s.rbit Reg.crsTalCtrl 0 = false →
    let f := x.fr
    let runs (t : State) : Prop := exec (.crossingDelivery m) s = .next t
    let ended := x.lands < s.cycle
    let left : List Xfer := if ended then s.xbar.xfers.filter (fun y => !(y.fr.id = f.id))
      else s.xbar.xfers.map (fun y => if y.fr.id = f.id then { y with out := true } else y)
    let gone (t : State) : Prop := t.xbar = { s.xbar with xfers := left }
    let room (t : State) : Prop := ∀ pool hdr p b, f.hold = .ingress pool hdr p b →
      (∀ q, (t.pt q).useBlk = ((if q = p then (s.pt p).leaveRoom (Fin.ofNat 6 pool) hdr else s.pt q).useBlk) ∧
        (t.pt q).useHdr = ((if q = p then (s.pt p).leaveRoom (Fin.ofNat 6 pool) hdr else s.pt q).useHdr)) ∧
      (∀ k, b = some k → (t.st x.src).ingUsed = (s.st x.src).ingUsed.erase k)
    let back (t : State) : Prop := room t ∧ (f.hold = .none → ∀ n, (t.st n).used = (s.st n).used) ∧
      (∀ b, f.hold = .vitrine b → (t.st x.src).used = ((s.st x.src).freeTile (some b)).used)
    let sent (p : PortId) : Wire := (s.asSent p f.wire).2
    (∀ (n : StnId) (q : Fin 4) (b : Nat), f.land = .queue n q → f.landBlk = some b →
      (s.st n).q[q.val].any (fun e => e.fill == .frame f.id) = true →
      let a := (s.st n).lay.blkAddr b
      ∃ t, runs t ∧ gone t ∧ (ended → back t) ∧
        (t.st n).q[q.val] = (s.st n).q[q.val].map (fun e =>
          if e.fill = .frame f.id then ⟨⟨f.wire.th.getD TH.zero, some b⟩, .ready⟩ else e) ∧
        (∀ r : Fin 8, r.val ≠ q.val → (t.st n).q[r.val] = (s.st n).q[r.val]) ∧
        (∀ k i, vitByte t k i = if k = n ∧ a ≤ i ∧ i < a + f.wire.data.length then nth f.wire.data (i - a) 0
          else vitByte s k i) ∧
        regsBut [Reg.crsTalSampled] s t ∧ t = { s with regs := t.regs, evts := t.evts, stn := t.stn, prt := t.prt, xbar := t.xbar }) ∧
    (∀ p, f.land = .port p → s.portBad p = false → ∃ t, runs t ∧ gone t ∧ (ended → back t) ∧
      (t.pt p).egress = (s.pt p).egress ++ [⟨if f.aside then f.wire else sent p, true, none, s.ht⟩] ∧
      (∀ q, q ≠ p → (t.pt q).egress = (s.pt q).egress) ∧
      t = { s with free := t.free, sit := t.sit, stn := t.stn, prt := t.prt, xbar := t.xbar }) ∧
    (∀ p, f.land = .port p → s.portBad p = true → s.orTwin p ≠ p → f.aside = true → ∃ t, runs t ∧ gone t ∧ (ended → back t) ∧
      (t.pt (s.orTwin p)).egress = (s.pt (s.orTwin p)).egress ++ [⟨f.wire, true, none, s.ht⟩] ∧
      t = { s with stn := t.stn, prt := t.prt, xbar := t.xbar }) ∧
    (∀ g, f.land = .group g → (∀ p ∈ s.members g.val, s.portBad p = false) → (∀ t0, f.wire.th = some t0 → t0.tagKind ≠ 2) →
      ∃ t, runs t ∧ gone t ∧ (ended → back t) ∧
        (∀ p ∈ s.members g.val, (t.pt p).egress = (s.pt p).egress ++
          [⟨{ sent p with mc := true, dst := if s.isFabric p then s.partnerRank p else 0 }, true, none, s.ht⟩]) ∧
        (∀ p, p ∉ s.members g.val → (t.pt p).egress = (s.pt p).egress) ∧
        t = { s with stn := t.stn, prt := t.prt, xbar := t.xbar }) ∧
    (f.land = .curator → (∀ b, f.hold ≠ .vitrine b) → ∃ t, runs t ∧ gone t ∧ (ended → room t) ∧
      (t.st f.dst).used = ((s.st f.dst).freeCurator f).used ∧
      (s.cur.rx.length < 512 → t.cur = { s.cur with rx := s.cur.rx ++ [f.wire] } ∧
        t = { s with stn := t.stn, prt := t.prt, xbar := t.xbar, cur := t.cur }) ∧
      (512 ≤ s.cur.rx.length →
        (t.rg Reg.curRxDrop).toNat = min 0xFFFFFFFF ((s.rg Reg.curRxDrop).toNat + 1) ∧ regsBut [Reg.curRxDrop] s t ∧
        t = { s with regs := t.regs, evts := t.evts, stn := t.stn, prt := t.prt, xbar := t.xbar }))
  ) ∧
  (
  ∀ s : State,
    let limit := clamp 1250 81250000 (s.rf Reg.crsAgeLimit 0 27)
    let old (f : VoqFrame) : Bool := decide (limit < s.ht.toNat - f.entry.toNat)
    let all := allStns.flatMap (fun n => (s.st n).voq)
    let stale (e : Egress) : Bool := decide (limit < s.ht.toNat - e.entry.toNat)
    let waiting := allPorts.flatMap (fun p => (s.pt p).egress)
    (s.atMultiple 4096 = true → (∀ n, ∀ f ∈ (s.st n).voq, ∀ g ∈ (s.st n).voq, f.id = g.id → f = g) →
      ∃ t, exec .ageingSweep s = .next t ∧ (∀ n, (t.st n).voq = (s.st n).voq.filter (fun f => !old f)) ∧
        (∀ c : TClass, (t.rg (Reg.crsAged c.val)).toNat = min 0xFFFFFFFF ((s.rg (Reg.crsAged c.val)).toNat +
          (all.filter (fun f => old f && f.tc == c)).length + (waiting.filter (fun e => stale e && e.wire.tc == c)).length)) ∧
        (∀ p, (t.pt p).egress = (s.pt p).egress.filter (fun e => !stale e)) ∧
        (all.any old = true ∨ waiting.any stale = true → t.rbit Reg.crsXstatus 0 = true) ∧
        regsButReports (Reg.crsXstatus :: (List.range 5).map Reg.crsAged) s t ∧
        (∀ n, (t.st n).as = (s.st n).as ∧ (t.st n).xs = (s.st n).xs ∧ (t.st n).vit = (s.st n).vit) ∧
        t = { s with regs := t.regs, evts := t.evts, out := t.out, stn := t.stn, prt := t.prt, cat := t.cat }) ∧
    (s.atMultiple 4096 = false → exec .ageingSweep s = .next s) ∧
    (∀ n t0 b r, (s.st n).resv = (t0, b) :: r →
      (2 * limit ≤ s.ht.toNat - t0.toNat → ∃ t, exec (.replyReservationLapse n) s = .next t ∧
        t.st n = { (s.st n).freeTile (some b) with resv := r } ∧ stnsBut n s t ∧
        (t.rg Reg.crsLapsed).toNat = min 0xFFFFFFFF ((s.rg Reg.crsLapsed).toNat + 1) ∧ t.rbit Reg.crsXstatus 2 = true ∧
        posted ⟨.crs, 3⟩ uDevice s t ∧ regsButReports [Reg.crsLapsed, Reg.crsXstatus] s t ∧
        t = { s with regs := t.regs, evts := t.evts, out := t.out, stn := t.stn, cat := t.cat }) ∧
      (s.ht.toNat - t0.toNat < 2 * limit → exec (.replyReservationLapse n) s = .next s))
  )

/-- R307, R314 to R316: at a locked endpoint port a whole good data frame that carries the expected LSEQ, and for which
credit was given, is accepted: the expected LSEQ counts on and an ACK is due; its tile, cleaned, is at hop 0 of its
itinerary. A frame with another LSEQ causes one NAK of the expected one; a frame whose check fails is counted and
discarded; one for the LLDP or PTP agent, at a group address or the port's own, is not (its content is a command of its
own). R305, R306, R311: a good cell of a locked fabric port joins its frame, a first cell after a frame left open
discards the old one with a NAK, a cell whose check fails is counted, discards the frame and causes a NAK; the ACK or
CREDIT record of a control cell acts at once, and a reserved record does nothing. A gap of 256 tk in the LSEQs is a
discard with a NAK. The model's choices in it: log entries 14, 63, 64, 139. -/
def Obligations.FramesAndCells : Prop :=
  (
  ∀ (s : State) (p : PortId) (frame : List Byte), s.bundle = 0 → s.isEndpoint p = true → (s.pt p).locked = true →
    (s.pt p).acc = .admitted → 4 ≤ frame.length → frame.length ≤ 4454 →
    let e := etherOf (frame.take (frame.length - 4))
    let c := chOf e.rest
    let w := wireOf { c with esc := 0, mc := false } (s.etherClass p e c) s.rank ((e.rest.drop 16).take c.len)
    let ours := s.badTag p e = false ∧ groupAddr e.type e.dst = false ∧ e.dst = s.macOf p ∧
      e.type = s.rf (Reg.prtEtype p.val) 0 16 ∧ e.type ≠ 0x88CC ∧ e.type ≠ 0x88F7 ∧ c.control = false
    let k := s.credPort p
    let pool := poolOf w.tc w.esc
    let held (t : State) : Nat := if w.hdrOnly then (t.pt k).hasHdr[pool.val] else (t.pt k).hasBlk[pool.val]
    let rx := Reg.prtRxOther p.val
    (crcGood frame = true → ours → c.lseq = (s.pt p).rxSeq → (s.pt p).early = [] →
      (∀ t0, w.th = some t0 → w.xh = .none → w.good = true → t0.tagKind = 0 →
        0 < held s →
        let th := t0.clean.setHop 0
        let hop := s.hopWord th.itin 0
        ∀ m q, hopKind hop = 1 → hopTarget hop = m.val → hopQueue hop = q →
          ∃ t v, exec (.endpointFrameReceive p frame 0 0) s = .next t ∧ (t.pt p).rxSeq = c.lseq + 1 ∧
            (t.pt p).lastAcc = some c.lseq ∧ (t.pt p).ackDue = true ∧ (t.pt p).nakOut = false ∧
            held t + 1 = held s ∧
            (t.st (stnOf p)).voq = (s.st (stnOf p)).voq ++ [v] ∧ v.wire.th = some th ∧ v.wire.data = w.data ∧
            v.land = .queue m q ∧ v.dst = m ∧ v.credit = false ∧ v.entry = s.ht ∧
            (∃ b, v.hold = .ingress pool.val w.hdrOnly k b ∧ (w.hdrOnly = true → b = none) ∧
              (∀ j, b = some j → j ∉ (s.st (stnOf p)).ingUsed ∧ j ∈ (t.st (stnOf p)).ingUsed)) ∧ t.out = s.out)) ∧
    (crcGood frame = true → ours → c.lseq ≠ (s.pt p).rxSeq → (s.pt p).nakOut = false →
      ∃ t h, exec (.endpointFrameReceive p frame 0 0) s = .next t ∧ t.pt p = { s.pt p with nakOut := true } ∧ portsBut p s t ∧
        t.out = .nak p (s.pt p).rxSeq h :: s.out ∧ lanesFor s p 4 h ∧ regsBut [] s t ∧
        t = { s with regs := t.regs, evts := t.evts, free := t.free, out := t.out, prt := t.prt }) ∧
    (crcGood frame = true → (s.badTag p e = true ∨ (groupAddr e.type e.dst = false ∧ e.dst ≠ s.macOf p)) →
      ∃ t, exec (.endpointFrameReceive p frame 0 0) s = .next t ∧ (t.rg rx).toNat = min 0xFFFFFFFF ((s.rg rx).toNat + 1) ∧
        t.prt = s.prt ∧ t.stn = s.stn ∧ regsButReports [rx] s t) ∧
    (crcGood frame = true → s.badTag p e = false → (e.type = 0x88CC ∨ e.type = 0x88F7) →
      (groupAddr e.type e.dst = true ∨ e.dst = s.macOf p) →
      ∃ t, exec (.endpointFrameReceive p frame 0 0) s = .next t ∧ regsBut [] s t ∧
        t = { s with regs := t.regs, evts := t.evts }) ∧
    (crcGood frame = false → ∃ t, exec (.endpointFrameReceive p frame 0 0) s = .next t ∧
      (t.rg (Reg.prtCrcErr p.val)).toNat = min 0xFFFFFFFF ((s.rg (Reg.prtCrcErr p.val)).toNat + 1) ∧
      (t.rg rx).toNat = min 0xFFFFFFFF ((s.rg rx).toNat + 1) ∧ t.stn = s.stn ∧ (t.pt p).rxSeq = (s.pt p).rxSeq ∧
      regsButReports [Reg.prtCrcErr p.val, rx] s t)
  ) ∧
  (
  ∀ (s : State) (p : PortId),
    (∀ cell : List Byte, s.bundle = 0 → s.isFabric p = true → (s.pt p).locked = true → cell.length = 248 →
      let h := word (leAt cell 0 4)
      let body := (cell.drop 4).take (min 240 (fld h 8 8))
      let buf (l : List Byte) (t : State) : Prop := t.pt p = { s.pt p with cellBuf := l } ∧ portsBut p s t ∧ regsBut [] s t ∧
        t = { s with regs := t.regs, evts := t.evts, prt := t.prt }
      (crcGood cell = true → bitOf h 2 = false →
        (fld h 0 2 = 1 → (s.pt p).cellBuf = [] → ∃ t, exec (.fabricCellReceive p cell 0 0) s = .next t ∧ buf body t) ∧
        (fld h 0 2 = 1 → (s.pt p).cellBuf ≠ [] → (s.pt p).nakOut = false → ∃ t, exec (.fabricCellReceive p cell 0 0) s = .next t ∧
          t.pt p = { s.pt p with cellBuf := body, nakOut := true } ∧ t.out = .nak p (s.pt p).rxSeq none :: s.out ∧ portsBut p s t ∧
          regsBut [] s t ∧ t = { s with regs := t.regs, evts := t.evts, out := t.out, prt := t.prt }) ∧
        (fld h 0 2 = 2 → (s.pt p).cellBuf ≠ [] →
          ∃ t, exec (.fabricCellReceive p cell 0 0) s = .next t ∧ buf ((s.pt p).cellBuf ++ body) t)) ∧
      (crcGood cell = true → fld h 0 2 = 1 → bitOf h 2 = true → (s.pt p).cellBuf = [] → 16 ≤ body.length →
        (chOf body).control = false → (s.pt p).acc = .admitted → (chOf body).lseq ≠ (s.pt p).rxSeq → (s.pt p).nakOut = false →
        ∃ t, exec (.fabricCellReceive p cell 0 0) s = .next t ∧ t.out = .nak p (s.pt p).rxSeq none :: s.out ∧
          t.pt p = { s.pt p with nakOut := true } ∧ portsBut p s t ∧ regsBut [] s t ∧
          t = { s with regs := t.regs, evts := t.evts, out := t.out, prt := t.prt }) ∧
      (crcGood cell = true → fld h 0 2 = 1 → bitOf h 2 = true → (s.pt p).cellBuf = [] → 16 ≤ body.length →
        (chOf body).control = false → (s.pt p).acc = .admitted → (chOf body).lseq = (s.pt p).rxSeq → (s.pt p).early = [] →
        ∃ t, exec (.fabricCellReceive p cell 0 0) s = .next t ∧ (t.pt p).rxSeq = (s.pt p).rxSeq + 1 ∧
          (t.pt p).lastAcc = some (s.pt p).rxSeq ∧ (t.pt p).ackDue = true ∧ (t.pt p).nakOut = false) ∧
      (crcGood cell = true → fld h 0 2 = 0 → 48 ≤ body.length → body.length < 80 →
        let rec_ := (body.drop 16).take 32
        let acts (i : Instr) : Prop := ∃ t u, exec (.fabricCellReceive p cell 0 0) s = .next t ∧ exec i s = .next u ∧
          t = { u with regs := t.regs, evts := t.evts } ∧ regsBut [] s t ∧ regsBut [] s u
        (leAt rec_ 0 1 % 16 = 1 → acts (.ackRecord p (BitVec.ofNat 16 (leAt rec_ 2 2)))) ∧
        (leAt rec_ 0 1 % 16 = 3 → acts (.creditRecord p ((List.range 7).map (fun j => word (leAt rec_ (4 + 4 * j) 4))))) ∧
        ((leAt rec_ 0 1 % 16 = 0 ∨ 7 ≤ leAt rec_ 0 1 % 16) → ∃ t, exec (.fabricCellReceive p cell 0 0) s = .next t ∧
          regsBut [] s t ∧ t = { s with regs := t.regs, evts := t.evts })) ∧
      (crcGood cell = false → ∃ t, exec (.fabricCellReceive p cell 0 0) s = .next t ∧ (t.pt p).cellBuf = [] ∧
        (t.pt p).nakOut = true ∧ (t.pt p).rxSeq = (s.pt p).rxSeq ∧
        (t.rg (Reg.prtCrcErr p.val)).toNat = min 0xFFFFFFFF ((s.rg (Reg.prtCrcErr p.val)).toNat + 1) ∧ t.stn = s.stn ∧
        regsButReports [Reg.prtCrcErr p.val] s t)) ∧
    (∀ t0, (s.pt p).gapAt = some t0 →
      (t0.toNat + 256 ≤ s.ht.toNat → ∃ t h, exec (.reassemblyGapTimeout p) s = .next t ∧
        t.pt p = { s.pt p with early := [], gapAt := none, nakOut := true } ∧ t.out = .nak p (s.pt p).rxSeq h :: s.out ∧
        lanesFor s p 4 h ∧ portsBut p s t ∧ t = { s with free := t.free, out := t.out, prt := t.prt }) ∧
      (s.ht.toNat < t0.toNat + 256 → exec (.reassemblyGapTimeout p) s = .next s))
  )

/-- R307, R308, R312, R320: an ACK is sent for the last LSEQ accepted; a received ACK releases the frames up to its LSEQ
from the replay buffer, a NAK at an admitted port sends those from its LSEQ on again, and fails the port at the fifth
replay of one LSEQ; a CREDIT adds its words to the credit at hand; an IDENT admits the fabric partner whose hall rank is
the link's and whose station and port can lead back here, and refuses another, whose credits are cleared; credit for
data starts at a gate boundary. The model's choices in it: log entries 65, 68, 139. -/
def Obligations.LinkRecords : Prop :=
  ∀ (s : State) (p : PortId),
    (∀ q, (s.pt p).ackDue = true → (s.pt p).lastAcc = some q → (∀ hdr i, s.creditNow p hdr i = 0) →
      ∃ t h, exec (.ackSend p) s = .next t ∧ t.out = .ack p q h :: s.out ∧ lanesFor s p 4 h ∧
        t.pt p = { s.pt p with ackDue := false } ∧ portsBut p s t ∧ t = { s with free := t.free, out := t.out, prt := t.prt }) ∧
    (∀ pre w q post, (s.pt p).locked = true → (s.pt p).replay = pre ++ (q, w) :: post → (∀ e ∈ pre, e.1 ≠ q) →
      (∃ t, exec (.ackRecord p q) s = .next t ∧ t.pt p = { s.pt p with replay := post, replays := (t.pt p).replays } ∧
        portsBut p s t ∧ t = { s with prt := t.prt }) ∧
      ((s.pt p).acc = .admitted → Cells.get zeroNat (s.pt p).replays q.toNat < 4 → ∃ t e hs, exec (.nakRecord p q) s = .next t ∧
        t.out = e ++ (List.zipWith (fun x h => Out.frame p x.1 x.2 h) ((q, w) :: post) hs).reverse ++ s.out ∧
        hs.length = post.length + 1 ∧ (∀ h ∈ hs, ethFor s p h) ∧ (t.pt p).replay = (s.pt p).replay ∧
        Cells.get zeroNat (t.pt p).replays q.toNat = Cells.get zeroNat (s.pt p).replays q.toNat + 1 ∧ portsBut p s t ∧
        (t.rg (Reg.prtRetry p.val)).toNat = min 0xFFFFFFFF ((s.rg (Reg.prtRetry p.val)).toNat + 1) ∧
        regsButReports [Reg.prtRetry p.val] s t ∧ t = { s with regs := t.regs, evts := t.evts, free := t.free, out := t.out, prt := t.prt, cat := t.cat }) ∧
      (4 ≤ Cells.get zeroNat (s.pt p).replays q.toNat → (s.pt p).acc = .admitted →
        ∃ t, exec (.nakRecord p q) s = .next t ∧ (t.pt p).acc = .failed ∧ (t.pt p).locked = false)) ∧
    (∀ q, (s.pt p).locked = true → ((s.pt p).acc ≠ .admitted ∨ ∀ e ∈ (s.pt p).replay, e.1 ≠ q) → exec (.nakRecord p q) s = .next s) ∧
    (∀ ws, (s.pt p).locked = true → ∃ t, exec (.creditRecord p ws) s = .next t ∧
      let c := s.credPort p
      (∀ i : Fin 6, (t.pt c).crBlk[i.val] = (s.pt c).crBlk[i.val] + fld (nth ws i.val 0) 0 16 ∧
        (t.pt c).crHdr[i.val] = (s.pt c).crHdr[i.val] + fld (nth ws i.val 0) 16 16) ∧
      t.pt c = { s.pt c with crBlk := (t.pt c).crBlk, crHdr := (t.pt c).crHdr } ∧ portsBut c s t ∧ t = { s with prt := t.prt }) ∧
    (∀ w1 w2, s.isFabric p = true → (s.pt p).locked = true → (s.pt p).acc = .discovered → s.curReady = true →
      s.rbit Reg.accCtrl 0 = true →
      (s.linkRank p = some (fld w1 0 9) → s.leadsBack p w1 = true → ∃ t, exec (.identRecord p w1 w2) s = .next t ∧ (t.pt p).acc = .admitted ∧
        (t.pt p).ident = some (w1, w2) ∧ t.rbit (Reg.prtStatus p.val) 0 = true ∧ t.rbit Reg.accEvent 0 = true ∧
        (∀ q, q ≠ p → (t.pt q).acc = (s.pt q).acc) ∧ t.stn = s.stn) ∧
      (s.linkRank p ≠ some (fld w1 0 9) ∨ s.leadsBack p w1 = false → ∃ t, exec (.identRecord p w1 w2) s = .next t ∧ (t.pt p).acc = .refused ∧
        (t.pt p).ident = some (w1, w2) ∧ t.rbit (Reg.prtStatus p.val) 0 = false ∧ t.rbit Reg.accEvent 2 = true ∧
        posted ⟨.lnk, 4⟩ (uPort p) s t ∧ (∀ q, q ∉ s.linkPorts p → q ≠ s.credPort p → t.pt q = s.pt q) ∧ stnsButVoq s t ∧
        (t.linkAdmitted p = false → ∀ i : Fin 6, (t.pt (s.credPort p)).crBlk[i.val] = 0 ∧ (t.pt (s.credPort p)).crHdr[i.val] = 0))) ∧
    (s.isFabric p = true → (s.pt p).acc = .admitted → (s.pt p).creditOn = false → s.gateBoundary p = true →
      ∃ t, exec (.fabricCreditStart p) s = .next t ∧ (t.pt p).creditOn = true ∧ t.stn = s.stn ∧
        t = { s with out := t.out, prt := t.prt })

/-- R308, R309, R319, R320: PCS lock brings a training port to DISCOVERED; a loss of lock fails the port, with LNK-02
and an EPITAPH that names the last LSEQ accepted; frames that the partner lacks are resent on the twin, after an EPITAPH
from its LSEQ on or after 10 us all of them; a port whose retraining fails for 100 ms is DOWN. R308: at a gate boundary
the twin of a failed port takes over: PRT_STATUS.TWIN, the frames that wait at the port, and those bound for it. R320:
ACC_RETRY has Accession look at every REFUSED port again. The model's choices in it: log entries 58, 66, 67, 69, 126. -/
def Obligations.LinkFailuresAndTwins : Prop :=
  (
  ∀ (s : State) (p : PortId),
    let resent (l : List (BitVec 16 × Wire)) (f : PortId) (t : State) : Prop :=
      (t.pt (twinOf f)).egress = (s.pt (twinOf f)).egress ++ l.map (fun e => ⟨e.2, true, none, s.ht⟩) ∧
      t.pt f = { s.pt f with replay := [], replays := [], epitaph := false, epiAt := none } ∧
      (∀ q, q ≠ f → q ≠ twinOf f → t.pt q = s.pt q)
    let failed (f : PortId) (t : State) : Prop :=
      (t.pt f).acc = .failed ∧ (t.pt f).locked = false ∧ (t.pt f).epitaph = true ∧ (t.pt f).epiAt = some (s.ht + 12500) ∧
      t.rbit (Reg.prtStatus f.val) 0 = false ∧ (∃ via m h, Out.epitaph via f ((s.pt f).lastAcc.getD 0xFFFF) m h ∈ t.out ∧ lanesFor s via 4 h) ∧
      (∃ e ∈ t.cat.queue, e.code = ⟨.lnk, 2⟩ ∧ e.unit = uPort f ∧ e.ht = s.ht)
    let up (x : Prt) : Prt :=
      { x with acc := .discovered, locked := true, ident := none, nbr := none, rxSeq := 0, txSeq := 0, cellBuf := [] }
    (s.portMode p ≠ 0 → ((s.pt p).acc = .training ∨ (s.pt p).acc = .failed) → s.cur.engOff[p.val / 8]! = false →
      ∃ t, exec (.pcsLock p) s = .next t ∧
        t.pt p = up (s.pt p) ∧
        (s.isFabric p = true → t.out = .identity p (word (s.rank + p.val / 2 * 2 ^ 9 + p.val * 2 ^ 15)) (s.rg (Reg.glbImgMeas 0)) :: s.out) ∧
        (s.isFabric p = false → t.out = s.out) ∧
        (∀ q, q ≠ p → t.pt q = if s.subLinks p |>.contains q then { s.pt q with cellBuf := [] } else s.pt q) ∧
        t = { s with out := t.out, prt := t.prt }) ∧
    ((s.pt (s.bundlePort p)).locked = true → (s.pt (s.bundlePort p)).acc = .admitted → s.cat.queue.length < 4096 →
      ∃ t, exec (.blockLockLossTimeout p) s = .next t ∧ failed (s.bundlePort p) t) ∧
    ((s.pt (s.bundlePort p)).locked = false → exec (.blockLockLossTimeout p) s = .next s) ∧
    (∀ (g f : PortId) (q : BitVec 16), (s.pt p).locked = true → s.portOfPartner p g = some f → s.orTwin f = twinOf f →
      (s.pt f).acc = .failed → (s.pt f).epitaph = true →
      ∃ t, exec (.epitaphRecord p g q) s = .next t ∧ resent (afterLseq (s.pt f).replay q) f t ∧ t = { s with prt := t.prt }) ∧
    (∀ t0, (s.pt p).epitaph = true → (s.pt p).epiAt = some t0 → t0.toNat ≤ s.ht.toNat → s.orTwin p = twinOf p →
      ∃ t, exec (.epitaphTimeout p) s = .next t ∧ resent (s.pt p).replay p t ∧ posted ⟨.lnk, 5⟩ (uPort p) s t ∧
        regsButReports [] s t ∧ t = { s with regs := t.regs, evts := t.evts, prt := t.prt, cat := t.cat }) ∧
    ((s.pt p).acc = .failed → ∃ t, exec (.retrainTimeout p) s = .next t ∧ (t.pt p).acc = .down ∧ (t.pt p).locked = false ∧
      t.rbit (Reg.prtStatus p.val) 0 = false ∧ t.rf (Reg.catCondPrt p.val) 0 16 = min 0xFFFF (s.rf (Reg.catCondPrt p.val) 0 16 + 8192) ∧
      (∀ q, q ∉ s.linkPorts p → q ≠ s.credPort p → t.pt q = s.pt q) ∧ stnsButVoq s t ∧ regsButReports [] s t ∧
      t = { s with regs := t.regs, evts := t.evts, out := t.out, prt := t.prt, stn := t.stn, cat := t.cat })
  ) ∧
  (
  ∀ s : State,
    (∀ p, s.bundle = 0 → s.portBad p = true → s.portBad (twinOf p) = false → s.gateBoundary (twinOf p) = true →
      s.rbit (Reg.prtStatus (twinOf p).val) 1 = false →
      ∃ t, exec (.twinTakeover p) s = .next t ∧ t.rbit (Reg.prtStatus (twinOf p).val) 1 = true ∧ (t.pt p).egress = [] ∧
        (t.pt (twinOf p)).egress = (s.pt (twinOf p)).egress ++ (s.pt p).egress ∧
        (∀ q, q ≠ p → q ≠ twinOf p → t.pt q = s.pt q) ∧
        (∀ n, t.st n = { s.st n with voq := (t.st n).voq } ∧ (t.st n).voq =
          (s.st n).voq.map (fun f => if f.land = .port p then { f with land := .port (twinOf p) } else f)) ∧
        regsButInt [Reg.prtStatus (twinOf p).val] s t ∧ t = { s with regs := t.regs, evts := t.evts, out := t.out, stn := t.stn, prt := t.prt }) ∧
    (s.curReady = true → s.rbit Reg.accCtrl 0 = true → ∃ t, exec .accRetry s = .next t ∧
      (∀ p, (s.pt p).acc ≠ .refused → (t.pt p).acc = (s.pt p).acc) ∧
      (∀ p, (s.pt p).acc = .refused → (s.pt p).locked = true →
        (s.matches_ p = some true → (t.pt p).acc = .admitted) ∧ (s.matches_ p = some false → (t.pt p).acc = .refused) ∧
        (s.matches_ p = none → (t.pt p).acc = .discovered)) ∧ stnsButVoq s t ∧ t.dram = s.dram)
  )

/-- R317, R318, R320: on a locked Ethernet port with class bit 5 open an LLDPDU goes out, and on an endpoint port an
Announce with ACC_PTP.CLASS and a Sync with the PTP time of now; a Delay_Req of the domain is answered with its receive
time, once bit 5 is open, and an Announce is ignored; a received LLDPDU is the port's neighbour until its time to live
ends, when the partner is withdrawn; its identity admits or refuses the partner. The model's choices in it: log entries
14, 68, 69, 75, 139. -/
def Obligations.AgentsOfPorts : Prop :=
  ∀ (s : State) (p : PortId), s.curReady = true → (s.pt p).locked = true →
    let ptp (t : Nat) : Nat := 10 * (s.rg64 Reg.htTaiBaseLo).toNat + t / 2
    let ttl := s.rf Reg.accLldp 0 8 * s.rf Reg.accLldp 8 8
    let tlv : List Word := [word (s.rf Reg.accOui 0 24), word s.rank, word (s.endpointIndex p), 1,
      word (s.rf (Reg.prtEtype p.val) 0 16)]
    (s.isEther p = true → s.isOpen p 5 = true → ∃ t h, exec (.lldpduTransmit p) s = .next t ∧
      t.out = .lldp p Config.serial ttl tlv h :: s.out ∧ agentFor s p 0x0180C200000E 0x88CC h ∧
      t.pt p = { s.pt p with lldpSent := some (s.ht, word ttl :: tlv) } ∧ portsBut p s t ∧
      t = { s with free := t.free, out := t.out, prt := t.prt }) ∧
    (s.isOpen p 5 = false → exec (.lldpduTransmit p) s = .next s) ∧
    (s.isEndpoint p = true → s.isOpen p 5 = true → ∃ t h g, exec (.ptpSyncTransmit p) s = .next t ∧
      t.out = .ptpSync p (s.rf Reg.accPtp 0 8) (s.pt p).ptpSeq.toNat (ptp (s.ht.toNat * 16)) h ::
        .ptpAnnounce p (s.rf Reg.accPtp 0 8) (s.rf Reg.accPtp 16 8) g :: s.out ∧
      agentFor s p 0x011B19000000 0x88F7 h ∧ agentFor s p 0x011B19000000 0x88F7 g ∧
      t.pt p = { s.pt p with ptpSeq := (s.pt p).ptpSeq + 1, ptpSent := some s.ht } ∧ portsBut p s t ∧
      t = { s with free := t.free, out := t.out, prt := t.prt }) ∧
    (∀ m : PtpMsg, s.isEndpoint p = true → m.domain.toNat = s.rf Reg.accPtp 0 8 →
      (m.kind = .delayReq → (s.pt p).ptpWait = [] → s.isOpen p 5 = true →
        ∃ t h, exec (.ptpMessageReceive p m) s = .next t ∧ t.out = .ptpDelayResp p m.seq.toNat (ptp m.rxTime.toNat) h :: s.out ∧
          agentFor s p 0x011B19000000 0x88F7 h ∧ t = { s with free := t.free, out := t.out }) ∧
      (m.kind = .delayReq → s.isOpen p 5 = false → ∃ t, exec (.ptpMessageReceive p m) s = .next t ∧
        t.pt p = { s.pt p with ptpWait := (s.pt p).ptpWait ++ [(m.seq.toNat, ptp m.rxTime.toNat)] } ∧ portsBut p s t ∧
        t = { s with prt := t.prt }) ∧
      (m.kind ≠ .delayReq → exec (.ptpMessageReceive p m) s = .next s)) ∧
    (∀ du : Lldpdu, s.isEther p = true → (s.pt p).acc = .discovered → s.rbit Reg.accCtrl 0 = true → du.ttl ≠ 0 →
      du.tlv = true →
      let good := du.version = 1 ∧ du.etype.toNat = s.rf (Reg.prtEtype p.val) 0 16
      ∃ t, exec (.lldpduReceive p du) s = .next t ∧ (t.pt p).nbr = some ⟨du, s.ht + dword (du.ttl.toNat * 1250000000)⟩ ∧
        (good → (t.pt p).acc = .admitted ∧ t.rbit (Reg.prtStatus p.val) 0 = true) ∧
        (¬ good → (t.pt p).acc = .refused ∧ posted ⟨.lnk, 4⟩ (uPort p) s t) ∧ stnsButVoq s t) ∧
    (∀ nb, (s.pt p).nbr = some nb → s.isEther p = true → (s.pt p).acc = .admitted →
      (nb.until_.toNat ≤ s.ht.toNat → ∃ t, exec (.lldpNeighbourExpiry p) s = .next t ∧ (t.pt p).nbr = none ∧
        (t.pt p).acc = .failed ∧
        ((s.bundle ≠ 0 ∨ (s.pt (twinOf p)).acc ≠ .admitted) → ∀ i : Fin 6, (t.pt (s.credPort p)).crBlk[i.val] = 0)) ∧
      (s.ht.toNat < nb.until_.toNat → exec (.lldpNeighbourExpiry p) s = .next s))

/-- R314, R315, R323, R325, R328: a frame that waits starts when its class is open long enough, its shaper and its link
credit allow it, the lanes are free, and, if it was diverted, a gate boundary has passed: it takes the next LSEQ, stays
in the replay buffer, and occupies the lanes for its time charge; on an Ethernet port it goes out between the partner's
and the port's own address. R329, Table 12.7: in the first tick in which a class is closed again each head frame of a
VOQ for the port that was not counted before is a slip of the port and of the device. R330: a telemetry sample puts a
64-byte record of each sampled port into the ring, or counts a drop when it is full. The model's choices in it: log
entries 32, 57, 61, 103, 122. -/
def Obligations.FrameStartsSlipsAndTelemetry : Prop :=
  (
  ∀ (s : State) (p : PortId) (c : TClass) (e : Egress) (pre post : List Egress),
    (s.pt p).egress = pre ++ e :: post → (∀ g ∈ pre, g.wire.tc ≠ c) → e.wire.tc = c →
    let w := e.wire
    let k := s.credPort p
    let sent := s.onLanes p w
    (s.classMoves c = true → (e.paid = true ∨ s.linkCredit p w = true) → s.pastBoundary p e.since = true → s.canStart p w = true →
      ∃ t h, exec (.frameTransmitStart p c) s = .next t ∧ t.out = .frame p (s.pt p).txSeq sent h :: s.out ∧ lanesFor s p c h ∧
        (t.pt p).egress = pre ++ post ∧ (t.pt p).txSeq = (s.pt p).txSeq + 1 ∧
        (t.pt p).replay = (s.pt p).replay ++ [((s.pt p).txSeq, sent)] ∧ (t.pt p).txUntil = s.cycle + s.timeCharge p sent ∧
        (t.pt p).txTc = c ∧ (∀ i : Fin 5, i ≠ c → (t.pt p).tokens[i.val] = s.tokensNow p i) ∧
        (s.rf (Reg.prtShape p.val c.val) 0 20 ≠ 0 →
          (t.pt p).tokens[c.val] = s.tokensNow p c - (s.charge p sent * 10000 : Nat)) ∧
        (e.paid = true → (t.pt k).crBlk = (s.pt k).crBlk ∧ (t.pt k).crHdr = (s.pt k).crHdr) ∧
        (e.paid = false → let x := (s.pt k).takeCredit (poolOf w.tc w.esc) (s.takesHdr p w)
          (t.pt k).crBlk = x.crBlk ∧ (t.pt k).crHdr = x.crHdr) ∧
        (∀ q, q ≠ p → q ≠ k → t.pt q = s.pt q) ∧ t = { s with free := t.free, out := t.out, prt := t.prt }) ∧
    ((s.classMoves c = false ∨ s.canStart p w = false ∨ s.pastBoundary p e.since = false ∨
        (e.paid = false ∧ s.linkCredit p w = false)) →
      exec (.frameTransmitStart p c) s = .next s)
  ) ∧
  (
  ∀ (s : State),
    (∀ (p : PortId) (c : TClass),
      let slips (n : StnId) (f : VoqFrame) : Bool :=
        f.tc == c && f.land == .port p && !f.slipped && headOfLanding (s.st n).voq f
      let k := (allStns.map (fun n => ((s.st n).voq.filter (slips n)).length)).foldl (· + ·) 0
      (s.slotEnds p c.val = true → ∃ t, exec (.slotEnd p c) s = .next t ∧
        (t.rg (Reg.prtSlip p.val c.val)).toNat = min 0xFFFFFFFF ((s.rg (Reg.prtSlip p.val c.val)).toNat + k) ∧
        (t.rg Reg.crsSlip).toNat = min 0xFFFFFFFF ((s.rg Reg.crsSlip).toNat + k) ∧
        (∀ n, t.st n = { s.st n with voq := (s.st n).voq.map (fun f => if slips n f then { f with slipped := true } else f) }) ∧
        regsBut [Reg.prtSlip p.val c.val, Reg.crsSlip] s t ∧ t = { s with regs := t.regs, evts := t.evts, stn := t.stn }) ∧
      (s.slotEnds p c.val = false → exec (.slotEnd p c) s = .next s)) ∧
    (∀ p : PortId, s.rbit Reg.crsTelCtrl 5 = true → s.atMultiple (2 ^ clamp 8 24 (s.rf Reg.crsTelCtrl 0 5)) = true →
      allPorts.filter (fun q => s.rbit (Reg.prtTel q.val) 0) = [p] →
      let a := (s.rg64 Reg.crsTelRingLo).toNat % 2 ^ 40
      let size := s.rf Reg.crsTelRingSize 0 24
      let head := ofLE (Cells.read zeroByte s.dram a 4)
      let tail := ofLE (Cells.read zeroByte s.dram (a + 4) 4)
      let o := a + 64 + head % size * 64
      let rec_ := wordsToBytes (s.telRecord p)
      ((head + 2 ^ 32 - tail) % 2 ^ 32 < size → dramClean s a 8 → dramClean s o 64 →
        ∃ t, exec .telemetrySample s = .next t ∧
          (∀ i, dramByte t i = if o ≤ i ∧ i < o + 64 then nth rec_ (i - o) 0
            else if a ≤ i ∧ i < a + 4 then nth (toLE 4 (head + 1)) (i - a) 0 else dramByte s i) ∧
          t.stn = s.stn ∧ t.prt = s.prt ∧ t.out = s.out ∧ t.cat = s.cat ∧ t.rg Reg.crsTelDropped = s.rg Reg.crsTelDropped) ∧
      (size ≤ (head + 2 ^ 32 - tail) % 2 ^ 32 → dramClean s a 8 → ∃ t, exec .telemetrySample s = .next t ∧
        (t.rg Reg.crsTelDropped).toNat = min 0xFFFFFFFF ((s.rg Reg.crsTelDropped).toNat + 1) ∧
        regsBut [Reg.crsTelDropped] s t ∧ t = { s with regs := t.regs, evts := t.evts, stk := t.stk }))
  )

/-- R149 to R151, R158, R159, R161, R166: an endpoint's bucket header in the open step, in time, opens its free entry
with its tag, settings and deadline and makes its slot a member, with M at once when no other slot is expected; one of
another step is stray and counted; a malformed one is discarded and counted; one behind another running tag waits, with
RED-06; one whose settings differ from the entry's is discarded with RED-03, and its slot counts as arrived and
excluded; a second one of a member is discarded with RED-08. R151, R155, R166: on a fabric port a device's bucket header
of stage 1 to 9 that is not of its round's partner in the open step, or comes for a finished entry, is stray; else it
begins the partner's stream in the running entry of its tag, with its COUNT, or none for ABSENT; a second header of the
round is discarded with RED-08, and one whose settings differ is taken as ABSENT, with RED-04. The model's choices in
it: log entries 53, 55, 56. -/
def Obligations.BucketHeaders : Prop :=
  (
  ∀ (s : State) (p : PortId) (h : List Word), (s.pt p).acc = .admitted → s.isEndpoint p = true → (∀ x ∈ s.redWait, x.port = p → x.wire.redTag ≠ some (bhStep h, bhBucket h)) →
    let slot := s.slotOf (stnOf p)
    let i := bhBucket h % 4096
    (∀ e, slot = some e → s.bhMalformed slot h = false → bhStep h = s.stepCur → s.bkt i = none → s.stepState = 1 →
      s.ht.toNat < (s.rg64 Reg.htStepCloseLo).toNat →
      (∀ x ∈ s.redDisc, x.bad = true → ¬(x.step = bhStep h ∧ x.bucket = bhBucket h)) →
      s.ht.toNat < (s.ht + dword (if bhDeadline h = 0 then s.rf Reg.crsRedDeadline 0 24 else bhDeadline h)).toNat →
      ∃ t b, exec (.bucketHeaderReceive p h) s = .next t ∧ t.bkt i = some b ∧ b.step = bhStep h ∧ b.bucket = bhBucket h ∧
        b.wfmt = bhWfmt h ∧ b.mean = bhMean h ∧ b.nfpol = bhNfpol h ∧ b.dyn = bhDyn h ∧ b.group = bhGroup h ∧
        b.outItin = bhItin h ∧ b.contrs = [⟨e, bhTiles h, [], false, false⟩] ∧ b.excl = false ∧
        (b.dyn = false → bhKind h = 0 → b.tiles = bhTiles h) ∧
        b.deadline = s.ht + dword (if bhDeadline h = 0 then s.rf Reg.crsRedDeadline 0 24 else bhDeadline h) ∧
        ((∃ f, f < 16 ∧ f ≠ e ∧ s.expects (bhGroup h) f = true) → b.st = .open_ ∧ b.m = none) ∧
        ((∀ f, f < 16 → f ≠ e → s.expects (bhGroup h) f = false) → b.st = .members ∧ b.m = some s.ht) ∧
        (∀ j, j ≠ i → t.bkt j = s.bkt j) ∧ t = { s with buckets := t.buckets }) ∧
    (s.bhMalformed slot h = false → bhStep h ≠ s.stepCur → ∃ t, exec (.bucketHeaderReceive p h) s = .next t ∧
      (t.rg Reg.crsRedStray).toNat = min 0xFFFFFFFF ((s.rg Reg.crsRedStray).toNat + 1) ∧ posted ⟨.red, 2⟩ uDevice s t ∧
      regsButReports [Reg.crsRedStray] s t ∧
      t.redDisc = (if (⟨p, bhStep h, bhBucket h, false⟩ : RedStream) ∈ s.redDisc then s.redDisc
        else ⟨p, bhStep h, bhBucket h, false⟩ :: s.redDisc) ∧
      t = { s with regs := t.regs, evts := t.evts, cat := t.cat, redDisc := t.redDisc }) ∧
    (s.bhMalformed slot h = true → s.bkt i = none → ∃ t, exec (.bucketHeaderReceive p h) s = .next t ∧
      (t.rg Reg.crsRedBad).toNat = min 0xFFFFFFFF ((s.rg Reg.crsRedBad).toNat + 1) ∧ posted ⟨.red, 1⟩ uDevice s t ∧
      t.redDisc = (if (⟨p, bhStep h, bhBucket h, true⟩ : RedStream) ∈ s.redDisc then s.redDisc
        else ⟨p, bhStep h, bhBucket h, true⟩ :: s.redDisc) ∧
      regsButReports [Reg.crsRedBad] s t ∧ t = { s with regs := t.regs, evts := t.evts, cat := t.cat, redDisc := t.redDisc }) ∧
    (∀ b, s.bhMalformed slot h = false → bhStep h = s.stepCur → s.bkt i = some b → b.bucket % 4096 = i → b.running = true →
      b.isTag (bhStep h) (bhBucket h) = false → b.collide = false →
      ∃ t, exec (.bucketHeaderReceive p h) s = .next t ∧ t.bkt i = some { b with collide := true } ∧
        (∃ w, t.redWait = s.redWait ++ [⟨p, stnOf p, w, .none⟩] ∧ w.xh = .bh h ∧ w.th = none) ∧ t.rbit Reg.crsRedStatus 4 = true ∧
        posted ⟨.red, 6⟩ uDevice s t ∧ regsButReports [Reg.crsRedStatus] s t ∧
        t = { s with regs := t.regs, evts := t.evts, out := t.out, cat := t.cat, buckets := t.buckets, redWait := t.redWait }) ∧
    (∀ e b, slot = some e → s.bhMalformed slot h = false → bhStep h = s.stepCur → s.bkt i = some b → b.bucket % 4096 = i →
      b.running = true → b.st ≠ .open_ → b.isTag (bhStep h) (bhBucket h) = true →
      (b.contrs.any (fun c => c.slot = e) = false → b.agrees h = false → e ∉ b.disc →
        ∃ t, exec (.bucketHeaderReceive p h) s = .next t ∧ t.bkt i = some { b with disc := e :: b.disc } ∧
          (∀ j, j ≠ i → t.bkt j = s.bkt j) ∧ t.rbit Reg.crsRedStatus 3 = true ∧
          (t.rg Reg.crsRedBad).toNat = min 0xFFFFFFFF ((s.rg Reg.crsRedBad).toNat + 1) ∧ posted ⟨.red, 3⟩ uDevice s t ∧
          regsButReports [Reg.crsRedBad, Reg.crsRedStatus] s t ∧
          t = { s with regs := t.regs, evts := t.evts, out := t.out, cat := t.cat, buckets := t.buckets, redDisc := t.redDisc }) ∧
      (∀ c ∈ b.contrs, c.slot = e → b.gone e = false → ∃ t, exec (.bucketHeaderReceive p h) s = .next t ∧
        posted ⟨.red, 8⟩ uDevice s t ∧ regsButReports [] s t ∧ t = { s with regs := t.regs, evts := t.evts, cat := t.cat }))
  ) ∧
  (
  ∀ (s : State) (p : PortId) (h : List Word), (s.pt p).acc = .admitted → s.isEndpoint p = false → s.isFabric p = true →
    bhStage h ≠ 10 → (∀ x ∈ s.redWait, x.port = p → x.wire.redTag ≠ some (bhStep h, bhBucket h)) →
    let r := bhStage h - 1
    let i := bhBucket h % 4096
    let from_ := uRemote (bhSender h)
    let partner := bhStage h ≠ 0 ∧ r ∈ s.rounds ∧ bhSender h = s.rank ^^^ 2 ^ r ∧ bhSenderKind h = 1 ∧ bhKind h ≠ 3 ∧ bhWfmt h ≠ 3 ∧
      bhStep h = s.stepCur
    let runs (t : State) : Prop := exec (.bucketHeaderReceive p h) s = .next t
    (¬ partner → ∃ t, runs t ∧ strayed from_ s t) ∧
    (∀ b, partner → s.bkt i = some b → b.isTag (bhStep h) (bhBucket h) = true → b.running = false → ∃ t, runs t ∧ strayed from_ s t) ∧
    (∀ b, partner → s.bkt i = some b → b.bucket % 4096 = i → b.isTag (bhStep h) (bhBucket h) = true → b.running = true → b.st ≠ .open_ →
      let dup := if bhKind h = 2 then b.sizes.any (fun x => x.1 = r) = true else b.fabs.any (fun f => f.round = r) = true
      let tiles := if !b.dyn && bhKind h == 0 && b.tiles == 0 then bhTiles h else b.tiles
      let begun (same : Bool) (t : State) : Prop := (∀ j, j ≠ i → t.bkt j = s.bkt j) ∧ t.bkt i = some { b with
        excl := b.excl || bhExcl h
        tiles := if same then tiles else b.tiles
        sizes := if bhKind h = 2 then (r, if same then bhCount h else 0, if same then bhHall h else 0) :: b.sizes else b.sizes
        fabs := if bhKind h = 2 then b.fabs
          else b.fabs ++ [⟨r, bhSender h, if same = true ∧ bhKind h = 0 then bhCount h else 0, bhTiles h, []⟩] }
      (¬ dup → b.agrees h = true → ∃ t, runs t ∧ begun true t ∧ t = { s with buckets := t.buckets }) ∧
      (¬ dup → b.agrees h = false → ∃ t, runs t ∧ begun false t ∧ t.rbit Reg.crsRedStatus 3 = true ∧ posted ⟨.red, 4⟩ from_ s t ∧
        regsButReports [Reg.crsRedStatus] s t ∧
        t = { s with regs := t.regs, evts := t.evts, out := t.out, cat := t.cat, buckets := t.buckets }) ∧
      (dup → ∃ t, runs t ∧ posted ⟨.red, 8⟩ from_ s t ∧ regsButReports [] s t ∧
        t = { s with regs := t.regs, evts := t.evts, cat := t.cat }))
  )

/-- R147, R157, R161, R165: a tile of a member of a running bucket takes a free block of its reducing station and is
held, and waits while there is none; one of an EXCLUDE bucket takes the lowest free place of the staging region in DRAM;
a tile that the device has already is discarded with RED-08, one with no contribution is stray and counted, with RED-02
once for its stream. R155, R157, R161, R166, R171: a bucket tile on a fabric port is of the stream of the partner that
is its origin: below T it takes a block of its reducing station and is held, one that has come is discarded with RED-08,
one of a stream taken as ABSENT goes unused, and one at or beyond T, or of a finished entry, is stray. The model's
choices in it: log entries 28, 55, 123, 138. -/
def Obligations.BucketTiles : Prop :=
  (
  ∀ (s : State) (p : PortId) (tile : List Byte), (s.pt p).acc = .admitted → s.isEndpoint p = true →
    let t0 := TH.ofBytes (tile.take 32)
    let th := t0.clean
    let bucket := th.tag.toNat % 2 ^ 20
    let i := bucket % 4096
    let k := th.seq.toNat
    let data := tile.drop 32
    (∀ x ∈ s.redWait, x.port = p → x.wire.redTag ≠ some (th.step, bucket)) →
    t0.ok = true → tile.length = t0.frameLen → t0.tagKind = 1 →
    (∀ e b c, s.slotOf (stnOf p) = some e → s.bkt i = some b → b.bucket % 4096 = i → b.isTag th.step bucket = true →
      b.running = true → e ∉ b.disc → b.contrs.find? (fun c => c.slot = e) = some c → c.excl = false → b.tileOk th 1 = true →
      k < c.tiles →
      (b.hasTile c k = false → b.nfpol = false → (th.last = true → k + 1 = c.tiles) →
        ∀ n j, s.redStn k = some n → (s.st n).lay.tilePool = some j → j < (s.st n).used.length →
        let nf := scanNf th data
        let key := tileKey b.bucket k e
        (∀ blk, j ∉ (s.st n).cyc.given → (s.st n).outranked s.ht j .wicket key = false → (s.st n).lowestFree j = some blk →
          ∃ t b1, exec (.bucketTileReceive p tile) s = .next t ∧ t.bkt i = some b1 ∧
          b1.contrs = b.contrs.map (fun d => if d.slot = e then
            { c with data := Cells.ins c.data k ⟨some blk, none, nf, th.fz⟩, nf := c.nf || nf } else d) ∧
          b1 = { b with
            contrs := b1.contrs
            nf := b.nf || nf
            nfTiles := if nf = true ∧ k ∉ b.nfTiles then k :: b.nfTiles else b.nfTiles } ∧
          (∀ j, j ≠ i → t.bkt j = s.bkt j) ∧ (t.st n).usedOf j = blk :: (s.st n).usedOf j ∧
          (let a := (s.st n).lay.blkAddr blk
           ∀ m x, vitByte t m x = if m = n ∧ a ≤ x ∧ x < a + data.length then nth data (x - a) 0 else vitByte s m x) ∧
          stnsBut n s t ∧ regsBut [Reg.crsRedNfCnt, Reg.stnClkLow n.val j] s t ∧
          t = { s with regs := t.regs, evts := t.evts, stn := t.stn, buckets := t.buckets }) ∧
        ((j ∈ (s.st n).cyc.given ∨ (s.st n).outranked s.ht j .wicket key = true ∨ (s.st n).lowestFree j = none) →
          ∃ t, exec (.bucketTileReceive p tile) s = .next t ∧
          t.redWait = s.redWait ++ [⟨p, stnOf p, ⟨3, 0, false, s.rank, .none, some th, data⟩, .none⟩] ∧
          (∃ r ∈ (t.st n).reqs, r.pool = j ∧ r.who = .wicket ∧ r.key = key ∧ r.last = s.ht) ∧ stnsBut n s t ∧
          t = { s with stn := t.stn, redWait := t.redWait })) ∧
      (b.hasTile c k = false → b.nfpol = true → (th.last = true → k + 1 = c.tiles) → ∀ n place, s.redStn k = some n →
        firstBelow (16 * s.rf Reg.crsRedStageSize 0 16) (fun x => !s.stgUsed.contains x) = some place →
        let nf := scanNf th data
        let a := (s.rg64 Reg.crsRedStageLo).toNat % 2 ^ 40 + place * 4096
        ∃ t, exec (.bucketTileReceive p tile) s = .next t ∧ t.stgUsed = place :: s.stgUsed ∧
          t.bkt i = some { b with
            contrs := b.contrs.map (fun d => if d.slot = e then
              { c with data := Cells.ins c.data k ⟨none, some place, nf, th.fz⟩, nf := c.nf || nf } else d)
            nf := b.nf || nf
            nfTiles := if nf = true ∧ k ∉ b.nfTiles then k :: b.nfTiles else b.nfTiles } ∧
          (∀ j, j ≠ i → t.bkt j = s.bkt j) ∧
          (∀ x, dramByte t x = if a ≤ x ∧ x < a + data.length then nth data (x - a) 0 else dramByte s x) ∧
          t = { s with stk := t.stk, dram := t.dram, dramBad := t.dramBad, buckets := t.buckets, stgUsed := t.stgUsed }) ∧
      (b.hasTile c k = true → ∃ t, exec (.bucketTileReceive p tile) s = .next t ∧
        posted ⟨.red, 8⟩ uDevice s t ∧ regsButReports [] s t ∧ t = { s with regs := t.regs, evts := t.evts, cat := t.cat })) ∧
    (s.slotOf (stnOf p) = none → s.redBad p th.step bucket = false → ∃ t, exec (.bucketTileReceive p tile) s = .next t ∧
      (t.rg Reg.crsRedStray).toNat = min 0xFFFFFFFF ((s.rg Reg.crsRedStray).toNat + 1) ∧ regsButReports [Reg.crsRedStray] s t ∧
      ((⟨p, th.step, bucket, false⟩ : RedStream) ∈ s.redDisc → t.cat = s.cat ∧ t.redDisc = s.redDisc) ∧
      ((⟨p, th.step, bucket, false⟩ : RedStream) ∉ s.redDisc → posted ⟨.red, 2⟩ uDevice s t ∧
        t.redDisc = ⟨p, th.step, bucket, false⟩ :: s.redDisc) ∧
      t = { s with regs := t.regs, evts := t.evts, cat := t.cat, redDisc := t.redDisc })
  ) ∧
  (
  ∀ (s : State) (p : PortId) (tile : List Byte), (s.pt p).acc = .admitted → s.isEndpoint p = false → s.isFabric p = true →
    let t0 := TH.ofBytes (tile.take 32)
    let th := t0.clean
    let bucket := th.tag.toNat % 2 ^ 20
    let i := bucket % 4096
    let k := th.seq.toNat
    let data := tile.drop 32
    let runs (t : State) : Prop := exec (.bucketTileReceive p tile) s = .next t
    (∀ x ∈ s.redWait, x.port = p → x.wire.redTag ≠ some (th.step, bucket)) →
    t0.ok = true → tile.length = t0.frameLen → t0.tagKind = 1 → fld th.w5 14 2 = 1 →
    ∀ b f, s.bkt i = some b → b.bucket % 4096 = i → b.isTag th.step bucket = true →
      b.fabs.find? (fun f => f.sender = th.origin) = some f →
      let size := min 16384 f.tiles
      let stray := ∃ t, runs t ∧ (t.rg Reg.crsRedStray).toNat = min 0xFFFFFFFF ((s.rg Reg.crsRedStray).toNat + 1) ∧
        regsButReports [Reg.crsRedStray] s t ∧
        t = { s with regs := t.regs, evts := t.evts, cat := t.cat, redDisc := t.redDisc, redStray := t.redStray }
      (f.tiles ≠ 0 → size ≤ k → f.count ≠ 0 → stray) ∧ (b.running = false → f.tiles ≠ 0 →
        (size ≤ k ∨ s.keeps (s.before (f.round + 1)) (k / (size / s.hallD)) = true) → stray) ∧
      (b.running = true → f.tiles ≠ 0 → k < size → s.keeps (s.before (f.round + 1)) (k / (size / s.hallD)) = true →
        let held := (Cells.look f.data k).isSome = true ∨ k < 256 * Cells.get zeroNat b.roundCh f.round
        (f.count = 0 → runs s) ∧
        (f.count ≠ 0 → held → ∃ t, runs t ∧ posted ⟨.red, 8⟩ (uRemote f.sender) s t ∧ regsButReports [] s t ∧
          t = { s with regs := t.regs, evts := t.evts, cat := t.cat }) ∧
        (f.count ≠ 0 → ¬ held → (th.last = true → k + 1 = f.tiles) → ∀ n blk u, s.redStn k = some n →
          s.allocTile n .wicket (tileKey b.bucket k (16 + f.round)) = some (blk, u) →
          ∃ t b1, runs t ∧ t.bkt i = some b1 ∧ b1.contrs = b.contrs ∧ b1.own = b.own ∧ b1.nf = (b.nf || th.nf) ∧
            b1.fabs = b.fabs.map (fun g => if g.round = f.round then { f with data := Cells.ins f.data k ⟨some blk, none, th.nf, th.fz⟩ }
              else g) ∧
            (∀ j, j ≠ i → t.bkt j = s.bkt j) ∧ (t.st n).used = (u.st n).used ∧
            (let a := (s.st n).lay.blkAddr blk
             ∀ m x, vitByte t m x = if m = n ∧ a ≤ x ∧ x < a + data.length then nth data (x - a) 0 else vitByte s m x) ∧
            stnsBut n s t ∧ t = { s with regs := t.regs, free := t.free, stn := t.stn, buckets := t.buckets }))
  )

/-- R159, R160, R165, R170: at D_b an entry whose M has not come takes M: the expected slots that have neither arrived
nor been discarded are excluded, and counted and flagged. Under EXCLUDE the members with a non-finite tile are excluded
once all are complete. An abandoned entry frees its tiles, gives its notice and RED-07's flag. The model's choices in
it: log entries 53, 54. -/
def Obligations.BucketMembership : Prop :=
  ∀ (s : State) (i : Fin 4096) (e : Bucket), s.bkt i.val = some e → e.bucket % 4096 = i.val →
    let late := (List.range 16).filter (fun f =>
      s.expects e.group f && !e.contrs.any (fun c => c.slot = f) && !e.disc.contains f)
    let bad := e.contrs.filter (fun c => c.nf)
    (e.st = .open_ → e.m = none → e.deadline.toNat ≤ s.ht.toNat → ∃ t b, exec (.bucketDeadline i) s = .next t ∧
      t.bkt i.val = some b ∧ b.st = .members ∧ b.m = some s.ht ∧ b.contrs = e.contrs ∧ b.excl = (e.excl || !late.isEmpty) ∧
      (e.nfpol = false → b.settled = true ∧ b.entryCnt = e.present.length ∧ b.count = e.present.length) ∧
      (t.rg Reg.crsRedLate).toNat = min 0xFFFFFFFF ((s.rg Reg.crsRedLate).toNat + late.length) ∧
      (late ≠ [] → t.rbit Reg.htStepFlags 0 = true ∧ t.rbit Reg.crsRedStatus 2 = true) ∧
      (∀ j, j ≠ i.val → t.bkt j = s.bkt j) ∧ regsButInt [Reg.crsRedLate, Reg.htStepFlags, Reg.crsRedStatus] s t ∧
      t = { s with regs := t.regs, evts := t.evts, out := t.out, buckets := t.buckets }) ∧
    ((e.st ≠ .open_ ∨ e.m ≠ none ∨ s.ht.toNat < e.deadline.toNat) → exec (.bucketDeadline i) s = .next s) ∧
    (e.nfpol = true → e.st = .members → e.settled = false → e.contrs.all Contr.complete = true → s.redWait = [] →
      ∃ t b, exec (.excludeScan i) s = .next t ∧ t.bkt i.val = some b ∧
        b.contrs = e.contrs.map (fun c => if c.nf then { c with excl := true, data := [] } else c) ∧ b.settled = true ∧
        b.entryCnt = (e.contrs.filter (fun c => !c.excl && !c.nf)).length ∧
        (t.rg Reg.crsRedNfExcl).toNat = min 0xFFFFFFFF ((s.rg Reg.crsRedNfExcl).toNat + bad.length) ∧
        (∀ j, j ≠ i.val → t.bkt j = s.bkt j) ∧ regsBut [Reg.crsRedNfExcl] s t ∧
        t = { s with regs := t.regs, evts := t.evts, stn := t.stn, buckets := t.buckets, stgUsed := t.stgUsed }) ∧
    (∀ v, e.running = true → e.isTag s.stepCur (fld v 0 20) = true → fld v 0 20 % 4096 = i.val → s.redWait = [] →
      ∃ t, exec (.crsRedAbandon v) s = .next t ∧
        t.bkt i.val = some { e with
          st := .abandoned
          own := []
          contrs := []
          fabs := e.fabs.map (fun f => { f with data := [] }) } ∧ (∀ j, j ≠ i.val → t.bkt j = s.bkt j) ∧
        t.rbit Reg.crsRedStatus 6 = true ∧
        t.notices.head? = some ((e.step, e.bucket), e.header 1 e.excl 0 0 s.rank 10 (if e.dyn then e.hmax else 0)) ∧
        t.dram = s.dram ∧ t.prt = s.prt ∧ t.ht = s.ht) ∧
    (∀ v, fld v 0 20 % 4096 = i.val → (e.running = false ∨ e.isTag s.stepCur (fld v 0 20) = false) →
      exec (.crsRedAbandon v) s = .next s)

/-- R18, R171: in each round of the hall, in turn, a dynamic bucket's SIZE header with its count and size goes toward
the partner, and the partner's are added: the counts sum, the sizes' largest is kept. R135, R152, R157: the entry stage
gives each tile of its next chunk, once every present member's tiles of it are here, the sum of the members' tiles by
the tree over the slots, in the block of a member's tile; the members' tiles go, and with the last tile the chunk is
done. A sum that needs a block of its own waits while there is none. (The tiles' words can be read, and no two tiles
share a block.) The model's choices in it: log entries 56, 138. -/
def Obligations.SizesAndEntryStage : Prop :=
  (
  ∀ (s : State) (i : Fin 4096) (r : Fin 9) (e : Bucket), s.bkt i.val = some e → e.bucket % 4096 = i.val → e.dyn = true →
    e.settled = true → e.running = true → r.val ∈ s.rounds → e.sizeNext ≤ r.val → (∀ q ∈ s.rounds, q < r.val → q < e.sizeNext) →
    (∀ q c x, r.val ∉ e.sizeSent → e.sizes.find? (fun y => y.1 = r.val) = none → s.routeOut (s.rank ^^^ 2 ^ r.val) (s.rank + e.bucket) 3 0 = some (q, c, x) →
      ∃ t, exec (.sizeExchangeRound i r) s = .next t ∧ t.bkt i.val = some { e with sizeSent := r.val :: e.sizeSent } ∧
        (t.pt q).egress = (s.pt q).egress ++
          [⟨⟨c, x, false, s.rank ^^^ 2 ^ r.val, .bh (e.header 2 e.excl e.sizeCnt 0 s.rank (r.val + 1) e.hmax), none, []⟩, false,
            if x = 0 then none else some s.ht, s.ht⟩] ∧
        portsBut q s t ∧ (∀ j, j ≠ i.val → t.bkt j = s.bkt j) ∧ t = { s with prt := t.prt, buckets := t.buckets }) ∧
    (∀ q c h, r.val ∈ e.sizeSent → e.sizes.find? (fun y => y.1 = r.val) = some (q, c, h) →
      ∃ t, exec (.sizeExchangeRound i r) s = .next t ∧
        t.bkt i.val = some { e with sizeCnt := e.sizeCnt + c, hmax := max e.hmax h, sizeNext := r.val + 1 } ∧
        (∀ j, j ≠ i.val → t.bkt j = s.bkt j) ∧ t = { s with buckets := t.buckets })
  ) ∧
  (
  ∀ (s : State) (i : Fin 4096) (h : Nat) (e : Bucket), s.bkt i.val = some e → e.bucket % 4096 = i.val → e.running = true →
    e.settled = true → s.sized e = true → h = e.entryCh → h < s.chunks e → s.redWait = [] → (∀ m ∈ e.present, m.slot < 16) →
    let ks := s.chunkTiles e h
    let left := ks.filter (fun k => !e.entryDone k)
    let c := wfmtCode e.wfmt
    let zero : Term2 := (List.replicate (rowCap c * 64) 0, false, false)
    let term (m : Contr) (k : Nat) : Term2 := match Cells.look m.data k with | some x => s.term c k x | none => zero
    let sum (n : StnId) (k : Nat) := (treeSum c (s.ftz n) 4 ((List.range 16).map (fun f =>
      (e.present.find? (fun m => m.slot = f)).map (fun m => term m k)))).1
    let here := ∀ m ∈ e.present, ∀ k ∈ left, k < m.tiles → Cells.look m.data k ≠ none
    let tiles := left.flatMap (fun k => e.present.filterMap (fun m => (Cells.look m.data k).map (fun x => (k, x))))
    (here → (∀ x ∈ tiles, tileClean s x.1 x.2) → apart s tiles → (∀ k ∈ left, s.redStn k ≠ none ∧ ∃ m ∈ e.present, ∃ x, Cells.look m.data k = some x ∧ x.blk ≠ none) →
      ∃ t b, exec (.entryStageChunk i h) s = .next t ∧ t.bkt i.val = some b ∧ b.entryCh = h + 1 ∧
        (∀ k n x, k ∈ left → s.redStn k = some n → sum n k = some x → ∃ y, Cells.look b.own k = some y ∧
          t.tileBytes k y = payloadOf c x.1 ∧ y.nf = x.2.1 ∧ y.fz = x.2.2 ∧ y.blk ≠ none) ∧
        (∀ k, k ∉ left → Cells.look b.own k = Cells.look e.own k) ∧
        (b.nf = true ↔ e.nf = true ∨ ∃ k ∈ left, ∃ y, Cells.look b.own k = some y ∧ y.nf = true) ∧
        b.contrs = e.contrs.map (fun m => { m with data := m.data.filter (fun x => !left.contains x.1) }) ∧
        (∀ j, j ≠ i.val → t.bkt j = s.bkt j) ∧ t.dram = s.dram ∧ t.prt = s.prt ∧ t.ht = s.ht) ∧
    (∀ k r n, here → left = k :: r → s.redStn k = some n →
      (∀ m ∈ e.present, Cells.look m.data k = none) → s.allocTile n .wicket (tileKey e.bucket k 31) = none →
      exec (.entryStageChunk i h) s = .next (s.waitB e.bucket k 31)) ∧
    (¬ here → exec (.entryStageChunk i h) s = .next s)
  )

/-- R155, R157, R163: a fabric round's chunk first has the stream's header sent, with the count before the round or
ABSENT for none, then the tiles that it gives away; once the partner's partials are here each kept tile is the sum, the
lower rank's on the left. (The tiles' words can be read, and no two tiles share a block.) R164, R168, R169: after the
last round the owner's shard, scaled by the count when MEAN is 1, enters its itinerary from the reducing stations, and
the entry is DONE and counted; a bucket of no contribution sets EMPTY instead, with the notice. The model's choices in
it: log entries 54, 56, 123, 138. -/
def Obligations.FabricRoundsAndDelivery : Prop :=
  (
  ∀ (s : State) (i : Fin 4096) (r : Fin 9) (h : Nat) (e : Bucket), s.bkt i.val = some e → e.bucket % 4096 = i.val →
    e.running = true → e.settled = true → s.sized e = true → r.val ∈ s.rounds → s.stageBefore e r.val h = true →
    h = Cells.get zeroNat e.roundCh r.val → h < s.chunks e → s.redWait = [] →
    let ks := s.chunkTiles e h
    let gives := ks.filter (fun k => s.givesTile e r.val k && decide (Cells.get zeroNat e.sent r.val ≤ k))
    let keeps := ks.filter (fun k => s.keepsTile e r.val k)
    let to_ := s.rank ^^^ 2 ^ r.val
    let cnt := s.cntBefore e r.val
    let c := wfmtCode e.wfmt
    (∀ q tc x, r.val ∉ e.bhSent → gives = [] → e.fabs.find? (fun f => f.round = r.val) = none →
      s.routeOut to_ (s.rank + e.bucket) 3 0 = some (q, tc, x) →
      ∃ t, exec (.fabricRoundChunk i r h) s = .next t ∧
        t.bkt i.val = some { e with bhSent := r.val :: e.bhSent, st := .rounds } ∧
        (t.pt q).egress = (s.pt q).egress ++ [⟨⟨tc, x, false, to_,
          .bh (if cnt = 0 then e.header 1 e.excl 0 0 s.rank (r.val + 1) (if e.dyn then e.hmax else 0)
            else e.header 0 e.excl cnt (s.bucketT e) s.rank (r.val + 1) (if e.dyn then e.hmax else 0)), none, []⟩, false,
          if x = 0 then none else some s.ht, s.ht⟩] ∧
        portsBut q s t ∧ t = { s with prt := t.prt, buckets := t.buckets }) ∧
    (∀ k n y q tc x, r.val ∈ e.bhSent → gives = [k] → e.fabs.find? (fun f => f.round = r.val) = none → Cells.look e.own k = some y →
      tileClean s k y → s.redStn k = some n → s.routeOut to_ (s.rank + e.bucket) 3 0 = some (q, tc, x) →
      ∃ t b w, exec (.fabricRoundChunk i r h) s = .next t ∧ t.bkt i.val = some b ∧ Cells.look b.own k = none ∧
        (∀ j, j ≠ k → Cells.look b.own j = Cells.look e.own j) ∧ (t.pt q).egress = (s.pt q).egress ++ [⟨w, false, if x = 0 then none else some s.ht, s.ht⟩] ∧
        w.data = s.tileBytes k y ∧ w.dst = to_ ∧ w.tc = tc ∧ w.th = some (s.bucketTh e n k cnt y.nf y.fz (k + 1 == s.bucketT e)) ∧
        portsBut q s t) ∧
    (∀ f, r.val ∈ e.bhSent → gives = [] → e.fabs.find? (fun f => f.round = r.val) = some f → f.count ≠ 0 →
      (∀ k ∈ keeps, Cells.look f.data k ≠ none) → (∀ k ∈ keeps, ∀ x, Cells.look e.own k = some x → x.blk ≠ none) →
      let tiles := e.ownTiles keeps ++ keeps.filterMap (fun k => (Cells.look f.data k).map (fun y => (k, y)))
      (∀ x ∈ tiles, tileClean s x.1 x.2) → apart s tiles →
      ∃ t b, exec (.fabricRoundChunk i r h) s = .next t ∧ t.bkt i.val = some b ∧ Cells.look b.roundCh r.val = some (h + 1) ∧
        (h + 1 = s.chunks e → b.count = cnt + f.count ∧ b.stage = r.val + 1) ∧
        (∀ k n x y, k ∈ keeps → s.redStn k = some n → Cells.look e.own k = some x → Cells.look f.data k = some y →
          let a := if s.rank < f.sender then addTiles c (s.ftz n) (s.term c k x) (s.term c k y)
            else addTiles c (s.ftz n) (s.term c k y) (s.term c k x)
          Cells.look b.own k = some { x with nf := a.1.2.1, fz := a.1.2.2 } ∧ t.tileBytes k x = payloadOf c a.1.1) ∧
        (∀ k, k ∉ keeps → Cells.look b.own k = Cells.look e.own k) ∧ t.prt = s.prt ∧ t.ht = s.ht)
  ) ∧
  (
  ∀ (s : State) (i : Fin 4096) (e : Bucket), s.bkt i.val = some e → e.bucket % 4096 = i.val → e.running = true →
    e.settled = true → s.sized e = true → s.redWait = [] → e.excl = false →
    (∀ r, s.rounds.getLast? = some r → s.chunks e ≤ Cells.get zeroNat e.roundCh r) → (s.rounds = [] → s.chunks e ≤ e.entryCh) →
    let cnt := s.cntBefore e 9
    let size := s.bucketT e / s.hallD
    let c := wfmtCode e.wfmt
    let done (t : State) : Prop := t.bkt i.val = some { e with
        st := .done
        own := []
        contrs := []
        fabs := e.fabs.map (fun f => { f with data := [] }) } ∧
      (∀ j, j ≠ i.val → t.bkt j = s.bkt j) ∧
      (t.rg Reg.crsRedDone).toNat = min 0xFFFFFFFF ((s.rg Reg.crsRedDone).toNat + 1)
    (cnt = 0 → ∃ t, exec (.shardDelivery i) s = .next t ∧ done t ∧ t.rbit Reg.crsRedStatus 5 = true ∧
      t.notices.head? = some ((e.step, e.bucket), e.header 1 e.excl 0 0 s.rank 10 (if e.dyn then e.hmax else 0))) ∧
    let tiles := e.ownTiles ((List.range size).map (fun j => s.compact * size + j))
    (cnt ≠ 0 → hopKind (s.hopWord (e.outItin % 4096) 0) = 1 → (∀ x ∈ tiles, tileClean s x.1 x.2) → apart s tiles →
      (∀ x ∈ tiles, x.2.blk ≠ none) → ∃ t, exec (.shardDelivery i) s = .next t ∧ done t ∧
      ∀ j n x, j < size → s.redStn (s.compact * size + j) = some n → Cells.look e.own (s.compact * size + j) = some x →
        let elems := elemsOf c (s.tileBytes (s.compact * size + j) x)
        let scaled := if e.mean then (gather c (elems.map (fun v => mulBits c (s.ftz n) v (recipF32 cnt)))).elems else elems
        ∃ v ∈ (t.st n).voq, v.wire.data = payloadOf c scaled ∧ v.wire.th.map TH.seq = some (word (s.compact * size + j)) ∧
          v.wire.th.map TH.step = some e.step ∧ (∀ b, x.blk = some b → v.hold = .vitrine b))
  )

/-- R215 to R217: an arriving sitting header of the open step that passes its checks becomes a header-only frame at hop
0 of its itinerary, whose SEQ is the COUNT of a REQUEST, a GRANT a notice tile; a stray or malformed one is counted,
flagged and reported, and the tiles of its segment are discarded. What a GRANT or a DATA header says of its segment's
size is kept for the headers that leave (log entry 103). R194, R229, R273: of each step whose Closing has ended, in
turn, the Curator writes the summary record once, which sums the sealed contribution records of the step and counts both
kinds, to its slot and to no other byte of DRAM; a record with LOSS raises NUM-05. The model's choices in it: log
entries 59, 60, 103, 124, 128. -/
def Obligations.SittingsAndSummaries : Prop :=
  (
  ∀ (s : State) (p : PortId) (h : List Word), (s.pt p).acc = .admitted → (s.isEndpoint p = true ∨ s.isFabric p = true) →
    let n := stnOf p
    let k := shKind h
    let segment := k = 2 ∨ k = 3
    let bad : BadSeg := ⟨p, shStep h, word (shTag h), if shSenderKind h = 0 then s.rank else shSender h,
      if shTiles h * shSlices h = 0 then none else some (shTiles h * shSlices h)⟩
    (s.shBad h = none → (k = 0 ∨ k = 4) → ∀ m q, hopKind (s.hopWord (shItin h) 0) = 1 → hopTarget (s.hopWord (shItin h) 0) = m.val →
      hopQueue (s.hopWord (shItin h) 0) = q →
      ∃ t v th, exec (.sittingHeaderReceive p h) s = .next t ∧ (t.st n).voq = (s.st n).voq ++ [v] ∧ v.wire.th = some th ∧
        th.hdrOnly = true ∧ th.tagKind = 2 ∧ th.step = shStep h ∧ th.tag = word (shTag h) ∧ th.origin = shSender h ∧ th.hop = 0 ∧
        th.seq = (if k = 0 then word (shCount h) else 0) ∧ v.wire.data = [] ∧ v.land = .queue m q ∧ v.dst = m ∧ v.hold = .none ∧
        stnsBut n s t ∧ t = { s with stn := t.stn, xbar := t.xbar }) ∧
    (s.shBad h = none → k = 1 → ∀ m q, hopKind (s.hopWord (shItin h) 0) = 1 → hopTarget (s.hopWord (shItin h) 0) = m.val →
      hopQueue (s.hopWord (shItin h) 0) = q →
      ∃ t v th, exec (.sittingHeaderReceive p h) s = .next t ∧ (t.st n).voq = (s.st n).voq ++ [v] ∧ v.wire.th = some th ∧
        th.hdrOnly = false ∧ th.tagKind = 2 ∧ th.step = shStep h ∧ th.tag = word (shTag h) ∧ th.origin = shSender h ∧
        v.wire.data = fit 4096 (wordsToBytes h) ∧ v.land = .queue m q ∧ v.hold = .none ∧
        stnsBut n s t ∧ t = { s with stn := t.stn, xbar := t.xbar, sit := s.sit.note h true 0 }) ∧
    (s.shBad h = none → k = 2 → exec (.sittingHeaderReceive p h) s = .next { s with sit := s.sit.note h false (shSender h) }) ∧
    (s.shBad h = none → k = 3 → exec (.sittingHeaderReceive p h) s = .next s) ∧
    (s.shBad h = some .malformed → ∃ t, exec (.sittingHeaderReceive p h) s = .next t ∧
      (t.rg Reg.crsExpBad).toNat = min 0xFFFFFFFF ((s.rg Reg.crsExpBad).toNat + 1) ∧ t.rbit Reg.crsExpStatus 0 = true ∧
      posted ⟨.exp, 1⟩ uDevice s t ∧ regsButReports [Reg.crsExpBad, Reg.crsExpStatus] s t ∧
      (segment → t.expDisc = s.expDisc ++ [bad]) ∧ (¬ segment → t.expDisc = s.expDisc) ∧
      t = { s with regs := t.regs, evts := t.evts, out := t.out, cat := t.cat, expDisc := t.expDisc }) ∧
    (s.shBad h = some .stray → ∃ t, exec (.sittingHeaderReceive p h) s = .next t ∧
      (t.rg Reg.crsExpStray).toNat = min 0xFFFFFFFF ((s.rg Reg.crsExpStray).toNat + 1) ∧ t.rbit Reg.crsExpStatus 1 = true ∧
      posted ⟨.exp, 2⟩ (if shSenderKind h = 1 then uRemote (shSender h) else uDevice) s t ∧
      (segment → t.expDisc = s.expDisc ++ [bad]) ∧ (¬ segment → t.expDisc = s.expDisc) ∧
      t = { s with regs := t.regs, evts := t.evts, out := t.out, cat := t.cat, expDisc := t.expDisc })
  ) ∧
  (
  ∀ (s : State) (step : Word) (due : List Word), s.curReady = true →
    let w (o : Nat) : Word := word (ofLE (Cells.read zeroByte s.dram o 4))
    let recs (sumstn : Nat) : List (List Word) := ((List.range 64).map (fun n =>
      (List.range 16).map (fun i => w (sumstn * 4096 + (n * 16 + step.toNat % 16) * 64 + 4 * i)))).filter (fun r => nth r 0 0 == step)
    let good (l : List (List Word)) : List (List Word) := l.filter (fun r => fld (nth r 15 0) 0 8 == 0xA5)
    let record (l : List (List Word)) (k : Nat) : List Word := (List.range 16).map (fun i =>
      if i = 0 then step else if i ≤ k then ((good l).map (fun r => nth r i 0)).foldl (· + ·) 0
      else if i = 13 then word (l.length - (good l).length) else if i = 14 then word (good l).length
      else if i = 15 then 0xA5 else 0)
    let wrote (sumAt : Nat) (ws : List Word) (t : State) : Prop :=
      let a := sumAt * 4096 + step.toNat % 16 * 64
      ∀ x, dramByte t x = if a ≤ x ∧ x < a + 64 then nth (wordsToBytes ws) (x - a) 0 else dramByte s x
    let oroot := (s.rg64 Reg.crsOptRootLo).toNat % 2 ^ 40
    let eroot := (s.rg64 Reg.crsExpRootLo).toNat % 2 ^ 40
    let osum := fld (w (oroot + 12)) 0 28
    let esum := fld (w (eroot + 4)) 0 28
    let ows := record (recs (fld (w (oroot + 24)) 0 28)) 6
    let ews := record (recs (fld (w (eroot + 12)) 0 28)) 9
    let reads (sumstn : Nat) : Prop := ∀ n, n < 64 → dramClean s (sumstn * 4096 + (n * 16 + step.toNat % 16) * 64) 64
    (s.cur.optDue = step :: due → dramClean s (oroot + 12) 4 → dramClean s (oroot + 24) 4 → reads (fld (w (oroot + 24)) 0 28) →
      ∃ t, exec .optStepSummary s = .next t ∧ wrote osum ows t ∧ t.cur = { s.cur with optDue := due } ∧
        (t.rg Reg.crsOptRefill).toNat = min 0xFFFFFFFF ((s.rg Reg.crsOptRefill).toNat + (nth ows 6 0).toNat) ∧
        (nth ows 3 0 = 0 → nth ows 6 0 = 0 → nth ows 13 0 = 0 → t.cat = s.cat) ∧
        (nth ows 3 0 ≠ 0 → nth ows 13 0 = 0 → posted ⟨.num, 2⟩ uDevice s t) ∧ t.stn = s.stn ∧ t.prt = s.prt) ∧
    (s.cur.moeDue = step :: due → dramClean s (eroot + 4) 4 → dramClean s (eroot + 12) 4 → reads (fld (w (eroot + 12)) 0 28) →
      ∃ t, exec .moeStepSummary s = .next t ∧ wrote esum ews t ∧ t.cur = { s.cur with moeDue := due } ∧
        (nth ews 6 0 ≠ 0 → t.rbit Reg.crsExpStatus 2 = true) ∧ (nth ews 7 0 ≠ 0 → t.rbit Reg.crsExpStatus 3 = true) ∧
        (nth ews 9 0 ≠ 0 → t.rbit Reg.crsExpStatus 1 = true) ∧ (nth ews 13 0 ≠ 0 → t.rbit Reg.crsExpStatus 4 = true) ∧
        (nth ews 6 0 = 0 → nth ews 7 0 = 0 → nth ews 9 0 = 0 → nth ews 13 0 = 0 → t.cat = s.cat) ∧ t.stn = s.stn ∧ t.prt = s.prt) ∧
    (s.cur.closed ≠ none → ∃ t, exec (.exactSumLossReport true) s = .next t ∧ posted ⟨.num, 5⟩ uDevice s t ∧ regsButReports [] s t ∧
      t = { s with regs := t.regs, evts := t.evts, cat := t.cat }) ∧
    exec (.exactSumLossReport false) s = .next s ∧ (s.cur.closed = none → exec (.exactSumLossReport true) s = .next s) ∧
    (s.cur.optDue = [] → exec .optStepSummary s = .next s) ∧ (s.cur.moeDue = [] → exec .moeStepSummary s = .next s)
  )

/-- R197, R198: the Curator takes the records of the Tally ring up to its head: a mismatch is counted, named in
CRS_TAL_LAST and posted as NUM-03 with the temperature nearest its tick, a skipped sample is counted, and the tail index
follows; the layout of the ring is the model's (log entry 31). The model's choices in it: log entries 31, 124, 129. -/
def Obligations.TallyDrain : Prop :=
  ∀ s : State, s.curReady = true →
    let a := (s.rg64 Reg.crsTalRingLo).toNat % 2 ^ 40
    let size := s.rf Reg.crsTalRingSize 0 16
    let w (o : Nat) : Nat := ofLE (Cells.read zeroByte s.dram o 4)
    let head := w a
    let tail := w (a + 4)
    let r := a + 64 + tail % size * 64
    let stn := stnId (w (r + 20) % 64)
    size ≠ 0 → w (a + 8) = s.cur.talSeen → head = tail + 1 → dramClean s a 12 → dramClean s r 64 →
    let taken (t : State) : Prop :=
      ∀ x, dramByte t x = if a + 4 ≤ x ∧ x < a + 8 then nth (toLE 4 head) (x - (a + 4)) 0 else dramByte s x
    (w (r + 32) = 1 → ∃ t, exec .tallyRingDrain s = .next t ∧ taken t ∧
      (t.rg Reg.crsTalMismatch).toNat = min 0xFFFFFFFF ((s.rg Reg.crsTalMismatch).toNat + 1) ∧
      t.rg Reg.crsTalLast = word (stn.val + w (r + 12) % 4096 * 2 ^ 6) ∧ t.rbit (Reg.glbIrqPend 2) 15 = true ∧
      (s.cat.queue.length < 4095 → ∃ e ∈ t.cat.queue, e.code = ⟨.num, 3⟩ ∧ e.unit = uStn stn ∧ e.ht = s.ht ∧
        e.temp = s.tempAt stn (w r + w (r + 4) * 2 ^ 32)) ∧
      t.stn = s.stn ∧ t.prt = s.prt) ∧
    (w (r + 32) = 2 → ∃ t, exec .tallyRingDrain s = .next t ∧ taken t ∧
      (t.rg Reg.crsTalSkipped).toNat = min 0xFFFFFFFF ((s.rg Reg.crsTalSkipped).toNat + 1) ∧
      t.rg Reg.crsTalMismatch = s.rg Reg.crsTalMismatch ∧ t.cat = s.cat ∧ t.out = s.out ∧ t.stn = s.stn ∧ t.prt = s.prt)
end

