-- ==== Sys2Proof/Laws/Bits.lean ====
section
/-! SUPPORT. Laws of bit fields: what reads back from a field just set, and what the other fields keep. -/

namespace Sys2Proof.Machine

open Sys2Proof

theorem fld_eq (w : Word) (lo n : Nat) : fld w lo n = w.toNat / 2 ^ lo % 2 ^ n := by
  simp [fld, Nat.shiftRight_eq_div_pow]

theorem fld_lt (w : Word) (lo n : Nat) : fld w lo n < 2 ^ n := Nat.mod_lt _ (by positivity)

/-- The value of a word after a field is set: what stands above the field, the field, what stands below. -/
theorem setFld_toNat (w : Word) (lo n v : Nat) (h : lo + n ≤ 32) :
    (setFld w lo n v).toNat =
      w.toNat / 2 ^ (lo + n) * 2 ^ (lo + n) + (v % 2 ^ n) * 2 ^ lo + w.toNat % 2 ^ lo := by
  have hw : w.toNat < 2 ^ 32 := w.isLt
  have h1 : w.toNat = w.toNat / 2 ^ (lo + n) * 2 ^ (lo + n) + fld w lo n * 2 ^ lo + w.toNat % 2 ^ lo := by
    have a := Nat.div_add_mod w.toNat (2 ^ lo)
    have b := Nat.div_add_mod (w.toNat / 2 ^ lo) (2 ^ n)
    rw [Nat.div_div_eq_div_mul, ← pow_add] at b
    rw [fld_eq]
    calc w.toNat = 2 ^ lo * (w.toNat / 2 ^ lo) + w.toNat % 2 ^ lo := a.symm
      _ = 2 ^ lo * (2 ^ n * (w.toNat / 2 ^ (lo + n)) + w.toNat / 2 ^ lo % 2 ^ n) + w.toNat % 2 ^ lo := by rw [b]
      _ = _ := by rw [pow_add]; ring
  have hv : v % 2 ^ n < 2 ^ n := Nat.mod_lt _ (by positivity)
  have hl : w.toNat % 2 ^ lo < 2 ^ lo := Nat.mod_lt _ (by positivity)
  have hp : (2 : Nat) ^ (lo + n) = 2 ^ n * 2 ^ lo := by rw [pow_add]; ring
  have hd : w.toNat / 2 ^ (lo + n) < 2 ^ (32 - (lo + n)) := by
    rw [Nat.div_lt_iff_lt_mul (by positivity), ← pow_add]
    rwa [Nat.sub_add_cancel h]
  have hs : w.toNat - fld w lo n <<< lo + (v % 2 ^ n) <<< lo =
      w.toNat / 2 ^ (lo + n) * 2 ^ (lo + n) + (v % 2 ^ n) * 2 ^ lo + w.toNat % 2 ^ lo := by
    rw [Nat.shiftLeft_eq, Nat.shiftLeft_eq]; omega
  unfold setFld
  rw [BitVec.toNat_ofNat, hs, Nat.mod_eq_of_lt]
  have h2 : (v % 2 ^ n) * 2 ^ lo + w.toNat % 2 ^ lo < 2 ^ (lo + n) := by
    rw [hp]
    calc (v % 2 ^ n) * 2 ^ lo + w.toNat % 2 ^ lo < (v % 2 ^ n) * 2 ^ lo + 2 ^ lo := by omega
      _ = (v % 2 ^ n + 1) * 2 ^ lo := by ring
      _ ≤ 2 ^ n * 2 ^ lo := Nat.mul_le_mul_right _ hv
  calc _ < w.toNat / 2 ^ (lo + n) * 2 ^ (lo + n) + 2 ^ (lo + n) := by omega
    _ = (w.toNat / 2 ^ (lo + n) + 1) * 2 ^ (lo + n) := by ring
    _ ≤ 2 ^ (32 - (lo + n)) * 2 ^ (lo + n) := Nat.mul_le_mul_right _ hd
    _ = 2 ^ 32 := by rw [← pow_add, Nat.sub_add_cancel h]

/-- A bit of a word after a field is set. -/
theorem setFld_testBit (w : Word) (lo n v : Nat) (h : lo + n ≤ 32) (i : Nat) :
    (setFld w lo n v).toNat.testBit i =
      if lo ≤ i ∧ i < lo + n then v.testBit (i - lo) else w.toNat.testBit i := by
  rw [setFld_toNat w lo n v h]
  have hl : w.toNat % 2 ^ lo < 2 ^ lo := Nat.mod_lt _ (by positivity)
  have hv : v % 2 ^ n < 2 ^ n := Nat.mod_lt _ (by positivity)
  have hm : (v % 2 ^ n) * 2 ^ lo + w.toNat % 2 ^ lo < 2 ^ (lo + n) := by
    rw [pow_add]
    calc (v % 2 ^ n) * 2 ^ lo + w.toNat % 2 ^ lo < (v % 2 ^ n) * 2 ^ lo + 2 ^ lo := by omega
      _ = 2 ^ lo * (v % 2 ^ n + 1) := by ring
      _ ≤ 2 ^ lo * 2 ^ n := Nat.mul_le_mul_left _ hv
  rw [show w.toNat / 2 ^ (lo + n) * 2 ^ (lo + n) + v % 2 ^ n * 2 ^ lo + w.toNat % 2 ^ lo =
    2 ^ (lo + n) * (w.toNat / 2 ^ (lo + n)) + (2 ^ lo * (v % 2 ^ n) + w.toNat % 2 ^ lo) by ring]
  rw [Nat.testBit_two_pow_mul_add _ (by rw [mul_comm (2 ^ lo)]; exact hm)]
  by_cases h1 : i < lo + n
  · rw [if_pos h1, Nat.testBit_two_pow_mul_add _ hl]
    by_cases h2 : i < lo
    · rw [if_pos h2, if_neg (by omega), Nat.testBit_mod_two_pow]; simp [h2]
    · rw [if_neg h2, if_pos (by omega), Nat.testBit_mod_two_pow]
      have : i - lo < n := by omega
      simp [this]
  · rw [if_neg h1, if_neg (by omega), Nat.testBit_div_two_pow]
    congr 1; omega

/-- A field reads back what was set, cut to its width. -/
theorem fld_setFld_self (w : Word) (lo n v : Nat) (h : lo + n ≤ 32) : fld (setFld w lo n v) lo n = v % 2 ^ n := by
  apply Nat.eq_of_testBit_eq
  intro i
  rw [fld_eq, Nat.testBit_mod_two_pow, Nat.testBit_div_two_pow, setFld_testBit w lo n v h, Nat.testBit_mod_two_pow]
  by_cases hi : i < n
  · simp [hi]; intro hc; omega
  · simp [hi]

/-- A field apart from the one set keeps its value. -/
theorem fld_setFld_ne (w : Word) (lo n v a k : Nat) (h : lo + n ≤ 32) (hd : a + k ≤ lo ∨ lo + n ≤ a) :
    fld (setFld w lo n v) a k = fld w a k := by
  apply Nat.eq_of_testBit_eq
  intro i
  rw [fld_eq, fld_eq, Nat.testBit_mod_two_pow, Nat.testBit_mod_two_pow, Nat.testBit_div_two_pow,
    Nat.testBit_div_two_pow, setFld_testBit w lo n v h]
  by_cases hi : i < k
  · rw [if_neg (by omega)]
  · simp [hi]

theorem bitOf_eq (w : Word) (i : Nat) : bitOf w i = w.toNat.testBit i := rfl

/-- A bit of a word after a field is set. -/
theorem bitOf_setFld (w : Word) (lo n v i : Nat) (h : lo + n ≤ 32) :
    bitOf (setFld w lo n v) i = if lo ≤ i ∧ i < lo + n then v.testBit (i - lo) else bitOf w i := by
  rw [bitOf_eq, setFld_testBit w lo n v h, bitOf_eq]

/-- A bit just set is set. -/
theorem bitOf_set_self (w : Word) (i : Nat) (h : i < 32) : bitOf (setFld w i 1 1) i = true := by
  rw [bitOf_setFld w i 1 1 i (by omega)]; simp

/-- A bit just cleared is clear. -/
theorem bitOf_clear_self (w : Word) (i : Nat) (h : i < 32) : bitOf (setFld w i 1 0) i = false := by
  rw [bitOf_setFld w i 1 0 i (by omega)]; simp

/-- Another bit is as it was. -/
theorem bitOf_setFld_ne (w : Word) (i j v : Nat) (h : i < 32) (hj : j ≠ i) :
    bitOf (setFld w i 1 v) j = bitOf w j := by
  rw [bitOf_setFld w i 1 v j (by omega), if_neg (by omega)]

@[simp] theorem setFld_same (w : Word) (lo n : Nat) : setFld w lo n (fld w lo n) = w := by
  have hle : fld w lo n <<< lo ≤ w.toNat := by
    rw [fld_eq, Nat.shiftLeft_eq]
    calc _ ≤ w.toNat / 2 ^ lo * 2 ^ lo := Nat.mul_le_mul_right _ (Nat.mod_le _ _)
      _ ≤ _ := Nat.div_mul_le_self _ _
  unfold setFld
  rw [Nat.mod_eq_of_lt (fld_lt w lo n), Nat.sub_add_cancel hle]
  simp

end Sys2Proof.Machine
end

