-- ==== Sys2Proof/Laws/Cells.lean ====
section
/-! SUPPORT. Laws of sparse data: a read after a write, and the canonical form that every operation keeps. -/

namespace Sys2Proof.Machine

variable {α : Type}

/-! ### Reading -/

theorem Cells.get_erase_self (d : Nat → α) (m : Cells α) (k : Nat) : Cells.get d (Cells.erase m k) k = d k := by
  induction m with
  | nil => rfl
  | cons e r ih =>
    obtain ⟨a, v⟩ := e
    by_cases h : a = k
    · simp [Cells.erase, h, ih]
    · simp [Cells.erase, h, Cells.get, ih]

theorem Cells.get_erase_ne (d : Nat → α) (m : Cells α) {k j : Nat} (h : j ≠ k) :
    Cells.get d (Cells.erase m k) j = Cells.get d m j := by
  induction m with
  | nil => rfl
  | cons e r ih =>
    obtain ⟨a, v⟩ := e
    by_cases hk : a = k
    · have : a ≠ j := fun e => h (e ▸ hk)
      simp [Cells.erase, hk, Cells.get, ih]
      intro e; exact absurd e.symm h
    · simp only [Cells.erase, hk, if_false, Cells.get, ih]

theorem Cells.get_put_ne (d : Nat → α) (m : Cells α) {k j : Nat} (v : α) (h : j ≠ k) :
    Cells.get d (Cells.put m k v) j = Cells.get d m j := by
  induction m with
  | nil => simp [Cells.put, Cells.get, Ne.symm h]
  | cons e r ih =>
    obtain ⟨a, w⟩ := e
    by_cases hlt : k < a
    · simp [Cells.put, hlt, Cells.get, Ne.symm h]
    · simp [Cells.put, hlt, Cells.get, ih]

theorem Cells.get_put_erase (d : Nat → α) (m : Cells α) (k : Nat) (v : α) :
    Cells.get d (Cells.put (Cells.erase m k) k v) k = v := by
  induction m with
  | nil => simp [Cells.erase, Cells.put, Cells.get]
  | cons e r ih =>
    obtain ⟨a, w⟩ := e
    by_cases hk : a = k
    · simp [Cells.erase, hk, ih]
    · by_cases hlt : k < a
      · simp [Cells.erase, hk, Cells.put, hlt, Cells.get]
      · simp [Cells.erase, hk, Cells.put, hlt, Cells.get, ih]

/-- A read after a write to the same address gives the value written. -/
@[simp] theorem Cells.get_set_self [DecidableEq α] (d : Nat → α) (m : Cells α) (k : Nat) (v : α) :
    Cells.get d (Cells.set d m k v) k = v := by
  unfold Cells.set
  split
  · rename_i h; rw [Cells.get_erase_self]; exact h.symm
  · exact Cells.get_put_erase d m k v

/-- A write leaves every other address alone. -/
theorem Cells.get_set_ne [DecidableEq α] (d : Nat → α) (m : Cells α) {k j : Nat} (v : α) (h : j ≠ k) :
    Cells.get d (Cells.set d m k v) j = Cells.get d m j := by
  unfold Cells.set
  split
  · exact Cells.get_erase_ne d m h
  · rw [Cells.get_put_ne d _ v h, Cells.get_erase_ne d m h]

/-- What consecutive writes leave at an address. -/
theorem Cells.get_write [DecidableEq α] (d : Nat → α) (vs : List α) (m : Cells α) (k j : Nat) :
    Cells.get d (Cells.write d m k vs) j =
      if h : k ≤ j ∧ j < k + vs.length then vs[j - k]'(by omega) else Cells.get d m j := by
  induction vs generalizing m k with
  | nil => simp [Cells.write]
  | cons v vs ih =>
    rw [Cells.write, ih]
    by_cases h1 : k + 1 ≤ j ∧ j < k + 1 + vs.length
    · have h2 : k ≤ j ∧ j < k + (v :: vs).length := by simp; omega
      rw [dif_pos h1, dif_pos h2]
      have : j - k = (j - (k + 1)) + 1 := by omega
      simp [this]
    · rw [dif_neg h1]
      by_cases h3 : j = k
      · subst h3
        have h2 : j ≤ j ∧ j < j + (v :: vs).length := by simp
        rw [dif_pos h2]; simp
      · have h2 : ¬(k ≤ j ∧ j < k + (v :: vs).length) := by simp at h1 ⊢; omega
        rw [dif_neg h2, Cells.get_set_ne d m v h3]

/-- A write of a run of values leaves every address outside the run alone. -/
theorem Cells.get_write_outside [DecidableEq α] (d : Nat → α) (vs : List α) (m : Cells α) (k j : Nat)
    (h : j < k ∨ k + vs.length ≤ j) : Cells.get d (Cells.write d m k vs) j = Cells.get d m j := by
  rw [Cells.get_write, dif_neg (by omega)]

/-- Reading back the run just written. -/
theorem Cells.read_write [DecidableEq α] (d : Nat → α) (vs : List α) (m : Cells α) (k : Nat) :
    Cells.read d (Cells.write d m k vs) k vs.length = vs := by
  have key : ∀ (n i : Nat), i + n = vs.length →
      Cells.read d (Cells.write d m k vs) (k + i) n = vs.drop i := by
    intro n
    induction n with
    | zero => intro i hi; have : vs.length ≤ i := by omega
              simp [Cells.read, List.drop_eq_nil_of_le this]
    | succ n ih =>
      intro i hi
      rw [Cells.read, Cells.get_write, dif_pos (by omega)]
      have := ih (i + 1) (by omega)
      rw [← Nat.add_assoc] at this
      rw [this, List.drop_eq_getElem_cons (l := vs) (i := i) (by omega)]
      simp
  have := key vs.length 0 (by simp)
  simpa using this

/-! ### The canonical form -/

section
variable [DecidableEq α]

theorem Cells.wfFrom_weaken (d : Nat → α) {m : Cells α} {l : Nat} {o : Option Nat}
    (ho : ∀ x, o = some x → x ≤ l) (h : Cells.wfFrom d (some l) m = true) : Cells.wfFrom d o m = true := by
  cases m with
  | nil => cases o <;> rfl
  | cons e r =>
    obtain ⟨a, v⟩ := e
    cases o with
    | none => simp [Cells.wfFrom] at h ⊢; exact ⟨h.1.2, h.2⟩
    | some x => have := ho x rfl; simp [Cells.wfFrom] at h ⊢; exact ⟨⟨by omega, h.1.2⟩, h.2⟩

theorem Cells.wfFrom_tail (d : Nat → α) {m : Cells α} {a : Nat} {v : α} {o : Option Nat}
    (h : Cells.wfFrom d o ((a, v) :: m) = true) : Cells.wfFrom d (some a) m = true := by
  cases o <;> simp [Cells.wfFrom] at h <;> exact h.2

theorem Cells.erase_wfFrom (d : Nat → α) (m : Cells α) (k : Nat) (o : Option Nat)
    (h : Cells.wfFrom d o m = true) : Cells.wfFrom d o (Cells.erase m k) = true := by
  induction m generalizing o with
  | nil => exact h
  | cons e r ih =>
    obtain ⟨a, v⟩ := e
    by_cases hk : a = k
    · simp only [Cells.erase, hk, if_true]
      refine ih o (Cells.wfFrom_weaken d ?_ (Cells.wfFrom_tail d h))
      intro x hx; subst hx; simp [Cells.wfFrom] at h; omega
    · simp only [Cells.erase, hk, if_false]
      have ht := ih (some a) (Cells.wfFrom_tail d h)
      cases o <;> simp [Cells.wfFrom] at h ⊢
      · exact ⟨h.1, ht⟩
      · exact ⟨h.1, ht⟩

omit [DecidableEq α] in
theorem Cells.erase_look (m : Cells α) (k : Nat) : Cells.look (Cells.erase m k) k = none := by
  induction m with
  | nil => rfl
  | cons e r ih =>
    obtain ⟨a, v⟩ := e
    by_cases hk : a = k <;> simp [Cells.erase, hk, Cells.look, ih]

theorem Cells.put_wfFrom (d : Nat → α) (m : Cells α) (k : Nat) (v : α) (o : Option Nat) (hv : v ≠ d k)
    (hl : Cells.look m k = none) (ho : ∀ x, o = some x → x < k) (h : Cells.wfFrom d o m = true) :
    Cells.wfFrom d o (Cells.put m k v) = true := by
  induction m generalizing o with
  | nil =>
    cases o with
    | none => simp [Cells.put, Cells.wfFrom, hv]
    | some x => simp [Cells.put, Cells.wfFrom, hv, ho x rfl]
  | cons e r ih =>
    obtain ⟨a, w⟩ := e
    have hak : a ≠ k := by intro e; simp [Cells.look, e] at hl
    by_cases hlt : k < a
    · simp only [Cells.put, hlt, if_true]
      cases o with
      | none => simp [Cells.wfFrom] at h ⊢; exact ⟨hv, ⟨hlt, h.1⟩, h.2⟩
      | some x => simp [Cells.wfFrom] at h ⊢; exact ⟨⟨ho x rfl, hv⟩, ⟨hlt, h.1.2⟩, h.2⟩
    · simp only [Cells.put, hlt, if_false]
      have ht := ih (some a) (by simpa [Cells.look, hak] using hl)
        (by intro x hx; injection hx with hx; omega) (Cells.wfFrom_tail d h)
      cases o with
      | none => simp [Cells.wfFrom] at h ⊢; exact ⟨h.1, ht⟩
      | some x => simp [Cells.wfFrom] at h ⊢; exact ⟨h.1, ht⟩

/-- A write keeps the canonical form. -/
theorem Cells.set_wf (d : Nat → α) (m : Cells α) (k : Nat) (v : α) (h : Cells.wf d m = true) :
    Cells.wf d (Cells.set d m k v) = true := by
  unfold Cells.set
  split
  · exact Cells.erase_wfFrom d m k none h
  · rename_i hv
    exact Cells.put_wfFrom d _ k v none hv (Cells.erase_look m k) (by simp) (Cells.erase_wfFrom d m k none h)

/-- A write of a run of values keeps the canonical form. -/
theorem Cells.write_wf (d : Nat → α) (vs : List α) (m : Cells α) (k : Nat) (h : Cells.wf d m = true) :
    Cells.wf d (Cells.write d m k vs) = true := by
  induction vs generalizing m k with
  | nil => exact h
  | cons v vs ih => exact ih _ _ (Cells.set_wf d m k v h)

theorem Cells.filter_wfFrom (d : Nat → α) (p : Nat × α → Bool) (m : Cells α) (o : Option Nat)
    (h : Cells.wfFrom d o m = true) : Cells.wfFrom d o (m.filter p) = true := by
  induction m generalizing o with
  | nil => exact h
  | cons e r ih =>
    obtain ⟨a, v⟩ := e
    have ht := Cells.wfFrom_tail d h
    by_cases hp : p (a, v) = true
    · rw [List.filter_cons_of_pos hp]
      have h2 := ih (some a) ht
      cases o <;> simp [Cells.wfFrom] at h ⊢
      · exact ⟨h.1, h2⟩
      · exact ⟨h.1, h2⟩
    · rw [List.filter_cons_of_neg hp]
      refine ih o (Cells.wfFrom_weaken d ?_ ht)
      intro x hx; subst hx; simp [Cells.wfFrom] at h; omega

/-- Dropping entries keeps the canonical form. -/
theorem Cells.filter_wf (d : Nat → α) (p : Nat × α → Bool) (m : Cells α) (h : Cells.wf d m = true) :
    Cells.wf d (m.filter p) = true := Cells.filter_wfFrom d p m none h

/-- Empty data are canonical. -/
@[simp] theorem Cells.wf_nil (d : Nat → α) : Cells.wf d ([] : Cells α) = true := rfl

end

end Sys2Proof.Machine
end

