-- ==== Sys2Proof/Laws/State.lean ====
section
/-! SUPPORT. Laws of the updates of a state: what each leaves as it was, and what reads back. -/

namespace Sys2Proof.Machine

open Sys2Proof

/-! ### What an update leaves alone -/

/-- Setting a register changes the registers only. -/
@[simp] theorem State.setRg_frame (s : State) (a : Nat) (v : Word) :
    (s.setRg a v).pending = s.pending ∧ (s.setRg a v).out = s.out ∧ (s.setRg a v).free = s.free ∧
    (s.setRg a v).ht = s.ht ∧ (s.setRg a v).cycle = s.cycle ∧ (s.setRg a v).counting = s.counting ∧
    (s.setRg a v).heldHi = s.heldHi ∧ (s.setRg a v).capHi = s.capHi ∧ (s.setRg a v).evts = s.evts ∧
    (s.setRg a v).clk = s.clk ∧ (s.setRg a v).txnHost = s.txnHost ∧ (s.setRg a v).txnCur = s.txnCur ∧
    (s.setRg a v).stn = s.stn ∧ (s.setRg a v).prt = s.prt ∧ (s.setRg a v).stk = s.stk ∧
    (s.setRg a v).dram = s.dram ∧ (s.setRg a v).dramBad = s.dramBad ∧ (s.setRg a v).bar2 = s.bar2 ∧
    (s.setRg a v).pcie = s.pcie ∧ (s.setRg a v).flash = s.flash ∧ (s.setRg a v).xbar = s.xbar ∧
    (s.setRg a v).buckets = s.buckets ∧ (s.setRg a v).redDisc = s.redDisc ∧ (s.setRg a v).redWait = s.redWait ∧
    (s.setRg a v).redStray = s.redStray ∧ (s.setRg a v).notices = s.notices ∧ (s.setRg a v).stgUsed = s.stgUsed ∧
    (s.setRg a v).expDisc = s.expDisc ∧ (s.setRg a v).sit = s.sit ∧ (s.setRg a v).cat = s.cat ∧
    (s.setRg a v).cur = s.cur ∧ (s.setRg a v).img = s.img ∧ (s.setRg a v).plt = s.plt := by
  and_intros <;> exact rfl

/-- Setting a field changes the registers only. -/
@[simp] theorem State.setRf_frame (s : State) (a lo n v : Nat) :
    (s.setRf a lo n v).pending = s.pending ∧ (s.setRf a lo n v).out = s.out ∧ (s.setRf a lo n v).free = s.free ∧
    (s.setRf a lo n v).ht = s.ht ∧ (s.setRf a lo n v).cycle = s.cycle ∧ (s.setRf a lo n v).counting = s.counting ∧
    (s.setRf a lo n v).heldHi = s.heldHi ∧ (s.setRf a lo n v).capHi = s.capHi ∧ (s.setRf a lo n v).evts = s.evts ∧
    (s.setRf a lo n v).clk = s.clk ∧ (s.setRf a lo n v).txnHost = s.txnHost ∧ (s.setRf a lo n v).txnCur = s.txnCur ∧
    (s.setRf a lo n v).stn = s.stn ∧ (s.setRf a lo n v).prt = s.prt ∧ (s.setRf a lo n v).stk = s.stk ∧
    (s.setRf a lo n v).dram = s.dram ∧ (s.setRf a lo n v).dramBad = s.dramBad ∧ (s.setRf a lo n v).bar2 = s.bar2 ∧
    (s.setRf a lo n v).pcie = s.pcie ∧ (s.setRf a lo n v).flash = s.flash ∧ (s.setRf a lo n v).xbar = s.xbar ∧
    (s.setRf a lo n v).buckets = s.buckets ∧ (s.setRf a lo n v).redDisc = s.redDisc ∧ (s.setRf a lo n v).redWait = s.redWait ∧
    (s.setRf a lo n v).redStray = s.redStray ∧ (s.setRf a lo n v).notices = s.notices ∧ (s.setRf a lo n v).stgUsed = s.stgUsed ∧
    (s.setRf a lo n v).expDisc = s.expDisc ∧ (s.setRf a lo n v).sit = s.sit ∧ (s.setRf a lo n v).cat = s.cat ∧
    (s.setRf a lo n v).cur = s.cur ∧ (s.setRf a lo n v).img = s.img ∧ (s.setRf a lo n v).plt = s.plt := by
  and_intros <;> exact rfl

/-- Setting a pair changes the registers only. -/
@[simp] theorem State.setRg64_frame (s : State) (a : Nat) (v : DWord) :
    (s.setRg64 a v).pending = s.pending ∧ (s.setRg64 a v).out = s.out ∧ (s.setRg64 a v).free = s.free ∧
    (s.setRg64 a v).ht = s.ht ∧ (s.setRg64 a v).cycle = s.cycle ∧ (s.setRg64 a v).counting = s.counting ∧
    (s.setRg64 a v).heldHi = s.heldHi ∧ (s.setRg64 a v).capHi = s.capHi ∧ (s.setRg64 a v).evts = s.evts ∧
    (s.setRg64 a v).clk = s.clk ∧ (s.setRg64 a v).txnHost = s.txnHost ∧ (s.setRg64 a v).txnCur = s.txnCur ∧
    (s.setRg64 a v).stn = s.stn ∧ (s.setRg64 a v).prt = s.prt ∧ (s.setRg64 a v).stk = s.stk ∧
    (s.setRg64 a v).dram = s.dram ∧ (s.setRg64 a v).dramBad = s.dramBad ∧ (s.setRg64 a v).bar2 = s.bar2 ∧
    (s.setRg64 a v).pcie = s.pcie ∧ (s.setRg64 a v).flash = s.flash ∧ (s.setRg64 a v).xbar = s.xbar ∧
    (s.setRg64 a v).buckets = s.buckets ∧ (s.setRg64 a v).redDisc = s.redDisc ∧ (s.setRg64 a v).redWait = s.redWait ∧
    (s.setRg64 a v).redStray = s.redStray ∧ (s.setRg64 a v).notices = s.notices ∧ (s.setRg64 a v).stgUsed = s.stgUsed ∧
    (s.setRg64 a v).expDisc = s.expDisc ∧ (s.setRg64 a v).sit = s.sit ∧ (s.setRg64 a v).cat = s.cat ∧
    (s.setRg64 a v).cur = s.cur ∧ (s.setRg64 a v).img = s.img ∧ (s.setRg64 a v).plt = s.plt := by
  and_intros <;> exact rfl

/-- What the device does to a register changes the registers and what they were only. -/
@[simp] theorem State.event_frame (s : State) (a : Nat) (f : Word → Word) :
    (s.event a f).pending = s.pending ∧ (s.event a f).out = s.out ∧ (s.event a f).free = s.free ∧
    (s.event a f).ht = s.ht ∧ (s.event a f).cycle = s.cycle ∧ (s.event a f).counting = s.counting ∧
    (s.event a f).heldHi = s.heldHi ∧ (s.event a f).capHi = s.capHi ∧ (s.event a f).clk = s.clk ∧
    (s.event a f).txnHost = s.txnHost ∧ (s.event a f).txnCur = s.txnCur ∧ (s.event a f).stn = s.stn ∧
    (s.event a f).prt = s.prt ∧ (s.event a f).stk = s.stk ∧ (s.event a f).dram = s.dram ∧
    (s.event a f).dramBad = s.dramBad ∧ (s.event a f).bar2 = s.bar2 ∧ (s.event a f).pcie = s.pcie ∧
    (s.event a f).flash = s.flash ∧ (s.event a f).xbar = s.xbar ∧ (s.event a f).buckets = s.buckets ∧
    (s.event a f).redDisc = s.redDisc ∧ (s.event a f).redWait = s.redWait ∧ (s.event a f).redStray = s.redStray ∧
    (s.event a f).notices = s.notices ∧ (s.event a f).stgUsed = s.stgUsed ∧ (s.event a f).expDisc = s.expDisc ∧
    (s.event a f).sit = s.sit ∧ (s.event a f).cat = s.cat ∧ (s.event a f).cur = s.cur ∧
    (s.event a f).img = s.img ∧ (s.event a f).plt = s.plt := by
  and_intros <;> exact rfl

/-- Setting a status bit changes the registers and what they were only. -/
@[simp] theorem State.setBitEvt_frame (s : State) (a i : Nat) :
    (s.setBitEvt a i).pending = s.pending ∧ (s.setBitEvt a i).out = s.out ∧ (s.setBitEvt a i).free = s.free ∧
    (s.setBitEvt a i).ht = s.ht ∧ (s.setBitEvt a i).cycle = s.cycle ∧ (s.setBitEvt a i).counting = s.counting ∧
    (s.setBitEvt a i).heldHi = s.heldHi ∧ (s.setBitEvt a i).capHi = s.capHi ∧ (s.setBitEvt a i).clk = s.clk ∧
    (s.setBitEvt a i).txnHost = s.txnHost ∧ (s.setBitEvt a i).txnCur = s.txnCur ∧ (s.setBitEvt a i).stn = s.stn ∧
    (s.setBitEvt a i).prt = s.prt ∧ (s.setBitEvt a i).stk = s.stk ∧ (s.setBitEvt a i).dram = s.dram ∧
    (s.setBitEvt a i).dramBad = s.dramBad ∧ (s.setBitEvt a i).bar2 = s.bar2 ∧ (s.setBitEvt a i).pcie = s.pcie ∧
    (s.setBitEvt a i).flash = s.flash ∧ (s.setBitEvt a i).xbar = s.xbar ∧ (s.setBitEvt a i).buckets = s.buckets ∧
    (s.setBitEvt a i).redDisc = s.redDisc ∧ (s.setBitEvt a i).redWait = s.redWait ∧ (s.setBitEvt a i).redStray = s.redStray ∧
    (s.setBitEvt a i).notices = s.notices ∧ (s.setBitEvt a i).stgUsed = s.stgUsed ∧ (s.setBitEvt a i).expDisc = s.expDisc ∧
    (s.setBitEvt a i).sit = s.sit ∧ (s.setBitEvt a i).cat = s.cat ∧ (s.setBitEvt a i).cur = s.cur ∧
    (s.setBitEvt a i).img = s.img ∧ (s.setBitEvt a i).plt = s.plt := by
  and_intros <;> exact rfl

/-- Counting changes the registers and what they were only. -/
@[simp] theorem State.addSat_frame (s : State) (a n : Nat) :
    (s.addSat a n).pending = s.pending ∧ (s.addSat a n).out = s.out ∧ (s.addSat a n).free = s.free ∧
    (s.addSat a n).ht = s.ht ∧ (s.addSat a n).cycle = s.cycle ∧ (s.addSat a n).counting = s.counting ∧
    (s.addSat a n).heldHi = s.heldHi ∧ (s.addSat a n).capHi = s.capHi ∧ (s.addSat a n).clk = s.clk ∧
    (s.addSat a n).txnHost = s.txnHost ∧ (s.addSat a n).txnCur = s.txnCur ∧ (s.addSat a n).stn = s.stn ∧
    (s.addSat a n).prt = s.prt ∧ (s.addSat a n).stk = s.stk ∧ (s.addSat a n).dram = s.dram ∧
    (s.addSat a n).dramBad = s.dramBad ∧ (s.addSat a n).bar2 = s.bar2 ∧ (s.addSat a n).pcie = s.pcie ∧
    (s.addSat a n).flash = s.flash ∧ (s.addSat a n).xbar = s.xbar ∧ (s.addSat a n).buckets = s.buckets ∧
    (s.addSat a n).redDisc = s.redDisc ∧ (s.addSat a n).redWait = s.redWait ∧ (s.addSat a n).redStray = s.redStray ∧
    (s.addSat a n).notices = s.notices ∧ (s.addSat a n).stgUsed = s.stgUsed ∧ (s.addSat a n).expDisc = s.expDisc ∧
    (s.addSat a n).sit = s.sit ∧ (s.addSat a n).cat = s.cat ∧ (s.addSat a n).cur = s.cur ∧
    (s.addSat a n).img = s.img ∧ (s.addSat a n).plt = s.plt := by
  and_intros <;> exact rfl

/-- Counting changes the registers and what they were only. -/
@[simp] theorem State.inc_frame (s : State) (a : Nat) :
    (s.inc a).pending = s.pending ∧ (s.inc a).out = s.out ∧ (s.inc a).free = s.free ∧
    (s.inc a).ht = s.ht ∧ (s.inc a).cycle = s.cycle ∧ (s.inc a).counting = s.counting ∧
    (s.inc a).heldHi = s.heldHi ∧ (s.inc a).capHi = s.capHi ∧ (s.inc a).clk = s.clk ∧
    (s.inc a).txnHost = s.txnHost ∧ (s.inc a).txnCur = s.txnCur ∧ (s.inc a).stn = s.stn ∧
    (s.inc a).prt = s.prt ∧ (s.inc a).stk = s.stk ∧ (s.inc a).dram = s.dram ∧
    (s.inc a).dramBad = s.dramBad ∧ (s.inc a).bar2 = s.bar2 ∧ (s.inc a).pcie = s.pcie ∧
    (s.inc a).flash = s.flash ∧ (s.inc a).xbar = s.xbar ∧ (s.inc a).buckets = s.buckets ∧
    (s.inc a).redDisc = s.redDisc ∧ (s.inc a).redWait = s.redWait ∧ (s.inc a).redStray = s.redStray ∧
    (s.inc a).notices = s.notices ∧ (s.inc a).stgUsed = s.stgUsed ∧ (s.inc a).expDisc = s.expDisc ∧
    (s.inc a).sit = s.sit ∧ (s.inc a).cat = s.cat ∧ (s.inc a).cur = s.cur ∧
    (s.inc a).img = s.img ∧ (s.inc a).plt = s.plt := by
  and_intros <;> exact rfl

/-- Replacing a station changes the stations only. -/
@[simp] theorem State.setSt_frame (s : State) (n : StnId) (x : Stn) :
    (s.setSt n x).pending = s.pending ∧ (s.setSt n x).out = s.out ∧ (s.setSt n x).free = s.free ∧
    (s.setSt n x).ht = s.ht ∧ (s.setSt n x).cycle = s.cycle ∧ (s.setSt n x).counting = s.counting ∧
    (s.setSt n x).regs = s.regs ∧ (s.setSt n x).heldHi = s.heldHi ∧ (s.setSt n x).capHi = s.capHi ∧
    (s.setSt n x).evts = s.evts ∧ (s.setSt n x).clk = s.clk ∧ (s.setSt n x).txnHost = s.txnHost ∧
    (s.setSt n x).txnCur = s.txnCur ∧ (s.setSt n x).prt = s.prt ∧ (s.setSt n x).stk = s.stk ∧
    (s.setSt n x).dram = s.dram ∧ (s.setSt n x).dramBad = s.dramBad ∧ (s.setSt n x).bar2 = s.bar2 ∧
    (s.setSt n x).pcie = s.pcie ∧ (s.setSt n x).flash = s.flash ∧ (s.setSt n x).xbar = s.xbar ∧
    (s.setSt n x).buckets = s.buckets ∧ (s.setSt n x).redDisc = s.redDisc ∧ (s.setSt n x).redWait = s.redWait ∧
    (s.setSt n x).redStray = s.redStray ∧ (s.setSt n x).notices = s.notices ∧ (s.setSt n x).stgUsed = s.stgUsed ∧
    (s.setSt n x).expDisc = s.expDisc ∧ (s.setSt n x).sit = s.sit ∧ (s.setSt n x).cat = s.cat ∧
    (s.setSt n x).cur = s.cur ∧ (s.setSt n x).img = s.img ∧ (s.setSt n x).plt = s.plt := by
  and_intros <;> exact rfl

/-- Changing a station changes the stations only. -/
@[simp] theorem State.modSt_frame (s : State) (n : StnId) (f : Stn → Stn) :
    (s.modSt n f).pending = s.pending ∧ (s.modSt n f).out = s.out ∧ (s.modSt n f).free = s.free ∧
    (s.modSt n f).ht = s.ht ∧ (s.modSt n f).cycle = s.cycle ∧ (s.modSt n f).counting = s.counting ∧
    (s.modSt n f).regs = s.regs ∧ (s.modSt n f).heldHi = s.heldHi ∧ (s.modSt n f).capHi = s.capHi ∧
    (s.modSt n f).evts = s.evts ∧ (s.modSt n f).clk = s.clk ∧ (s.modSt n f).txnHost = s.txnHost ∧
    (s.modSt n f).txnCur = s.txnCur ∧ (s.modSt n f).prt = s.prt ∧ (s.modSt n f).stk = s.stk ∧
    (s.modSt n f).dram = s.dram ∧ (s.modSt n f).dramBad = s.dramBad ∧ (s.modSt n f).bar2 = s.bar2 ∧
    (s.modSt n f).pcie = s.pcie ∧ (s.modSt n f).flash = s.flash ∧ (s.modSt n f).xbar = s.xbar ∧
    (s.modSt n f).buckets = s.buckets ∧ (s.modSt n f).redDisc = s.redDisc ∧ (s.modSt n f).redWait = s.redWait ∧
    (s.modSt n f).redStray = s.redStray ∧ (s.modSt n f).notices = s.notices ∧ (s.modSt n f).stgUsed = s.stgUsed ∧
    (s.modSt n f).expDisc = s.expDisc ∧ (s.modSt n f).sit = s.sit ∧ (s.modSt n f).cat = s.cat ∧
    (s.modSt n f).cur = s.cur ∧ (s.modSt n f).img = s.img ∧ (s.modSt n f).plt = s.plt := by
  and_intros <;> exact rfl

/-- Replacing a port changes the ports only. -/
@[simp] theorem State.setPt_frame (s : State) (p : PortId) (x : Prt) :
    (s.setPt p x).pending = s.pending ∧ (s.setPt p x).out = s.out ∧ (s.setPt p x).free = s.free ∧
    (s.setPt p x).ht = s.ht ∧ (s.setPt p x).cycle = s.cycle ∧ (s.setPt p x).counting = s.counting ∧
    (s.setPt p x).regs = s.regs ∧ (s.setPt p x).heldHi = s.heldHi ∧ (s.setPt p x).capHi = s.capHi ∧
    (s.setPt p x).evts = s.evts ∧ (s.setPt p x).clk = s.clk ∧ (s.setPt p x).txnHost = s.txnHost ∧
    (s.setPt p x).txnCur = s.txnCur ∧ (s.setPt p x).stn = s.stn ∧ (s.setPt p x).stk = s.stk ∧
    (s.setPt p x).dram = s.dram ∧ (s.setPt p x).dramBad = s.dramBad ∧ (s.setPt p x).bar2 = s.bar2 ∧
    (s.setPt p x).pcie = s.pcie ∧ (s.setPt p x).flash = s.flash ∧ (s.setPt p x).xbar = s.xbar ∧
    (s.setPt p x).buckets = s.buckets ∧ (s.setPt p x).redDisc = s.redDisc ∧ (s.setPt p x).redWait = s.redWait ∧
    (s.setPt p x).redStray = s.redStray ∧ (s.setPt p x).notices = s.notices ∧ (s.setPt p x).stgUsed = s.stgUsed ∧
    (s.setPt p x).expDisc = s.expDisc ∧ (s.setPt p x).sit = s.sit ∧ (s.setPt p x).cat = s.cat ∧
    (s.setPt p x).cur = s.cur ∧ (s.setPt p x).img = s.img ∧ (s.setPt p x).plt = s.plt := by
  and_intros <;> exact rfl

/-- Changing a port changes the ports only. -/
@[simp] theorem State.modPt_frame (s : State) (p : PortId) (f : Prt → Prt) :
    (s.modPt p f).pending = s.pending ∧ (s.modPt p f).out = s.out ∧ (s.modPt p f).free = s.free ∧
    (s.modPt p f).ht = s.ht ∧ (s.modPt p f).cycle = s.cycle ∧ (s.modPt p f).counting = s.counting ∧
    (s.modPt p f).regs = s.regs ∧ (s.modPt p f).heldHi = s.heldHi ∧ (s.modPt p f).capHi = s.capHi ∧
    (s.modPt p f).evts = s.evts ∧ (s.modPt p f).clk = s.clk ∧ (s.modPt p f).txnHost = s.txnHost ∧
    (s.modPt p f).txnCur = s.txnCur ∧ (s.modPt p f).stn = s.stn ∧ (s.modPt p f).stk = s.stk ∧
    (s.modPt p f).dram = s.dram ∧ (s.modPt p f).dramBad = s.dramBad ∧ (s.modPt p f).bar2 = s.bar2 ∧
    (s.modPt p f).pcie = s.pcie ∧ (s.modPt p f).flash = s.flash ∧ (s.modPt p f).xbar = s.xbar ∧
    (s.modPt p f).buckets = s.buckets ∧ (s.modPt p f).redDisc = s.redDisc ∧ (s.modPt p f).redWait = s.redWait ∧
    (s.modPt p f).redStray = s.redStray ∧ (s.modPt p f).notices = s.notices ∧ (s.modPt p f).stgUsed = s.stgUsed ∧
    (s.modPt p f).expDisc = s.expDisc ∧ (s.modPt p f).sit = s.sit ∧ (s.modPt p f).cat = s.cat ∧
    (s.modPt p f).cur = s.cur ∧ (s.modPt p f).img = s.img ∧ (s.modPt p f).plt = s.plt := by
  and_intros <;> exact rfl

/-- Changing a stack changes the stacks only. -/
@[simp] theorem State.modSk_frame (s : State) (k : StackId) (f : Stk → Stk) :
    (s.modSk k f).pending = s.pending ∧ (s.modSk k f).out = s.out ∧ (s.modSk k f).free = s.free ∧
    (s.modSk k f).ht = s.ht ∧ (s.modSk k f).cycle = s.cycle ∧ (s.modSk k f).counting = s.counting ∧
    (s.modSk k f).regs = s.regs ∧ (s.modSk k f).heldHi = s.heldHi ∧ (s.modSk k f).capHi = s.capHi ∧
    (s.modSk k f).evts = s.evts ∧ (s.modSk k f).clk = s.clk ∧ (s.modSk k f).txnHost = s.txnHost ∧
    (s.modSk k f).txnCur = s.txnCur ∧ (s.modSk k f).stn = s.stn ∧ (s.modSk k f).prt = s.prt ∧
    (s.modSk k f).dram = s.dram ∧ (s.modSk k f).dramBad = s.dramBad ∧ (s.modSk k f).bar2 = s.bar2 ∧
    (s.modSk k f).pcie = s.pcie ∧ (s.modSk k f).flash = s.flash ∧ (s.modSk k f).xbar = s.xbar ∧
    (s.modSk k f).buckets = s.buckets ∧ (s.modSk k f).redDisc = s.redDisc ∧ (s.modSk k f).redWait = s.redWait ∧
    (s.modSk k f).redStray = s.redStray ∧ (s.modSk k f).notices = s.notices ∧ (s.modSk k f).stgUsed = s.stgUsed ∧
    (s.modSk k f).expDisc = s.expDisc ∧ (s.modSk k f).sit = s.sit ∧ (s.modSk k f).cat = s.cat ∧
    (s.modSk k f).cur = s.cur ∧ (s.modSk k f).img = s.img ∧ (s.modSk k f).plt = s.plt := by
  and_intros <;> exact rfl

/-- Sending changes the log of what was sent only. -/
@[simp] theorem State.emit_frame (s : State) (o : Out) :
    (s.emit o).pending = s.pending ∧ (s.emit o).free = s.free ∧ (s.emit o).ht = s.ht ∧
    (s.emit o).cycle = s.cycle ∧ (s.emit o).counting = s.counting ∧ (s.emit o).regs = s.regs ∧
    (s.emit o).heldHi = s.heldHi ∧ (s.emit o).capHi = s.capHi ∧ (s.emit o).evts = s.evts ∧
    (s.emit o).clk = s.clk ∧ (s.emit o).txnHost = s.txnHost ∧ (s.emit o).txnCur = s.txnCur ∧
    (s.emit o).stn = s.stn ∧ (s.emit o).prt = s.prt ∧ (s.emit o).stk = s.stk ∧
    (s.emit o).dram = s.dram ∧ (s.emit o).dramBad = s.dramBad ∧ (s.emit o).bar2 = s.bar2 ∧
    (s.emit o).pcie = s.pcie ∧ (s.emit o).flash = s.flash ∧ (s.emit o).xbar = s.xbar ∧
    (s.emit o).buckets = s.buckets ∧ (s.emit o).redDisc = s.redDisc ∧ (s.emit o).redWait = s.redWait ∧
    (s.emit o).redStray = s.redStray ∧ (s.emit o).notices = s.notices ∧ (s.emit o).stgUsed = s.stgUsed ∧
    (s.emit o).expDisc = s.expDisc ∧ (s.emit o).sit = s.sit ∧ (s.emit o).cat = s.cat ∧
    (s.emit o).cur = s.cur ∧ (s.emit o).img = s.img ∧ (s.emit o).plt = s.plt := by
  and_intros <;> exact rfl

/-- Two states with equal fields are equal. -/
theorem State.eq_of {s t : State} (h0 : s.pending = t.pending) (h1 : s.out = t.out) (h2 : s.free = t.free) (h3 : s.ht = t.ht) (h4 : s.cycle = t.cycle) (h5 : s.counting = t.counting) (h6 : s.regs = t.regs) (h7 : s.heldHi = t.heldHi) (h8 : s.capHi = t.capHi) (h9 : s.evts = t.evts) (h10 : s.clk = t.clk) (h11 : s.txnHost = t.txnHost) (h12 : s.txnCur = t.txnCur) (h13 : s.stn = t.stn) (h14 : s.prt = t.prt) (h15 : s.stk = t.stk) (h16 : s.dram = t.dram) (h17 : s.dramBad = t.dramBad) (h18 : s.bar2 = t.bar2) (h19 : s.pcie = t.pcie) (h20 : s.flash = t.flash) (h21 : s.xbar = t.xbar) (h22 : s.buckets = t.buckets) (h23 : s.redDisc = t.redDisc) (h24 : s.redWait = t.redWait) (h25 : s.redStray = t.redStray) (h26 : s.notices = t.notices) (h27 : s.stgUsed = t.stgUsed) (h28 : s.expDisc = t.expDisc) (h29 : s.sit = t.sit) (h30 : s.cat = t.cat) (h31 : s.cur = t.cur) (h32 : s.img = t.img) (h33 : s.plt = t.plt) : s = t := by
  cases s; cases t
  simp only [State.mk.injEq]
  exact ⟨h0, h1, h2, h3, h4, h5, h6, h7, h8, h9, h10, h11, h12, h13, h14, h15, h16, h17, h18, h19, h20, h21, h22, h23, h24, h25, h26, h27, h28, h29, h30, h31, h32, h33⟩

/-! ### What reads back -/

@[simp] theorem State.rg_setRg_self (s : State) (a : Nat) (v : Word) : (s.setRg a v).rg a = v :=
  Cells.get_set_self _ _ _ _

theorem State.rg_setRg_ne (s : State) {a b : Nat} (v : Word) (h : b ≠ a) : (s.setRg a v).rg b = s.rg b :=
  Cells.get_set_ne _ _ v h

/-- A read of a register after a write of one. -/
theorem State.rg_setRg (s : State) (a b : Nat) (v : Word) : (s.setRg a v).rg b = if b = a then v else s.rg b := by
  split
  · rename_i h; subst h; exact State.rg_setRg_self s b v
  · exact State.rg_setRg_ne s v ‹_›

/-- A read of a register after the device has changed one. -/
theorem State.rg_event (s : State) (a b : Nat) (f : Word → Word) :
    (s.event a f).rg b = if b = a then f (s.rg a) else s.rg b := State.rg_setRg s a b _

/-- Two states with the same registers read the same. -/
theorem State.rg_congr {s t : State} (h : s.regs = t.regs) (a : Nat) : s.rg a = t.rg a := by
  unfold State.rg; rw [h]

@[simp] theorem State.rg_setSt (s : State) (n : StnId) (x : Stn) (a : Nat) : (s.setSt n x).rg a = s.rg a := rfl
@[simp] theorem State.rg_modSt (s : State) (n : StnId) (f : Stn → Stn) (a : Nat) : (s.modSt n f).rg a = s.rg a := rfl
@[simp] theorem State.rg_setPt (s : State) (p : PortId) (x : Prt) (a : Nat) : (s.setPt p x).rg a = s.rg a := rfl
@[simp] theorem State.rg_modPt (s : State) (p : PortId) (f : Prt → Prt) (a : Nat) : (s.modPt p f).rg a = s.rg a := rfl
@[simp] theorem State.rg_modSk (s : State) (k : StackId) (f : Stk → Stk) (a : Nat) : (s.modSk k f).rg a = s.rg a := rfl
@[simp] theorem State.rg_emit (s : State) (o : Out) (a : Nat) : (s.emit o).rg a = s.rg a := rfl

@[simp] theorem State.st_setRg (s : State) (a : Nat) (v : Word) (n : StnId) : (s.setRg a v).st n = s.st n := rfl
@[simp] theorem State.st_setRf (s : State) (a lo k v : Nat) (n : StnId) : (s.setRf a lo k v).st n = s.st n := rfl
@[simp] theorem State.st_emit (s : State) (o : Out) (n : StnId) : (s.emit o).st n = s.st n := rfl
@[simp] theorem State.st_setPt (s : State) (p : PortId) (x : Prt) (n : StnId) : (s.setPt p x).st n = s.st n := rfl
@[simp] theorem State.st_modPt (s : State) (p : PortId) (f : Prt → Prt) (n : StnId) : (s.modPt p f).st n = s.st n := rfl

@[simp] theorem State.pt_setRg (s : State) (a : Nat) (v : Word) (p : PortId) : (s.setRg a v).pt p = s.pt p := rfl
@[simp] theorem State.pt_setRf (s : State) (a lo k v : Nat) (p : PortId) : (s.setRf a lo k v).pt p = s.pt p := rfl
@[simp] theorem State.pt_emit (s : State) (o : Out) (p : PortId) : (s.emit o).pt p = s.pt p := rfl
@[simp] theorem State.pt_setSt (s : State) (n : StnId) (x : Stn) (p : PortId) : (s.setSt n x).pt p = s.pt p := rfl
@[simp] theorem State.pt_modSt (s : State) (n : StnId) (f : Stn → Stn) (p : PortId) : (s.modSt n f).pt p = s.pt p := rfl

@[simp] theorem State.st_setSt_self (s : State) (n : StnId) (x : Stn) : (s.setSt n x).st n = x := by
  simp [State.st, State.setSt]

theorem State.st_setSt_ne (s : State) {n m : StnId} (x : Stn) (h : m ≠ n) : (s.setSt n x).st m = s.st m := by
  have : n.val ≠ m.val := fun e => h (Fin.ext e.symm)
  simp [State.st, State.setSt, this]

@[simp] theorem State.st_modSt_self (s : State) (n : StnId) (f : Stn → Stn) : (s.modSt n f).st n = f (s.st n) :=
  State.st_setSt_self s n _

theorem State.st_modSt_ne (s : State) {n m : StnId} (f : Stn → Stn) (h : m ≠ n) : (s.modSt n f).st m = s.st m :=
  State.st_setSt_ne s _ h

@[simp] theorem State.pt_setPt_self (s : State) (p : PortId) (x : Prt) : (s.setPt p x).pt p = x := by
  simp [State.pt, State.setPt]

theorem State.pt_setPt_ne (s : State) {p q : PortId} (x : Prt) (h : q ≠ p) : (s.setPt p x).pt q = s.pt q := by
  have : p.val ≠ q.val := fun e => h (Fin.ext e.symm)
  simp [State.pt, State.setPt, this]

@[simp] theorem State.pt_modPt_self (s : State) (p : PortId) (f : Prt → Prt) : (s.modPt p f).pt p = f (s.pt p) :=
  State.pt_setPt_self s p _

theorem State.pt_modPt_ne (s : State) {p q : PortId} (f : Prt → Prt) (h : q ≠ p) : (s.modPt p f).pt q = s.pt q :=
  State.pt_setPt_ne s _ h

@[simp] theorem State.sk_modSk_self (s : State) (k : StackId) (f : Stk → Stk) : (s.modSk k f).sk k = f (s.sk k) := by
  simp [State.sk, State.modSk]

theorem State.sk_modSk_ne (s : State) {k j : StackId} (f : Stk → Stk) (h : j ≠ k) : (s.modSk k f).sk j = s.sk j := by
  have : k.val ≠ j.val := fun e => h (Fin.ext e.symm)
  simp [State.sk, State.modSk, this]

end Sys2Proof.Machine
end

