-- ==== Sys2Proof/Laws/Ops.lean ====
section
/-! SUPPORT. Laws of the shared operations: interrupt vectors, status bits, raising a code, what each leaves alone. -/

namespace Sys2Proof.Machine

open Sys2Proof

/-! ### Interrupts and status bits -/

/-- A message changes registers and the log of what was sent only. -/
@[simp] theorem State.sendMsi_frame (s : State) (v : Nat) :
    (s.sendMsi v).pending = s.pending ∧ (s.sendMsi v).free = s.free ∧ (s.sendMsi v).ht = s.ht ∧
    (s.sendMsi v).cycle = s.cycle ∧ (s.sendMsi v).counting = s.counting ∧ (s.sendMsi v).heldHi = s.heldHi ∧
    (s.sendMsi v).capHi = s.capHi ∧ (s.sendMsi v).evts = s.evts ∧ (s.sendMsi v).clk = s.clk ∧
    (s.sendMsi v).txnHost = s.txnHost ∧ (s.sendMsi v).txnCur = s.txnCur ∧ (s.sendMsi v).stn = s.stn ∧
    (s.sendMsi v).prt = s.prt ∧ (s.sendMsi v).stk = s.stk ∧ (s.sendMsi v).dram = s.dram ∧
    (s.sendMsi v).dramBad = s.dramBad ∧ (s.sendMsi v).bar2 = s.bar2 ∧ (s.sendMsi v).pcie = s.pcie ∧
    (s.sendMsi v).flash = s.flash ∧ (s.sendMsi v).xbar = s.xbar ∧ (s.sendMsi v).buckets = s.buckets ∧
    (s.sendMsi v).redDisc = s.redDisc ∧ (s.sendMsi v).redWait = s.redWait ∧ (s.sendMsi v).redStray = s.redStray ∧
    (s.sendMsi v).notices = s.notices ∧ (s.sendMsi v).stgUsed = s.stgUsed ∧ (s.sendMsi v).expDisc = s.expDisc ∧
    (s.sendMsi v).sit = s.sit ∧ (s.sendMsi v).cat = s.cat ∧ (s.sendMsi v).cur = s.cur ∧
    (s.sendMsi v).img = s.img ∧ (s.sendMsi v).plt = s.plt := by
  unfold State.sendMsi; split <;> simp

/-- A source event changes registers and the log of what was sent only. -/
@[simp] theorem State.vector_frame (s : State) (v : Nat) :
    (s.vector v).pending = s.pending ∧ (s.vector v).free = s.free ∧ (s.vector v).ht = s.ht ∧
    (s.vector v).cycle = s.cycle ∧ (s.vector v).counting = s.counting ∧ (s.vector v).heldHi = s.heldHi ∧
    (s.vector v).capHi = s.capHi ∧ (s.vector v).clk = s.clk ∧ (s.vector v).txnHost = s.txnHost ∧
    (s.vector v).txnCur = s.txnCur ∧ (s.vector v).stn = s.stn ∧ (s.vector v).prt = s.prt ∧
    (s.vector v).stk = s.stk ∧ (s.vector v).dram = s.dram ∧ (s.vector v).dramBad = s.dramBad ∧
    (s.vector v).bar2 = s.bar2 ∧ (s.vector v).pcie = s.pcie ∧ (s.vector v).flash = s.flash ∧
    (s.vector v).xbar = s.xbar ∧ (s.vector v).buckets = s.buckets ∧ (s.vector v).redDisc = s.redDisc ∧
    (s.vector v).redWait = s.redWait ∧ (s.vector v).redStray = s.redStray ∧ (s.vector v).notices = s.notices ∧
    (s.vector v).stgUsed = s.stgUsed ∧ (s.vector v).expDisc = s.expDisc ∧ (s.vector v).sit = s.sit ∧
    (s.vector v).cat = s.cat ∧ (s.vector v).cur = s.cur ∧ (s.vector v).img = s.img ∧
    (s.vector v).plt = s.plt := by
  unfold State.vector; simp only []; split <;> simp

/-- A status bit changes registers and the log of what was sent only. -/
@[simp] theorem State.setStatus_frame (s : State) (a i v : Nat) :
    (s.setStatus a i v).pending = s.pending ∧ (s.setStatus a i v).free = s.free ∧ (s.setStatus a i v).ht = s.ht ∧
    (s.setStatus a i v).cycle = s.cycle ∧ (s.setStatus a i v).counting = s.counting ∧ (s.setStatus a i v).heldHi = s.heldHi ∧
    (s.setStatus a i v).capHi = s.capHi ∧ (s.setStatus a i v).clk = s.clk ∧ (s.setStatus a i v).txnHost = s.txnHost ∧
    (s.setStatus a i v).txnCur = s.txnCur ∧ (s.setStatus a i v).stn = s.stn ∧ (s.setStatus a i v).prt = s.prt ∧
    (s.setStatus a i v).stk = s.stk ∧ (s.setStatus a i v).dram = s.dram ∧ (s.setStatus a i v).dramBad = s.dramBad ∧
    (s.setStatus a i v).bar2 = s.bar2 ∧ (s.setStatus a i v).pcie = s.pcie ∧ (s.setStatus a i v).flash = s.flash ∧
    (s.setStatus a i v).xbar = s.xbar ∧ (s.setStatus a i v).buckets = s.buckets ∧ (s.setStatus a i v).redDisc = s.redDisc ∧
    (s.setStatus a i v).redWait = s.redWait ∧ (s.setStatus a i v).redStray = s.redStray ∧ (s.setStatus a i v).notices = s.notices ∧
    (s.setStatus a i v).stgUsed = s.stgUsed ∧ (s.setStatus a i v).expDisc = s.expDisc ∧ (s.setStatus a i v).sit = s.sit ∧
    (s.setStatus a i v).cat = s.cat ∧ (s.setStatus a i v).cur = s.cur ∧ (s.setStatus a i v).img = s.img ∧
    (s.setStatus a i v).plt = s.plt := by
  unfold State.setStatus; split <;> simp

/-- A port's status bit changes registers and the log of what was sent only. -/
@[simp] theorem State.prtStatus_frame (s : State) (p : PortId) (i : Nat) (b : Bool) :
    (s.prtStatus p i b).pending = s.pending ∧ (s.prtStatus p i b).free = s.free ∧ (s.prtStatus p i b).ht = s.ht ∧
    (s.prtStatus p i b).cycle = s.cycle ∧ (s.prtStatus p i b).counting = s.counting ∧ (s.prtStatus p i b).heldHi = s.heldHi ∧
    (s.prtStatus p i b).capHi = s.capHi ∧ (s.prtStatus p i b).clk = s.clk ∧ (s.prtStatus p i b).txnHost = s.txnHost ∧
    (s.prtStatus p i b).txnCur = s.txnCur ∧ (s.prtStatus p i b).stn = s.stn ∧ (s.prtStatus p i b).prt = s.prt ∧
    (s.prtStatus p i b).stk = s.stk ∧ (s.prtStatus p i b).dram = s.dram ∧ (s.prtStatus p i b).dramBad = s.dramBad ∧
    (s.prtStatus p i b).bar2 = s.bar2 ∧ (s.prtStatus p i b).pcie = s.pcie ∧ (s.prtStatus p i b).flash = s.flash ∧
    (s.prtStatus p i b).xbar = s.xbar ∧ (s.prtStatus p i b).buckets = s.buckets ∧ (s.prtStatus p i b).redDisc = s.redDisc ∧
    (s.prtStatus p i b).redWait = s.redWait ∧ (s.prtStatus p i b).redStray = s.redStray ∧ (s.prtStatus p i b).notices = s.notices ∧
    (s.prtStatus p i b).stgUsed = s.stgUsed ∧ (s.prtStatus p i b).expDisc = s.expDisc ∧ (s.prtStatus p i b).sit = s.sit ∧
    (s.prtStatus p i b).cat = s.cat ∧ (s.prtStatus p i b).cur = s.cur ∧ (s.prtStatus p i b).img = s.img ∧
    (s.prtStatus p i b).plt = s.plt := by
  unfold State.prtStatus; split <;> simp

/-- Changes registers and the log of what was sent only. -/
@[simp] theorem State.curEvent_frame (s : State) (i : Nat) :
    (s.curEvent i).pending = s.pending ∧ (s.curEvent i).free = s.free ∧ (s.curEvent i).ht = s.ht ∧
    (s.curEvent i).cycle = s.cycle ∧ (s.curEvent i).counting = s.counting ∧ (s.curEvent i).heldHi = s.heldHi ∧
    (s.curEvent i).capHi = s.capHi ∧ (s.curEvent i).clk = s.clk ∧ (s.curEvent i).txnHost = s.txnHost ∧
    (s.curEvent i).txnCur = s.txnCur ∧ (s.curEvent i).stn = s.stn ∧ (s.curEvent i).prt = s.prt ∧
    (s.curEvent i).stk = s.stk ∧ (s.curEvent i).dram = s.dram ∧ (s.curEvent i).dramBad = s.dramBad ∧
    (s.curEvent i).bar2 = s.bar2 ∧ (s.curEvent i).pcie = s.pcie ∧ (s.curEvent i).flash = s.flash ∧
    (s.curEvent i).xbar = s.xbar ∧ (s.curEvent i).buckets = s.buckets ∧ (s.curEvent i).redDisc = s.redDisc ∧
    (s.curEvent i).redWait = s.redWait ∧ (s.curEvent i).redStray = s.redStray ∧ (s.curEvent i).notices = s.notices ∧
    (s.curEvent i).stgUsed = s.stgUsed ∧ (s.curEvent i).expDisc = s.expDisc ∧ (s.curEvent i).sit = s.sit ∧
    (s.curEvent i).cat = s.cat ∧ (s.curEvent i).cur = s.cur ∧ (s.curEvent i).img = s.img ∧
    (s.curEvent i).plt = s.plt := by
  unfold State.curEvent; simp

/-- Changes registers and the log of what was sent only. -/
@[simp] theorem State.stepFlag_frame (s : State) (i : Nat) :
    (s.stepFlag i).pending = s.pending ∧ (s.stepFlag i).free = s.free ∧ (s.stepFlag i).ht = s.ht ∧
    (s.stepFlag i).cycle = s.cycle ∧ (s.stepFlag i).counting = s.counting ∧ (s.stepFlag i).heldHi = s.heldHi ∧
    (s.stepFlag i).capHi = s.capHi ∧ (s.stepFlag i).clk = s.clk ∧ (s.stepFlag i).txnHost = s.txnHost ∧
    (s.stepFlag i).txnCur = s.txnCur ∧ (s.stepFlag i).stn = s.stn ∧ (s.stepFlag i).prt = s.prt ∧
    (s.stepFlag i).stk = s.stk ∧ (s.stepFlag i).dram = s.dram ∧ (s.stepFlag i).dramBad = s.dramBad ∧
    (s.stepFlag i).bar2 = s.bar2 ∧ (s.stepFlag i).pcie = s.pcie ∧ (s.stepFlag i).flash = s.flash ∧
    (s.stepFlag i).xbar = s.xbar ∧ (s.stepFlag i).buckets = s.buckets ∧ (s.stepFlag i).redDisc = s.redDisc ∧
    (s.stepFlag i).redWait = s.redWait ∧ (s.stepFlag i).redStray = s.redStray ∧ (s.stepFlag i).notices = s.notices ∧
    (s.stepFlag i).stgUsed = s.stgUsed ∧ (s.stepFlag i).expDisc = s.expDisc ∧ (s.stepFlag i).sit = s.sit ∧
    (s.stepFlag i).cat = s.cat ∧ (s.stepFlag i).cur = s.cur ∧ (s.stepFlag i).img = s.img ∧
    (s.stepFlag i).plt = s.plt := by
  unfold State.stepFlag; simp

/-- Changes registers and the log of what was sent only. -/
@[simp] theorem State.xstatus_frame (s : State) (i : Nat) :
    (s.xstatus i).pending = s.pending ∧ (s.xstatus i).free = s.free ∧ (s.xstatus i).ht = s.ht ∧
    (s.xstatus i).cycle = s.cycle ∧ (s.xstatus i).counting = s.counting ∧ (s.xstatus i).heldHi = s.heldHi ∧
    (s.xstatus i).capHi = s.capHi ∧ (s.xstatus i).clk = s.clk ∧ (s.xstatus i).txnHost = s.txnHost ∧
    (s.xstatus i).txnCur = s.txnCur ∧ (s.xstatus i).stn = s.stn ∧ (s.xstatus i).prt = s.prt ∧
    (s.xstatus i).stk = s.stk ∧ (s.xstatus i).dram = s.dram ∧ (s.xstatus i).dramBad = s.dramBad ∧
    (s.xstatus i).bar2 = s.bar2 ∧ (s.xstatus i).pcie = s.pcie ∧ (s.xstatus i).flash = s.flash ∧
    (s.xstatus i).xbar = s.xbar ∧ (s.xstatus i).buckets = s.buckets ∧ (s.xstatus i).redDisc = s.redDisc ∧
    (s.xstatus i).redWait = s.redWait ∧ (s.xstatus i).redStray = s.redStray ∧ (s.xstatus i).notices = s.notices ∧
    (s.xstatus i).stgUsed = s.stgUsed ∧ (s.xstatus i).expDisc = s.expDisc ∧ (s.xstatus i).sit = s.sit ∧
    (s.xstatus i).cat = s.cat ∧ (s.xstatus i).cur = s.cur ∧ (s.xstatus i).img = s.img ∧
    (s.xstatus i).plt = s.plt := by
  unfold State.xstatus; simp

/-- Changes registers and the log of what was sent only. -/
@[simp] theorem State.redStatus_frame (s : State) (i : Nat) :
    (s.redStatus i).pending = s.pending ∧ (s.redStatus i).free = s.free ∧ (s.redStatus i).ht = s.ht ∧
    (s.redStatus i).cycle = s.cycle ∧ (s.redStatus i).counting = s.counting ∧ (s.redStatus i).heldHi = s.heldHi ∧
    (s.redStatus i).capHi = s.capHi ∧ (s.redStatus i).clk = s.clk ∧ (s.redStatus i).txnHost = s.txnHost ∧
    (s.redStatus i).txnCur = s.txnCur ∧ (s.redStatus i).stn = s.stn ∧ (s.redStatus i).prt = s.prt ∧
    (s.redStatus i).stk = s.stk ∧ (s.redStatus i).dram = s.dram ∧ (s.redStatus i).dramBad = s.dramBad ∧
    (s.redStatus i).bar2 = s.bar2 ∧ (s.redStatus i).pcie = s.pcie ∧ (s.redStatus i).flash = s.flash ∧
    (s.redStatus i).xbar = s.xbar ∧ (s.redStatus i).buckets = s.buckets ∧ (s.redStatus i).redDisc = s.redDisc ∧
    (s.redStatus i).redWait = s.redWait ∧ (s.redStatus i).redStray = s.redStray ∧ (s.redStatus i).notices = s.notices ∧
    (s.redStatus i).stgUsed = s.stgUsed ∧ (s.redStatus i).expDisc = s.expDisc ∧ (s.redStatus i).sit = s.sit ∧
    (s.redStatus i).cat = s.cat ∧ (s.redStatus i).cur = s.cur ∧ (s.redStatus i).img = s.img ∧
    (s.redStatus i).plt = s.plt := by
  unfold State.redStatus; simp

/-- Changes registers and the log of what was sent only. -/
@[simp] theorem State.expStatus_frame (s : State) (i : Nat) :
    (s.expStatus i).pending = s.pending ∧ (s.expStatus i).free = s.free ∧ (s.expStatus i).ht = s.ht ∧
    (s.expStatus i).cycle = s.cycle ∧ (s.expStatus i).counting = s.counting ∧ (s.expStatus i).heldHi = s.heldHi ∧
    (s.expStatus i).capHi = s.capHi ∧ (s.expStatus i).clk = s.clk ∧ (s.expStatus i).txnHost = s.txnHost ∧
    (s.expStatus i).txnCur = s.txnCur ∧ (s.expStatus i).stn = s.stn ∧ (s.expStatus i).prt = s.prt ∧
    (s.expStatus i).stk = s.stk ∧ (s.expStatus i).dram = s.dram ∧ (s.expStatus i).dramBad = s.dramBad ∧
    (s.expStatus i).bar2 = s.bar2 ∧ (s.expStatus i).pcie = s.pcie ∧ (s.expStatus i).flash = s.flash ∧
    (s.expStatus i).xbar = s.xbar ∧ (s.expStatus i).buckets = s.buckets ∧ (s.expStatus i).redDisc = s.redDisc ∧
    (s.expStatus i).redWait = s.redWait ∧ (s.expStatus i).redStray = s.redStray ∧ (s.expStatus i).notices = s.notices ∧
    (s.expStatus i).stgUsed = s.stgUsed ∧ (s.expStatus i).expDisc = s.expDisc ∧ (s.expStatus i).sit = s.sit ∧
    (s.expStatus i).cat = s.cat ∧ (s.expStatus i).cur = s.cur ∧ (s.expStatus i).img = s.img ∧
    (s.expStatus i).plt = s.plt := by
  unfold State.expStatus; simp

/-- Changes registers and the log of what was sent only. -/
@[simp] theorem State.memStatus_frame (s : State) (k : StackId) (i : Nat) :
    (s.memStatus k i).pending = s.pending ∧ (s.memStatus k i).free = s.free ∧ (s.memStatus k i).ht = s.ht ∧
    (s.memStatus k i).cycle = s.cycle ∧ (s.memStatus k i).counting = s.counting ∧ (s.memStatus k i).heldHi = s.heldHi ∧
    (s.memStatus k i).capHi = s.capHi ∧ (s.memStatus k i).clk = s.clk ∧ (s.memStatus k i).txnHost = s.txnHost ∧
    (s.memStatus k i).txnCur = s.txnCur ∧ (s.memStatus k i).stn = s.stn ∧ (s.memStatus k i).prt = s.prt ∧
    (s.memStatus k i).stk = s.stk ∧ (s.memStatus k i).dram = s.dram ∧ (s.memStatus k i).dramBad = s.dramBad ∧
    (s.memStatus k i).bar2 = s.bar2 ∧ (s.memStatus k i).pcie = s.pcie ∧ (s.memStatus k i).flash = s.flash ∧
    (s.memStatus k i).xbar = s.xbar ∧ (s.memStatus k i).buckets = s.buckets ∧ (s.memStatus k i).redDisc = s.redDisc ∧
    (s.memStatus k i).redWait = s.redWait ∧ (s.memStatus k i).redStray = s.redStray ∧ (s.memStatus k i).notices = s.notices ∧
    (s.memStatus k i).stgUsed = s.stgUsed ∧ (s.memStatus k i).expDisc = s.expDisc ∧ (s.memStatus k i).sit = s.sit ∧
    (s.memStatus k i).cat = s.cat ∧ (s.memStatus k i).cur = s.cur ∧ (s.memStatus k i).img = s.img ∧
    (s.memStatus k i).plt = s.plt := by
  unfold State.memStatus; simp

/-- Changes registers and the log of what was sent only. -/
@[simp] theorem State.accEvent_frame (s : State) (i : Nat) :
    (s.accEvent i).pending = s.pending ∧ (s.accEvent i).free = s.free ∧ (s.accEvent i).ht = s.ht ∧
    (s.accEvent i).cycle = s.cycle ∧ (s.accEvent i).counting = s.counting ∧ (s.accEvent i).heldHi = s.heldHi ∧
    (s.accEvent i).capHi = s.capHi ∧ (s.accEvent i).clk = s.clk ∧ (s.accEvent i).txnHost = s.txnHost ∧
    (s.accEvent i).txnCur = s.txnCur ∧ (s.accEvent i).stn = s.stn ∧ (s.accEvent i).prt = s.prt ∧
    (s.accEvent i).stk = s.stk ∧ (s.accEvent i).dram = s.dram ∧ (s.accEvent i).dramBad = s.dramBad ∧
    (s.accEvent i).bar2 = s.bar2 ∧ (s.accEvent i).pcie = s.pcie ∧ (s.accEvent i).flash = s.flash ∧
    (s.accEvent i).xbar = s.xbar ∧ (s.accEvent i).buckets = s.buckets ∧ (s.accEvent i).redDisc = s.redDisc ∧
    (s.accEvent i).redWait = s.redWait ∧ (s.accEvent i).redStray = s.redStray ∧ (s.accEvent i).notices = s.notices ∧
    (s.accEvent i).stgUsed = s.stgUsed ∧ (s.accEvent i).expDisc = s.expDisc ∧ (s.accEvent i).sit = s.sit ∧
    (s.accEvent i).cat = s.cat ∧ (s.accEvent i).cur = s.cur ∧ (s.accEvent i).img = s.img ∧
    (s.accEvent i).plt = s.plt := by
  unfold State.accEvent; simp

/-- What every turn of a fold keeps, the fold keeps. -/
theorem foldl_keep {σ β γ : Type} (g : σ → γ) (f : σ → β → σ) (h : ∀ s b, g (f s b) = g s) (l : List β) (s : σ) :
    g (l.foldl f s) = g s := by
  induction l generalizing s with
  | nil => rfl
  | cons b l ih => rw [List.foldl_cons, ih, h]

/-- Clearing the credits of a link changes ports and the frames of stations only. -/
@[simp] theorem State.clearCredit_frame (s : State) (p : PortId) :
    (s.clearCredit p).pending = s.pending ∧ (s.clearCredit p).out = s.out ∧ (s.clearCredit p).free = s.free ∧
    (s.clearCredit p).ht = s.ht ∧ (s.clearCredit p).cycle = s.cycle ∧ (s.clearCredit p).counting = s.counting ∧
    (s.clearCredit p).regs = s.regs ∧ (s.clearCredit p).heldHi = s.heldHi ∧ (s.clearCredit p).capHi = s.capHi ∧
    (s.clearCredit p).evts = s.evts ∧ (s.clearCredit p).clk = s.clk ∧ (s.clearCredit p).txnHost = s.txnHost ∧
    (s.clearCredit p).txnCur = s.txnCur ∧ (s.clearCredit p).stk = s.stk ∧ (s.clearCredit p).dram = s.dram ∧
    (s.clearCredit p).dramBad = s.dramBad ∧ (s.clearCredit p).bar2 = s.bar2 ∧ (s.clearCredit p).pcie = s.pcie ∧
    (s.clearCredit p).flash = s.flash ∧ (s.clearCredit p).xbar = s.xbar ∧ (s.clearCredit p).buckets = s.buckets ∧
    (s.clearCredit p).redDisc = s.redDisc ∧ (s.clearCredit p).redWait = s.redWait ∧ (s.clearCredit p).redStray = s.redStray ∧
    (s.clearCredit p).notices = s.notices ∧ (s.clearCredit p).stgUsed = s.stgUsed ∧ (s.clearCredit p).expDisc = s.expDisc ∧
    (s.clearCredit p).sit = s.sit ∧ (s.clearCredit p).cat = s.cat ∧ (s.clearCredit p).cur = s.cur ∧
    (s.clearCredit p).img = s.img ∧ (s.clearCredit p).plt = s.plt := by
  exact ⟨foldl_keep State.pending _ (fun s p => by simp) _ _,
    foldl_keep State.out _ (fun s p => by simp) _ _,
    foldl_keep State.free _ (fun s p => by simp) _ _,
    foldl_keep State.ht _ (fun s p => by simp) _ _,
    foldl_keep State.cycle _ (fun s p => by simp) _ _,
    foldl_keep State.counting _ (fun s p => by simp) _ _,
    foldl_keep State.regs _ (fun s p => by simp) _ _,
    foldl_keep State.heldHi _ (fun s p => by simp) _ _,
    foldl_keep State.capHi _ (fun s p => by simp) _ _,
    foldl_keep State.evts _ (fun s p => by simp) _ _,
    foldl_keep State.clk _ (fun s p => by simp) _ _,
    foldl_keep State.txnHost _ (fun s p => by simp) _ _,
    foldl_keep State.txnCur _ (fun s p => by simp) _ _,
    foldl_keep State.stk _ (fun s p => by simp) _ _,
    foldl_keep State.dram _ (fun s p => by simp) _ _,
    foldl_keep State.dramBad _ (fun s p => by simp) _ _,
    foldl_keep State.bar2 _ (fun s p => by simp) _ _,
    foldl_keep State.pcie _ (fun s p => by simp) _ _,
    foldl_keep State.flash _ (fun s p => by simp) _ _,
    foldl_keep State.xbar _ (fun s p => by simp) _ _,
    foldl_keep State.buckets _ (fun s p => by simp) _ _,
    foldl_keep State.redDisc _ (fun s p => by simp) _ _,
    foldl_keep State.redWait _ (fun s p => by simp) _ _,
    foldl_keep State.redStray _ (fun s p => by simp) _ _,
    foldl_keep State.notices _ (fun s p => by simp) _ _,
    foldl_keep State.stgUsed _ (fun s p => by simp) _ _,
    foldl_keep State.expDisc _ (fun s p => by simp) _ _,
    foldl_keep State.sit _ (fun s p => by simp) _ _,
    foldl_keep State.cat _ (fun s p => by simp) _ _,
    foldl_keep State.cur _ (fun s p => by simp) _ _,
    foldl_keep State.img _ (fun s p => by simp) _ _,
    foldl_keep State.plt _ (fun s p => by simp) _ _⟩

/-- A partner that leaves changes ports and the frames of stations only. -/
@[simp] theorem State.partnerGone_frame (s : State) (p : PortId) :
    (s.partnerGone p).pending = s.pending ∧ (s.partnerGone p).out = s.out ∧ (s.partnerGone p).free = s.free ∧
    (s.partnerGone p).ht = s.ht ∧ (s.partnerGone p).cycle = s.cycle ∧ (s.partnerGone p).counting = s.counting ∧
    (s.partnerGone p).regs = s.regs ∧ (s.partnerGone p).heldHi = s.heldHi ∧ (s.partnerGone p).capHi = s.capHi ∧
    (s.partnerGone p).evts = s.evts ∧ (s.partnerGone p).clk = s.clk ∧ (s.partnerGone p).txnHost = s.txnHost ∧
    (s.partnerGone p).txnCur = s.txnCur ∧ (s.partnerGone p).stk = s.stk ∧ (s.partnerGone p).dram = s.dram ∧
    (s.partnerGone p).dramBad = s.dramBad ∧ (s.partnerGone p).bar2 = s.bar2 ∧ (s.partnerGone p).pcie = s.pcie ∧
    (s.partnerGone p).flash = s.flash ∧ (s.partnerGone p).xbar = s.xbar ∧ (s.partnerGone p).buckets = s.buckets ∧
    (s.partnerGone p).redDisc = s.redDisc ∧ (s.partnerGone p).redWait = s.redWait ∧ (s.partnerGone p).redStray = s.redStray ∧
    (s.partnerGone p).notices = s.notices ∧ (s.partnerGone p).stgUsed = s.stgUsed ∧ (s.partnerGone p).expDisc = s.expDisc ∧
    (s.partnerGone p).sit = s.sit ∧ (s.partnerGone p).cat = s.cat ∧ (s.partnerGone p).cur = s.cur ∧
    (s.partnerGone p).img = s.img ∧ (s.partnerGone p).plt = s.plt := by
  unfold State.partnerGone; split <;> simp

/-- A port that goes down changes ports, the frames of stations, registers and the log of what was sent only. -/
@[simp] theorem State.portDown_frame (s : State) (p : PortId) :
    (s.portDown p).pending = s.pending ∧ (s.portDown p).free = s.free ∧ (s.portDown p).ht = s.ht ∧
    (s.portDown p).cycle = s.cycle ∧ (s.portDown p).counting = s.counting ∧ (s.portDown p).heldHi = s.heldHi ∧
    (s.portDown p).capHi = s.capHi ∧ (s.portDown p).clk = s.clk ∧ (s.portDown p).txnHost = s.txnHost ∧
    (s.portDown p).txnCur = s.txnCur ∧ (s.portDown p).stk = s.stk ∧ (s.portDown p).dram = s.dram ∧
    (s.portDown p).dramBad = s.dramBad ∧ (s.portDown p).bar2 = s.bar2 ∧ (s.portDown p).pcie = s.pcie ∧
    (s.portDown p).flash = s.flash ∧ (s.portDown p).xbar = s.xbar ∧ (s.portDown p).buckets = s.buckets ∧
    (s.portDown p).redDisc = s.redDisc ∧ (s.portDown p).redWait = s.redWait ∧ (s.portDown p).redStray = s.redStray ∧
    (s.portDown p).notices = s.notices ∧ (s.portDown p).stgUsed = s.stgUsed ∧ (s.portDown p).expDisc = s.expDisc ∧
    (s.portDown p).sit = s.sit ∧ (s.portDown p).cat = s.cat ∧ (s.portDown p).cur = s.cur ∧
    (s.portDown p).img = s.img ∧ (s.portDown p).plt = s.plt := by
  unfold State.portDown; simp only []; split <;> simp

/-- A handling window changes the Catalogue only. -/
@[simp] theorem State.openWindow_frame (s : State) (u : UnitId) (e : Nat) (c : Code) :
    (s.openWindow u e c).pending = s.pending ∧ (s.openWindow u e c).out = s.out ∧ (s.openWindow u e c).free = s.free ∧
    (s.openWindow u e c).ht = s.ht ∧ (s.openWindow u e c).cycle = s.cycle ∧ (s.openWindow u e c).counting = s.counting ∧
    (s.openWindow u e c).regs = s.regs ∧ (s.openWindow u e c).heldHi = s.heldHi ∧ (s.openWindow u e c).capHi = s.capHi ∧
    (s.openWindow u e c).evts = s.evts ∧ (s.openWindow u e c).clk = s.clk ∧ (s.openWindow u e c).txnHost = s.txnHost ∧
    (s.openWindow u e c).txnCur = s.txnCur ∧ (s.openWindow u e c).stn = s.stn ∧ (s.openWindow u e c).prt = s.prt ∧
    (s.openWindow u e c).stk = s.stk ∧ (s.openWindow u e c).dram = s.dram ∧ (s.openWindow u e c).dramBad = s.dramBad ∧
    (s.openWindow u e c).bar2 = s.bar2 ∧ (s.openWindow u e c).pcie = s.pcie ∧ (s.openWindow u e c).flash = s.flash ∧
    (s.openWindow u e c).xbar = s.xbar ∧ (s.openWindow u e c).buckets = s.buckets ∧ (s.openWindow u e c).redDisc = s.redDisc ∧
    (s.openWindow u e c).redWait = s.redWait ∧ (s.openWindow u e c).redStray = s.redStray ∧ (s.openWindow u e c).notices = s.notices ∧
    (s.openWindow u e c).stgUsed = s.stgUsed ∧ (s.openWindow u e c).expDisc = s.expDisc ∧ (s.openWindow u e c).sit = s.sit ∧
    (s.openWindow u e c).cur = s.cur ∧ (s.openWindow u e c).img = s.img ∧ (s.openWindow u e c).plt = s.plt := by
  unfold State.openWindow; split <;> simp

/-- Ending windows changes the Catalogue only. -/
@[simp] theorem State.closeWindows_frame (s : State) (u : UnitId) (p : Code → Bool) :
    (s.closeWindows u p).pending = s.pending ∧ (s.closeWindows u p).out = s.out ∧ (s.closeWindows u p).free = s.free ∧
    (s.closeWindows u p).ht = s.ht ∧ (s.closeWindows u p).cycle = s.cycle ∧ (s.closeWindows u p).counting = s.counting ∧
    (s.closeWindows u p).regs = s.regs ∧ (s.closeWindows u p).heldHi = s.heldHi ∧ (s.closeWindows u p).capHi = s.capHi ∧
    (s.closeWindows u p).evts = s.evts ∧ (s.closeWindows u p).clk = s.clk ∧ (s.closeWindows u p).txnHost = s.txnHost ∧
    (s.closeWindows u p).txnCur = s.txnCur ∧ (s.closeWindows u p).stn = s.stn ∧ (s.closeWindows u p).prt = s.prt ∧
    (s.closeWindows u p).stk = s.stk ∧ (s.closeWindows u p).dram = s.dram ∧ (s.closeWindows u p).dramBad = s.dramBad ∧
    (s.closeWindows u p).bar2 = s.bar2 ∧ (s.closeWindows u p).pcie = s.pcie ∧ (s.closeWindows u p).flash = s.flash ∧
    (s.closeWindows u p).xbar = s.xbar ∧ (s.closeWindows u p).buckets = s.buckets ∧ (s.closeWindows u p).redDisc = s.redDisc ∧
    (s.closeWindows u p).redWait = s.redWait ∧ (s.closeWindows u p).redStray = s.redStray ∧ (s.closeWindows u p).notices = s.notices ∧
    (s.closeWindows u p).stgUsed = s.stgUsed ∧ (s.closeWindows u p).expDisc = s.expDisc ∧ (s.closeWindows u p).sit = s.sit ∧
    (s.closeWindows u p).cur = s.cur ∧ (s.closeWindows u p).img = s.img ∧ (s.closeWindows u p).plt = s.plt := by
  and_intros <;> exact rfl

/-- What every turn of a fold preserves, the fold preserves. -/
theorem foldl_inv {σ β : Type} (P : σ → Prop) (f : σ → β → σ) (h : ∀ s b, P s → P (f s b)) (l : List β) (s : σ)
    (hs : P s) : P (l.foldl f s) := by
  induction l generalizing s with
  | nil => exact hs
  | cons b l ih => exact ih _ (h s b hs)

/-- What a Fatal event does at once changes ports, the frames of stations, registers, the Catalogue and the Curator only. -/
@[simp] theorem State.fatalStop_frame (s : State) :
    (s.fatalStop).pending = s.pending ∧ (s.fatalStop).free = s.free ∧ (s.fatalStop).ht = s.ht ∧
    (s.fatalStop).cycle = s.cycle ∧ (s.fatalStop).counting = s.counting ∧ (s.fatalStop).heldHi = s.heldHi ∧
    (s.fatalStop).capHi = s.capHi ∧ (s.fatalStop).clk = s.clk ∧ (s.fatalStop).txnHost = s.txnHost ∧
    (s.fatalStop).txnCur = s.txnCur ∧ (s.fatalStop).stk = s.stk ∧ (s.fatalStop).dram = s.dram ∧
    (s.fatalStop).dramBad = s.dramBad ∧ (s.fatalStop).bar2 = s.bar2 ∧ (s.fatalStop).pcie = s.pcie ∧
    (s.fatalStop).flash = s.flash ∧ (s.fatalStop).xbar = s.xbar ∧ (s.fatalStop).buckets = s.buckets ∧
    (s.fatalStop).redDisc = s.redDisc ∧ (s.fatalStop).redWait = s.redWait ∧ (s.fatalStop).redStray = s.redStray ∧
    (s.fatalStop).notices = s.notices ∧ (s.fatalStop).stgUsed = s.stgUsed ∧ (s.fatalStop).expDisc = s.expDisc ∧
    (s.fatalStop).sit = s.sit ∧ (s.fatalStop).img = s.img ∧ (s.fatalStop).plt = s.plt := by
  exact ⟨foldl_keep State.pending _ (fun s p => by simp) _ _,
    foldl_keep State.free _ (fun s p => by simp) _ _,
    foldl_keep State.ht _ (fun s p => by simp) _ _,
    foldl_keep State.cycle _ (fun s p => by simp) _ _,
    foldl_keep State.counting _ (fun s p => by simp) _ _,
    foldl_keep State.heldHi _ (fun s p => by simp) _ _,
    foldl_keep State.capHi _ (fun s p => by simp) _ _,
    foldl_keep State.clk _ (fun s p => by simp) _ _,
    foldl_keep State.txnHost _ (fun s p => by simp) _ _,
    foldl_keep State.txnCur _ (fun s p => by simp) _ _,
    foldl_keep State.stk _ (fun s p => by simp) _ _,
    foldl_keep State.dram _ (fun s p => by simp) _ _,
    foldl_keep State.dramBad _ (fun s p => by simp) _ _,
    foldl_keep State.bar2 _ (fun s p => by simp) _ _,
    foldl_keep State.pcie _ (fun s p => by simp) _ _,
    foldl_keep State.flash _ (fun s p => by simp) _ _,
    foldl_keep State.xbar _ (fun s p => by simp) _ _,
    foldl_keep State.buckets _ (fun s p => by simp) _ _,
    foldl_keep State.redDisc _ (fun s p => by simp) _ _,
    foldl_keep State.redWait _ (fun s p => by simp) _ _,
    foldl_keep State.redStray _ (fun s p => by simp) _ _,
    foldl_keep State.notices _ (fun s p => by simp) _ _,
    foldl_keep State.stgUsed _ (fun s p => by simp) _ _,
    foldl_keep State.expDisc _ (fun s p => by simp) _ _,
    foldl_keep State.sit _ (fun s p => by simp) _ _,
    foldl_keep State.img _ (fun s p => by simp) _ _,
    foldl_keep State.plt _ (fun s p => by simp) _ _⟩

/-- Raising a code changes registers, what was sent, ports, the frames of stations, the Catalogue and the Curator only. -/
@[simp] theorem State.raiseAt_frame (s : State) (c : Code) (u : UnitId) (m : Byte) (e : List Word) :
    (s.raiseAt c u m e).pending = s.pending ∧ (s.raiseAt c u m e).free = s.free ∧ (s.raiseAt c u m e).ht = s.ht ∧
    (s.raiseAt c u m e).cycle = s.cycle ∧ (s.raiseAt c u m e).counting = s.counting ∧ (s.raiseAt c u m e).heldHi = s.heldHi ∧
    (s.raiseAt c u m e).capHi = s.capHi ∧ (s.raiseAt c u m e).clk = s.clk ∧ (s.raiseAt c u m e).txnHost = s.txnHost ∧
    (s.raiseAt c u m e).txnCur = s.txnCur ∧ (s.raiseAt c u m e).stk = s.stk ∧ (s.raiseAt c u m e).dram = s.dram ∧
    (s.raiseAt c u m e).dramBad = s.dramBad ∧ (s.raiseAt c u m e).bar2 = s.bar2 ∧ (s.raiseAt c u m e).pcie = s.pcie ∧
    (s.raiseAt c u m e).flash = s.flash ∧ (s.raiseAt c u m e).xbar = s.xbar ∧ (s.raiseAt c u m e).buckets = s.buckets ∧
    (s.raiseAt c u m e).redDisc = s.redDisc ∧ (s.raiseAt c u m e).redWait = s.redWait ∧ (s.raiseAt c u m e).redStray = s.redStray ∧
    (s.raiseAt c u m e).notices = s.notices ∧ (s.raiseAt c u m e).stgUsed = s.stgUsed ∧ (s.raiseAt c u m e).expDisc = s.expDisc ∧
    (s.raiseAt c u m e).sit = s.sit ∧ (s.raiseAt c u m e).img = s.img ∧ (s.raiseAt c u m e).plt = s.plt := by
  unfold State.raiseAt; simp only []; split <;> split <;> split <;> (try split) <;> simp

/-- Raising a code changes the same. -/
@[simp] theorem State.raise_frame (s : State) (c : Code) (u : UnitId) (e : List Word) :
    (s.raise c u e).pending = s.pending ∧ (s.raise c u e).free = s.free ∧ (s.raise c u e).ht = s.ht ∧
    (s.raise c u e).cycle = s.cycle ∧ (s.raise c u e).counting = s.counting ∧ (s.raise c u e).heldHi = s.heldHi ∧
    (s.raise c u e).capHi = s.capHi ∧ (s.raise c u e).clk = s.clk ∧ (s.raise c u e).txnHost = s.txnHost ∧
    (s.raise c u e).txnCur = s.txnCur ∧ (s.raise c u e).stk = s.stk ∧ (s.raise c u e).dram = s.dram ∧
    (s.raise c u e).dramBad = s.dramBad ∧ (s.raise c u e).bar2 = s.bar2 ∧ (s.raise c u e).pcie = s.pcie ∧
    (s.raise c u e).flash = s.flash ∧ (s.raise c u e).xbar = s.xbar ∧ (s.raise c u e).buckets = s.buckets ∧
    (s.raise c u e).redDisc = s.redDisc ∧ (s.raise c u e).redWait = s.redWait ∧ (s.raise c u e).redStray = s.redStray ∧
    (s.raise c u e).notices = s.notices ∧ (s.raise c u e).stgUsed = s.stgUsed ∧ (s.raise c u e).expDisc = s.expDisc ∧
    (s.raise c u e).sit = s.sit ∧ (s.raise c u e).img = s.img ∧ (s.raise c u e).plt = s.plt := by
  unfold State.raise; simp

/-- Raising a code once in a step changes the same. -/
@[simp] theorem State.raiseOnce_frame (s : State) (c : Code) (u : UnitId) (k : Nat) (e : List Word) :
    (s.raiseOnce c u k e).pending = s.pending ∧ (s.raiseOnce c u k e).free = s.free ∧ (s.raiseOnce c u k e).ht = s.ht ∧
    (s.raiseOnce c u k e).cycle = s.cycle ∧ (s.raiseOnce c u k e).counting = s.counting ∧ (s.raiseOnce c u k e).heldHi = s.heldHi ∧
    (s.raiseOnce c u k e).capHi = s.capHi ∧ (s.raiseOnce c u k e).clk = s.clk ∧ (s.raiseOnce c u k e).txnHost = s.txnHost ∧
    (s.raiseOnce c u k e).txnCur = s.txnCur ∧ (s.raiseOnce c u k e).stk = s.stk ∧ (s.raiseOnce c u k e).dram = s.dram ∧
    (s.raiseOnce c u k e).dramBad = s.dramBad ∧ (s.raiseOnce c u k e).bar2 = s.bar2 ∧ (s.raiseOnce c u k e).pcie = s.pcie ∧
    (s.raiseOnce c u k e).flash = s.flash ∧ (s.raiseOnce c u k e).xbar = s.xbar ∧ (s.raiseOnce c u k e).buckets = s.buckets ∧
    (s.raiseOnce c u k e).redDisc = s.redDisc ∧ (s.raiseOnce c u k e).redWait = s.redWait ∧ (s.raiseOnce c u k e).redStray = s.redStray ∧
    (s.raiseOnce c u k e).notices = s.notices ∧ (s.raiseOnce c u k e).stgUsed = s.stgUsed ∧ (s.raiseOnce c u k e).expDisc = s.expDisc ∧
    (s.raiseOnce c u k e).sit = s.sit ∧ (s.raiseOnce c u k e).img = s.img ∧ (s.raiseOnce c u k e).plt = s.plt := by
  unfold State.raiseOnce; split <;> simp

/-- A score's threshold changes the same. -/
@[simp] theorem State.scoreRise_frame (s : State) (u : UnitId) (b t l : Nat) :
    (s.scoreRise u b t l).pending = s.pending ∧ (s.scoreRise u b t l).free = s.free ∧ (s.scoreRise u b t l).ht = s.ht ∧
    (s.scoreRise u b t l).cycle = s.cycle ∧ (s.scoreRise u b t l).counting = s.counting ∧ (s.scoreRise u b t l).heldHi = s.heldHi ∧
    (s.scoreRise u b t l).capHi = s.capHi ∧ (s.scoreRise u b t l).clk = s.clk ∧ (s.scoreRise u b t l).txnHost = s.txnHost ∧
    (s.scoreRise u b t l).txnCur = s.txnCur ∧ (s.scoreRise u b t l).stk = s.stk ∧ (s.scoreRise u b t l).dram = s.dram ∧
    (s.scoreRise u b t l).dramBad = s.dramBad ∧ (s.scoreRise u b t l).bar2 = s.bar2 ∧ (s.scoreRise u b t l).pcie = s.pcie ∧
    (s.scoreRise u b t l).flash = s.flash ∧ (s.scoreRise u b t l).xbar = s.xbar ∧ (s.scoreRise u b t l).buckets = s.buckets ∧
    (s.scoreRise u b t l).redDisc = s.redDisc ∧ (s.scoreRise u b t l).redWait = s.redWait ∧ (s.scoreRise u b t l).redStray = s.redStray ∧
    (s.scoreRise u b t l).notices = s.notices ∧ (s.scoreRise u b t l).stgUsed = s.stgUsed ∧ (s.scoreRise u b t l).expDisc = s.expDisc ∧
    (s.scoreRise u b t l).sit = s.sit ∧ (s.scoreRise u b t l).img = s.img ∧ (s.scoreRise u b t l).plt = s.plt := by
  unfold State.scoreRise; simp only []; split <;> simp

/-- A score that gains changes the same. -/
@[simp] theorem State.addScore_frame (s : State) (u : UnitId) (w : Nat) :
    (s.addScore u w).pending = s.pending ∧ (s.addScore u w).free = s.free ∧ (s.addScore u w).ht = s.ht ∧
    (s.addScore u w).cycle = s.cycle ∧ (s.addScore u w).counting = s.counting ∧ (s.addScore u w).heldHi = s.heldHi ∧
    (s.addScore u w).capHi = s.capHi ∧ (s.addScore u w).clk = s.clk ∧ (s.addScore u w).txnHost = s.txnHost ∧
    (s.addScore u w).txnCur = s.txnCur ∧ (s.addScore u w).stk = s.stk ∧ (s.addScore u w).dram = s.dram ∧
    (s.addScore u w).dramBad = s.dramBad ∧ (s.addScore u w).bar2 = s.bar2 ∧ (s.addScore u w).pcie = s.pcie ∧
    (s.addScore u w).flash = s.flash ∧ (s.addScore u w).xbar = s.xbar ∧ (s.addScore u w).buckets = s.buckets ∧
    (s.addScore u w).redDisc = s.redDisc ∧ (s.addScore u w).redWait = s.redWait ∧ (s.addScore u w).redStray = s.redStray ∧
    (s.addScore u w).notices = s.notices ∧ (s.addScore u w).stgUsed = s.stgUsed ∧ (s.addScore u w).expDisc = s.expDisc ∧
    (s.addScore u w).sit = s.sit ∧ (s.addScore u w).img = s.img ∧ (s.addScore u w).plt = s.plt := by
  unfold State.addScore; simp

/-! ### What registers read afterwards -/

/-- A field of a register set, as a register read. -/
theorem State.rg_setRf (s : State) (a lo n v b : Nat) :
    (s.setRf a lo n v).rg b = if b = a then setFld (s.rg a) lo n v else s.rg b := State.rg_setRg s a b _

@[simp] theorem State.rg_setRf_self (s : State) (a lo n v : Nat) : (s.setRf a lo n v).rg a = setFld (s.rg a) lo n v :=
  State.rg_setRg_self s a _

theorem State.rg_setRf_ne (s : State) {a b : Nat} (lo n v : Nat) (h : b ≠ a) : (s.setRf a lo n v).rg b = s.rg b :=
  State.rg_setRg_ne s _ h

theorem State.rg_inc_self (s : State) (a : Nat) : ((s.inc a).rg a).toNat = min 0xFFFFFFFF ((s.rg a).toNat + 1) := by
  unfold State.inc State.addSat
  rw [State.rg_event, if_pos rfl]
  simp [word, satAdd]

theorem State.rg_inc_ne (s : State) {a b : Nat} (h : b ≠ a) : (s.inc a).rg b = s.rg b := State.rg_setRg_ne s _ h

theorem State.rg_addSat_ne (s : State) {a b : Nat} (n : Nat) (h : b ≠ a) : (s.addSat a n).rg b = s.rg b :=
  State.rg_setRg_ne s _ h

theorem State.rg_addSat_self (s : State) (a n : Nat) :
    ((s.addSat a n).rg a).toNat = min 0xFFFFFFFF ((s.rg a).toNat + n) := by
  unfold State.addSat
  rw [State.rg_event, if_pos rfl]
  simp [word, satAdd]

theorem State.rg_setRg64_ne (s : State) {a b : Nat} (v : DWord) (h : b ≠ a) (h' : b ≠ a + 4) :
    (s.setRg64 a v).rg b = s.rg b := by
  unfold State.setRg64
  rw [State.rg_setRg_ne _ _ h', State.rg_setRg_ne _ _ h]

@[simp] theorem State.rg64_setRg64_self (s : State) (a : Nat) (v : DWord) : (s.setRg64 a v).rg64 a = v := by
  unfold State.rg64 State.setRg64
  rw [State.rg_setRg_self, State.rg_setRg_ne _ _ (by omega), State.rg_setRg_self]
  apply BitVec.eq_of_toNat_eq
  have := v.isLt
  simp [word, dword]
  omega

theorem State.rg_sendMsi (s : State) {v b : Nat} (hv : v < 256) (h : ¬ intReg b) : (s.sendMsi v).rg b = s.rg b := by
  unfold State.sendMsi
  split
  · rw [State.rg_setRf_ne]; intro e; apply h; subst e; right; simp only [Reg.glbPba]; omega
  · rfl

/-- A bit that the device sets, as a register read. -/
theorem State.rg_setBitEvt (s : State) (a i b : Nat) :
    (s.setBitEvt a i).rg b = if b = a then setFld (s.rg a) i 1 1 else s.rg b := State.rg_event s a b _

theorem State.rg_setBitEvt_ne (s : State) {a b : Nat} (i : Nat) (h : b ≠ a) : (s.setBitEvt a i).rg b = s.rg b :=
  State.rg_setRg_ne s _ h

theorem State.rg_setBitEvt_self (s : State) (a i : Nat) : (s.setBitEvt a i).rg a = setFld (s.rg a) i 1 1 :=
  State.rg_setRg_self s a _

/-- A source event leaves every register but the pending ones alone. -/
theorem State.rg_vector (s : State) {v b : Nat} (hv : v < 256) (h : ¬ intReg b) : (s.vector v).rg b = s.rg b := by
  have hb : b ≠ Reg.glbIrqPend (v / 32) := by
    intro e; apply h; subst e; left; simp only [Reg.glbIrqPend]; omega
  unfold State.vector
  simp only []
  split
  · rw [State.rg_sendMsi _ hv h, State.rg_setBitEvt_ne _ _ hb]
  · rw [State.rg_setBitEvt_ne _ _ hb]

/-- A source event leaves its vector pending. -/
theorem State.vector_pending (s : State) (v : Nat) :
    (s.vector v).rbit (Reg.glbIrqPend (v / 32)) (v % 32) = true := by
  have h1 : bitOf ((s.setBitEvt (Reg.glbIrqPend (v / 32)) (v % 32)).rg (Reg.glbIrqPend (v / 32))) (v % 32) = true := by
    rw [State.rg_setBitEvt_self]; exact bitOf_set_self _ _ (by omega)
  unfold State.vector State.rbit
  simp only []
  split
  · unfold State.sendMsi
    split
    · rw [State.rg_setRf_ne _ _ _ _ (by simp only [Reg.glbIrqPend, Reg.glbPba]; omega)]; exact h1
    · exact h1
  · exact h1

/-- A status bit leaves every other register alone. -/
theorem State.rg_setStatus (s : State) {a i v b : Nat} (hv : v < 256) (h : ¬ intReg b) (hb : b ≠ a) :
    (s.setStatus a i v).rg b = s.rg b := by
  unfold State.setStatus
  split
  · exact State.rg_setBitEvt_ne s i hb
  · rw [State.rg_vector _ hv h, State.rg_setBitEvt_ne _ _ hb]

/-- A status bit that has set is set, and the register's other bits are as they were. -/
theorem State.rg_setStatus_self (s : State) {a i v : Nat} (hv : v < 256) (h : ¬ intReg a) :
    (s.setStatus a i v).rg a = setFld (s.rg a) i 1 1 := by
  unfold State.setStatus
  split
  · exact State.rg_setBitEvt_self s a i
  · rw [State.rg_vector _ hv h, State.rg_setBitEvt_self]

/-- A bit of CUR_EVENT touches CUR_EVENT and what is pending only. -/
theorem State.rg_curEvent (s : State) {i b : Nat} (hi : i < 4) (h : ¬ reportReg b) : (s.curEvent i).rg b = s.rg b :=
  State.rg_setStatus s (by omega) (fun e => h (Or.inl e)) (fun e => h (by subst e; right; right; right; right; left; rfl))

/-- A bit of ACC_EVENT touches ACC_EVENT, CUR_EVENT and what is pending only. -/
theorem State.rg_accEvent (s : State) {i b : Nat} (h : ¬ reportReg b) : (s.accEvent i).rg b = s.rg b := by
  unfold State.accEvent
  rw [State.rg_curEvent _ (by omega) h, State.rg_setBitEvt_ne]
  intro e; apply h; subst e; right; right; right; right; right; left; rfl

/-- A port's status leaves every register that no report touches alone. -/
theorem State.rg_prtStatus (s : State) (p : PortId) (i : Nat) (v : Bool) {b : Nat} (h : ¬ reportReg b) :
    (s.prtStatus p i v).rg b = s.rg b := by
  unfold State.prtStatus
  split
  · rfl
  · rw [State.rg_vector _ (by omega) (fun e => h (Or.inl e)), State.rg_setRf_ne]
    intro e; apply h; subst e
    right; right; right; right; right; right
    simp only [Reg.prtStatus]; omega

@[simp] theorem State.rg_partnerGone (s : State) (p : PortId) (b : Nat) : (s.partnerGone p).rg b = s.rg b :=
  State.rg_congr (by simp) b

theorem State.rg_portDown (s : State) (p : PortId) {b : Nat} (h : ¬ reportReg b) : (s.portDown p).rg b = s.rg b := by
  unfold State.portDown
  simp only []
  split
  · rw [State.rg_accEvent _ h, State.rg_partnerGone, State.rg_prtStatus _ _ _ _ h, State.rg_modPt]
  · rw [State.rg_partnerGone, State.rg_prtStatus _ _ _ _ h, State.rg_modPt]

theorem State.rg_fatalStop (s : State) {b : Nat} (h : ¬ reportReg b) : s.fatalStop.rg b = s.rg b := by
  have := foldl_keep (fun u : State => u.rg b) (fun (t : State) (p : PortId) => t.portDown p)
    (fun t p => State.rg_portDown t p h) allPorts
      ({ s with cat := { s.cat with fltFatal := true }, cur := { s.cur with clocksOn := false, engOff := Vector.replicate 16 true } } : State)
  exact this

@[simp] theorem State.rg_openWindow (s : State) (u : UnitId) (e : Nat) (c : Code) (b : Nat) :
    (s.openWindow u e c).rg b = s.rg b := State.rg_congr (by simp) b

@[simp] theorem State.rg_closeWindows (s : State) (u : UnitId) (p : Code → Bool) (b : Nat) :
    (s.closeWindows u p).rg b = s.rg b := rfl

/-- Raising a code leaves every register that no report touches alone. -/
theorem State.rg_raise (s : State) (c : Code) (u : UnitId) (e : List Word) {b : Nat} (h : ¬ reportReg b) :
    (s.raise c u e).rg b = s.rg b := by
  have h1 : b ≠ Reg.catLost := fun x => h (Or.inr (Or.inl x))
  have h2 : b ≠ Reg.catStatus := fun x => h (Or.inr (Or.inr (Or.inl x)))
  unfold State.raise State.raiseAt
  simp only []
  split <;> split <;> split <;> (try split) <;>
    (try simp only [State.rg_fatalStop _ h, State.rg_openWindow, State.rg_setBitEvt_ne _ _ h2, State.rg_inc_ne _ h1]) <;> rfl

theorem State.rg_raiseOnce (s : State) (c : Code) (u : UnitId) (k : Nat) (e : List Word) {b : Nat} (h : ¬ reportReg b) :
    (s.raiseOnce c u k e).rg b = s.rg b := by
  unfold State.raiseOnce
  split
  · rfl
  · rw [State.rg_raise _ _ _ _ h]; rfl

/-- A code that is not Fatal touches registers and the Catalogue only: no station, no port, nothing sent. -/
theorem State.raise_mild (s : State) {c : Code} (u : UnitId) (e : List Word) (h : c.cls ≠ .fatal) :
    (s.raise c u e).out = s.out ∧ (s.raise c u e).prt = s.prt ∧ (s.raise c u e).cur = s.cur ∧
      (s.raise c u e).stn = s.stn := by
  unfold State.raise State.raiseAt
  simp only [h, if_false, or_false]
  split <;> split <;> (try split) <;> simp

theorem State.raiseOnce_mild (s : State) {c : Code} (u : UnitId) (k : Nat) (e : List Word) (h : c.cls ≠ .fatal) :
    (s.raiseOnce c u k e).out = s.out ∧ (s.raiseOnce c u k e).prt = s.prt ∧ (s.raiseOnce c u k e).cur = s.cur ∧
      (s.raiseOnce c u k e).stn = s.stn := by
  unfold State.raiseOnce
  split
  · exact ⟨rfl, rfl, rfl, rfl⟩
  · exact State.raise_mild _ u e h

theorem State.openWindow_queue (s : State) (u : UnitId) (i : Nat) (c : Code) :
    (s.openWindow u i c).cat.queue = s.cat.queue ∧ (s.openWindow u i c).cat.urgent = s.cat.urgent := by
  unfold State.openWindow; split <;> exact ⟨rfl, rfl⟩

@[simp] theorem State.fatalStop_queue (s : State) :
    s.fatalStop.cat.queue = s.cat.queue ∧ s.fatalStop.cat.urgent = s.cat.urgent := by
  have h1 := foldl_keep State.cat (fun (t : State) (p : PortId) => t.portDown p) (fun t p => by
    unfold State.portDown; simp only []; split <;> simp) allPorts
    ({ s with cat := { s.cat with fltFatal := true }, cur := { s.cur with clocksOn := false, engOff := Vector.replicate 16 true } } : State)
  unfold State.fatalStop
  simp only []
  rw [h1]
  exact ⟨rfl, rfl⟩

/-- Raising a code posts its event. -/
theorem State.raise_posted (s : State) (c : Code) (u : UnitId) (e : List Word) : posted c u s (s.raise c u e) := by
  let ev : Event :=
    { eid := s.cat.eid, ht := s.ht, code := c, cls := c.cls, unit := u, step := s.stepCur, temp := s.unitTemp u,
      tempMax := hottest s.cur.smp.tStn, load := s.loadOf u, detail := s.details c u e,
      parent := (s.cat.windows.find? (fun w => w.unit = u)).map (fun w => (w.eid, w.cls)) }
  refine ⟨ev, rfl, rfl, rfl, rfl, rfl, ?_⟩
  unfold State.raise State.raiseAt
  simp only []
  by_cases h1 : c.cls = .fenced ∨ c.cls = .fatal
  · simp only [h1, if_true]
    split <;> split <;> simp [State.openWindow_queue, ev]
  · have h2 : c.cls ≠ .fatal := fun x => h1 (Or.inr x)
    have h0 : c.cls ≠ .fenced := fun x => h1 (Or.inl x)
    simp only [h0, h2, or_self, if_false]
    by_cases h3 : s.cat.queue.length < 4096
    · simp only [h3, if_true]
      split <;> simp [State.openWindow_queue, ev]
    · simp only [h3, if_false]
      have hr : ∀ t : State, t.regs = (((({ s with cat := { s.cat with eid := s.cat.eid + 1 } } : State).inc
          Reg.catLost).setBitEvt Reg.catStatus 4)).regs →
          (t.rg Reg.catLost).toNat = min 0xFFFFFFFF ((s.rg Reg.catLost).toNat + 1) := by
        intro t ht
        rw [State.rg_congr ht, State.rg_setBitEvt_ne _ _ (by decide), State.rg_inc_self]
        rfl
      split
      · exact ⟨by simp [State.openWindow_queue], by simp [State.openWindow_queue], hr _ (by simp)⟩
      · exact ⟨rfl, rfl, hr _ rfl⟩

end Sys2Proof.Machine
end

