-- ==== Sys2Proof/Laws/Memory.lean ====
section
/-! SUPPORT. Every memory operation keeps the canonical form of the sparse stores, and leaves the queue of waiting commands
as it is. Each law is stated after an earlier state, so that the laws of a chain of operations follow one another. -/

namespace Sys2Proof.Machine

open Sys2Proof

/-- From `s` on, the queue of waiting commands stands, and the canonical form has been kept. -/
def steady (s t : State) : Prop := t.pending = s.pending ∧ (canonical s → canonical t)

theorem steady.refl (s : State) : steady s s := ⟨rfl, id⟩

theorem steady.trans {s t u : State} (h : steady s t) (k : steady t u) : steady s u :=
  ⟨k.1.trans h.1, fun c => k.2 (h.2 c)⟩

/-- A step whose every store is as it was. -/
theorem steady.same {s t u : State} (h : steady s t) (hp : u.pending = t.pending) (hr : u.regs = t.regs)
    (hd : u.dram = t.dram) (hf : u.flash = t.flash) (hv : ∀ n, (u.st n).vit = (t.st n).vit) : steady s u := by
  refine h.trans ⟨hp, fun c => ?_⟩
  obtain ⟨c1, c2, c3, c4⟩ := c
  exact ⟨hr ▸ c1, hd ▸ c2, hf ▸ c3, fun n => hv n ▸ c4 n⟩

theorem steady.foldl {β : Type} {s : State} (f : State → β → State) (hf : ∀ t b, steady s t → steady s (f t b)) (l : List β)
    {t : State} (h : steady s t) : steady s (l.foldl f t) := by
  induction l generalizing t with
  | nil => exact h
  | cons b r ih => exact ih (hf t b h)

/-- A register is written. -/
theorem steady.setRg {s t : State} (h : steady s t) (a : Nat) (v : Word) : steady s (t.setRg a v) :=
  h.trans ⟨rfl, fun c => ⟨Cells.set_wf _ _ _ _ c.1, c.2.1, c.2.2.1, c.2.2.2⟩⟩

theorem steady.setRf {s t : State} (h : steady s t) (a lo n v : Nat) : steady s (t.setRf a lo n v) := h.setRg _ _

theorem steady.setRg64 {s t : State} (h : steady s t) (a : Nat) (v : DWord) : steady s (t.setRg64 a v) :=
  (h.setRg _ _).setRg _ _

theorem steady.event {s t : State} (h : steady s t) (a : Nat) (f : Word → Word) : steady s (t.event a f) :=
  h.trans ⟨rfl, fun c => ⟨Cells.set_wf _ _ _ _ c.1, c.2.1, c.2.2.1, c.2.2.2⟩⟩

theorem steady.addSat {s t : State} (h : steady s t) (a n : Nat) : steady s (t.addSat a n) := h.event _ _

theorem steady.inc {s t : State} (h : steady s t) (a : Nat) : steady s (t.inc a) := h.addSat _ _

/-- A station changes, its Vitrine keeping the form. -/
theorem steady.modSt' {s t : State} (h : steady s t) (n : StnId) (f : Stn → Stn)
    (hf : Cells.wf zeroByte (t.st n).vit = true → Cells.wf zeroByte (f (t.st n)).vit = true) : steady s (t.modSt n f) := by
  refine h.trans ⟨rfl, fun c => ⟨c.1, c.2.1, c.2.2.1, fun m => ?_⟩⟩
  by_cases e : m = n
  · rw [e, State.st_modSt_self]; exact hf (c.2.2.2 n)
  · rw [State.st_modSt_ne t f e]; exact c.2.2.2 m

/-- A station changes but for its Vitrine. -/
theorem steady.modSt {s t : State} (h : steady s t) (n : StnId) (f : Stn → Stn) (hf : ∀ x, (f x).vit = x.vit) :
    steady s (t.modSt n f) := h.modSt' n f (fun c => by rw [hf]; exact c)

theorem steady.setPt {s t : State} (h : steady s t) (p : PortId) (x : Prt) : steady s (t.setPt p x) :=
  h.same rfl rfl rfl rfl (fun _ => rfl)

theorem steady.modPt {s t : State} (h : steady s t) (p : PortId) (f : Prt → Prt) : steady s (t.modPt p f) := h.setPt _ _

theorem steady.modSk {s t : State} (h : steady s t) (k : StackId) (f : Stk → Stk) : steady s (t.modSk k f) :=
  h.same rfl rfl rfl rfl (fun _ => rfl)

theorem steady.emit {s t : State} (h : steady s t) (o : Out) : steady s (t.emit o) :=
  h.same rfl rfl rfl rfl (fun _ => rfl)

/-! ### Reports -/

theorem steady.setBitEvt {s t : State} (h : steady s t) (a i : Nat) : steady s (t.setBitEvt a i) := h.event _ _

theorem steady.sendMsi {s t : State} (h : steady s t) (v : Nat) : steady s (t.sendMsi v) := by
  unfold State.sendMsi; split
  · exact h.setRf _ _ _ _
  · exact h.emit _

theorem steady.vector {s t : State} (h : steady s t) (v : Nat) : steady s (t.vector v) := by
  unfold State.vector; dsimp only; split
  · exact (h.setBitEvt _ _).sendMsi _
  · exact h.setBitEvt _ _

theorem steady.setStatus {s t : State} (h : steady s t) (a i v : Nat) : steady s (t.setStatus a i v) := by
  unfold State.setStatus; split
  · exact h.setBitEvt _ _
  · exact (h.setBitEvt _ _).vector _

theorem steady.curEvent {s t : State} (h : steady s t) (i : Nat) : steady s (t.curEvent i) := h.setStatus _ _ _

theorem steady.openWindow {s t : State} (h : steady s t) (u : UnitId) (e : Nat) (c : Code) : steady s (t.openWindow u e c) := by
  unfold State.openWindow; split
  · exact h
  · exact h.same rfl rfl rfl rfl (fun _ => rfl)

theorem steady.closeWindows {s t : State} (h : steady s t) (u : UnitId) (p : Code → Bool) : steady s (t.closeWindows u p) :=
  h.same rfl rfl rfl rfl (fun _ => rfl)

/-! ### DRAM -/

theorem steady.dramPut {s t : State} (h : steady s t) (o : Nat) (bs : List Byte) : steady s (t.dramPut o bs) :=
  h.trans ⟨rfl, fun c => ⟨c.1, Cells.write_wf _ _ _ _ c.2.1, c.2.2.1, c.2.2.2⟩⟩

theorem steady.setBad {s t : State} (h : steady s t) (w b : Nat) : steady s (t.setBad w b) :=
  h.same rfl rfl rfl rfl (fun _ => rfl)

/-! ### Vitrine -/

theorem Stn.vitPut_wf (x : Stn) (a : Nat) (bs : List Byte) (h : Cells.wf zeroByte x.vit = true) :
    Cells.wf zeroByte (x.vitPut a bs).vit = true := Cells.write_wf _ _ _ _ h

theorem steady.vitPut {s t : State} (h : steady s t) (n : StnId) (a : Nat) (bs : List Byte) :
    steady s (t.modSt n (fun x => x.vitPut a bs)) := h.modSt' n _ (Stn.vitPut_wf _ _ _)

theorem steady.vitWrite {s t : State} (h : steady s t) (n : StnId) (a : Nat) (bs : List Byte) :
    steady s (t.vitWrite n a bs) := h.modSt' n _ (Stn.vitPut_wf _ _ _)

theorem steady.putBlk {s t : State} (h : steady s t) (n : StnId) (b : Nat) (bs : List Byte) :
    steady s (t.putBlk n b bs) := h.modSt' n _ (Stn.vitPut_wf _ _ _)

end Sys2Proof.Machine
end

