-- ==== Sys2Proof/Laws/PerInstr.lean ====
section
/-! SUPPORT. The family Shape, command by command: the table gives no row any bits, so no word spells a command. -/

namespace Sys2Proof.Laws.Shape

open Sys2Proof

/-- No word of any length spells the command. -/
def Statement (i : Instr) : Prop := ∀ nbits w, decodeTableWord nbits w ≠ some i

/-- No word spells any command. -/
theorem of_any (i : Instr) : Statement i := fun _ _ h => nomatch h

theorem powerOnReset : Statement (.powerOnReset) := of_any _
theorem auxPowerLoss : Statement (.auxPowerLoss) := of_any _
theorem pcieReset (cause : PcieRestart) : Statement (.pcieReset cause) := of_any _
theorem warmReset (value : Word) : Statement (.warmReset value) := of_any _
theorem curatorBoot : Statement (.curatorBoot) := of_any _
theorem stageAdvance (straps : List Strap) : Statement (.stageAdvance straps) := of_any _
theorem stackTrainingFail (k : StackId) : Statement (.stackTrainingFail k) := of_any _
theorem wavePower (w : Fin 8) : Statement (.wavePower w) := of_any _
theorem waveRelease (w : Fin 8) : Statement (.waveRelease w) := of_any _
theorem phaseCOutputEnable : Statement (.phaseCOutputEnable) := of_any _
theorem tsyncEdge : Statement (.tsyncEdge) := of_any _
theorem tsyncPulse : Statement (.tsyncPulse) := of_any _
theorem tstampSend : Statement (.tstampSend) := of_any _
theorem tstampRecord (p : PortId) (t3 t1 t2 t4 : DWord) : Statement (.tstampRecord p t3 t1 t2 t4) := of_any _
theorem parentStandbySwitch : Statement (.parentStandbySwitch) := of_any _
theorem holdoverLimitExpire : Statement (.holdoverLimitExpire) := of_any _
theorem rootConflict (p : PortId) (rank : Fin 512) : Statement (.rootConflict p rank) := of_any _
theorem parade : Statement (.parade) := of_any _
theorem bucketDeadline (b : Fin 4096) : Statement (.bucketDeadline b) := of_any _
theorem closingBegin : Statement (.closingBegin) := of_any _
theorem drainComplete : Statement (.drainComplete) := of_any _
theorem closeOverrun : Statement (.closeOverrun) := of_any _
theorem stepOpen : Statement (.stepOpen) := of_any _
theorem stoppedToClosed : Statement (.stoppedToClosed) := of_any _
theorem stepEndRelease (n : StnId) (st : Stream) : Statement (.stepEndRelease n st) := of_any _
theorem txnBegin (r : Requester) (value : Word) : Statement (.txnBegin r value) := of_any _
theorem txnCommitNow (r : Requester) : Statement (.txnCommitNow r) := of_any _
theorem txnCommitAt (r : Requester) : Statement (.txnCommitAt r) := of_any _
theorem txnRollback (r : Requester) (value : Word) : Statement (.txnRollback r value) := of_any _
theorem txnTakesEffect (r : Requester) : Statement (.txnTakesEffect r) := of_any _
theorem roleFromOffRelease (n : StnId) : Statement (.roleFromOffRelease n) := of_any _
theorem gateBankTakeover (p : PortId) : Statement (.gateBankTakeover p) := of_any _
theorem registerWrite (r : Requester) (addr : Nat) (value : RegWords) : Statement (.registerWrite r addr value) := of_any _
theorem rcRead (addr : RegRead) : Statement (.rcRead addr) := of_any _
theorem pairLoRead (addr : RegRead) : Statement (.pairLoRead addr) := of_any _
theorem stnRunSet (n : StnId) : Statement (.stnRunSet n) := of_any _
theorem stnRunClear (n : StnId) : Statement (.stnRunClear n) := of_any _
theorem stnRestart (n : StnId) : Statement (.stnRestart n) := of_any _
theorem stnFenceReq (n : StnId) : Statement (.stnFenceReq n) := of_any _
theorem stnFlagSet (n : StnId) (mask : Word) : Statement (.stnFlagSet n mask) := of_any _
theorem stnFlagClr (n : StnId) (mask : Word) : Statement (.stnFlagClr n mask) := of_any _
theorem asNop (n : StnId) : Statement (.asNop n) := of_any _
theorem asJmp (n : StnId) : Statement (.asJmp n) := of_any _
theorem asDbnz (n : StnId) : Statement (.asDbnz n) := of_any _
theorem asBeqz (n : StnId) : Statement (.asBeqz n) := of_any _
theorem asStepw (n : StnId) : Statement (.asStepw n) := of_any _
theorem asHtwait (n : StnId) : Statement (.asHtwait n) := of_any _
theorem asLil (n : StnId) : Statement (.asLil n) := of_any _
theorem asLim (n : StnId) : Statement (.asLim n) := of_any _
theorem asLih (n : StnId) : Statement (.asLih n) := of_any _
theorem asAddi (n : StnId) : Statement (.asAddi n) := of_any _
theorem asAdd (n : StnId) : Statement (.asAdd n) := of_any _
theorem asSub (n : StnId) : Statement (.asSub n) := of_any _
theorem asTld (n : StnId) : Statement (.asTld n) := of_any _
theorem asTldp (n : StnId) : Statement (.asTldp n) := of_any _
theorem asTst (n : StnId) : Statement (.asTst n) := of_any _
theorem asTstp (n : StnId) : Statement (.asTstp n) := of_any _
theorem asTfwd (n : StnId) : Statement (.asTfwd n) := of_any _
theorem asTsend (n : StnId) : Statement (.asTsend n) := of_any _
theorem asTdrop (n : StnId) : Statement (.asTdrop n) := of_any _
theorem asThld (n : StnId) : Statement (.asThld n) := of_any _
theorem asBcopy (n : StnId) : Statement (.asBcopy n) := of_any _
theorem asFset (n : StnId) : Statement (.asFset n) := of_any _
theorem asFclr (n : StnId) : Statement (.asFclr n) := of_any _
theorem asFwait (n : StnId) : Statement (.asFwait n) := of_any _
theorem tldDataArrive (n : StnId) : Statement (.tldDataArrive n) := of_any _
theorem bcopyComplete (n : StnId) (k : Nat) : Statement (.bcopyComplete n k) := of_any _
theorem xsBundleIssue (n : StnId) : Statement (.xsBundleIssue n) := of_any _
theorem engineResultLand (n : StnId) : Statement (.engineResultLand n) := of_any _
theorem watchdogExpire (n : StnId) : Statement (.watchdogExpire n) := of_any _
theorem lupinJobStart (n : StnId) : Statement (.lupinJobStart n) := of_any _
theorem lupinTile (n : StnId) : Statement (.lupinTile n) := of_any _
theorem cutArm (n : StnId) (reg : CutReg) (value : Word) : Statement (.cutArm n reg value) := of_any _
theorem cutFreeze (n : StnId) : Statement (.cutFreeze n) := of_any _
theorem cutResume (n : StnId) : Statement (.cutResume n) := of_any _
theorem cutDataRead (n : StnId) : Statement (.cutDataRead n) := of_any _
theorem endpointFrameReceive (p : PortId) (frame : List Byte) (corr uncorr : Nat) : Statement (.endpointFrameReceive p frame corr uncorr) := of_any _
theorem fabricCellReceive (p : PortId) (cell : List Byte) (corr uncorr : Nat) : Statement (.fabricCellReceive p cell corr uncorr) := of_any _
theorem reassemblyGapTimeout (p : PortId) : Statement (.reassemblyGapTimeout p) := of_any _
theorem ackSend (p : PortId) : Statement (.ackSend p) := of_any _
theorem ackRecord (p : PortId) (lseq : BitVec 16) : Statement (.ackRecord p lseq) := of_any _
theorem nakRecord (p : PortId) (lseq : BitVec 16) : Statement (.nakRecord p lseq) := of_any _
theorem creditRecord (p : PortId) (words : List Word) : Statement (.creditRecord p words) := of_any _
theorem identRecord (p : PortId) (w1 w2 : Word) : Statement (.identRecord p w1 w2) := of_any _
theorem epitaphRecord (p : PortId) (failed : PortId) (lseq : BitVec 16) : Statement (.epitaphRecord p failed lseq) := of_any _
theorem epitaphTimeout (p : PortId) : Statement (.epitaphTimeout p) := of_any _
theorem pcsLock (p : PortId) : Statement (.pcsLock p) := of_any _
theorem blockLockLossTimeout (p : PortId) : Statement (.blockLockLossTimeout p) := of_any _
theorem twinTakeover (p : PortId) : Statement (.twinTakeover p) := of_any _
theorem retrainTimeout (p : PortId) : Statement (.retrainTimeout p) := of_any _
theorem fabricCreditStart (p : PortId) : Statement (.fabricCreditStart p) := of_any _
theorem accRetry : Statement (.accRetry) := of_any _
theorem lldpduTransmit (p : PortId) : Statement (.lldpduTransmit p) := of_any _
theorem lldpduReceive (p : PortId) (du : Lldpdu) : Statement (.lldpduReceive p du) := of_any _
theorem lldpNeighbourExpiry (p : PortId) : Statement (.lldpNeighbourExpiry p) := of_any _
theorem ptpSyncTransmit (p : PortId) : Statement (.ptpSyncTransmit p) := of_any _
theorem ptpMessageReceive (p : PortId) (msg : PtpMsg) : Statement (.ptpMessageReceive p msg) := of_any _
theorem frameTransmitStart (p : PortId) (c : TClass) : Statement (.frameTransmitStart p c) := of_any _
theorem slotEnd (p : PortId) (c : TClass) : Statement (.slotEnd p c) := of_any _
theorem telemetrySample : Statement (.telemetrySample) := of_any _
theorem landingCreditReserve (l : Landing) (c : TClass) : Statement (.landingCreditReserve l c) := of_any _
theorem crossingGrant : Statement (.crossingGrant) := of_any _
theorem crossingDelivery (t : StnId) : Statement (.crossingDelivery t) := of_any _
theorem ageingSweep : Statement (.ageingSweep) := of_any _
theorem replyReservationLapse (n : StnId) : Statement (.replyReservationLapse n) := of_any _
theorem bucketHeaderReceive (p : PortId) (bh : List Word) : Statement (.bucketHeaderReceive p bh) := of_any _
theorem bucketTileReceive (p : PortId) (tile : List Byte) : Statement (.bucketTileReceive p tile) := of_any _
theorem sizeExchangeRound (b : Fin 4096) (r : Fin 9) : Statement (.sizeExchangeRound b r) := of_any _
theorem excludeScan (b : Fin 4096) : Statement (.excludeScan b) := of_any _
theorem entryStageChunk (b : Fin 4096) (h : Nat) : Statement (.entryStageChunk b h) := of_any _
theorem fabricRoundChunk (b : Fin 4096) (r : Fin 9) (h : Nat) : Statement (.fabricRoundChunk b r h) := of_any _
theorem shardDelivery (b : Fin 4096) : Statement (.shardDelivery b) := of_any _
theorem crsRedAbandon (value : Word) : Statement (.crsRedAbandon value) := of_any _
theorem sittingHeaderReceive (p : PortId) (sh : List Word) : Statement (.sittingHeaderReceive p sh) := of_any _
theorem optStepSummary : Statement (.optStepSummary) := of_any _
theorem moeStepSummary : Statement (.moeStepSummary) := of_any _
theorem tallyRingDrain : Statement (.tallyRingDrain) := of_any _
theorem lockHoldCutoff (k : StackId) : Statement (.lockHoldCutoff k) := of_any _
theorem dramScrubStep (k : StackId) : Statement (.dramScrubStep k) := of_any _
theorem vitrineScrubStep (n : StnId) (line : Nat) : Statement (.vitrineScrubStep n line) := of_any _
theorem imgLoadStart : Statement (.imgLoadStart) := of_any _
theorem imgPush (value : Word) : Statement (.imgPush value) := of_any _
theorem imgLoadEnd (tryBit : Bool) : Statement (.imgLoadEnd tryBit) := of_any _
theorem imgVerifyComplete : Statement (.imgVerifyComplete) := of_any _
theorem imgConfirm : Statement (.imgConfirm) := of_any _
theorem plinthFrameRise : Statement (.plinthFrameRise) := of_any _
theorem plinthBlockReceive (block : List Byte) : Statement (.plinthBlockReceive block) := of_any _
theorem plinthFrameFall : Statement (.plinthFrameFall) := of_any _
theorem echo : Statement (.echo) := of_any _
theorem info : Statement (.info) := of_any _
theorem flashRead : Statement (.flashRead) := of_any _
theorem mirrorRead : Statement (.mirrorRead) := of_any _
theorem attest : Statement (.attest) := of_any _
theorem stnProg : Statement (.stnProg) := of_any _
theorem catFlush : Statement (.catFlush) := of_any _
theorem mailboxComplete : Statement (.mailboxComplete) := of_any _
theorem curatorSample (smp : Sample) : Statement (.curatorSample smp) := of_any _
theorem ladderFall : Statement (.ladderFall) := of_any _
theorem stackThrottleRelease (k : StackId) : Statement (.stackThrottleRelease k) := of_any _
theorem overpowerComparator : Statement (.overpowerComparator) := of_any _
theorem curatorGuardExpire : Statement (.curatorGuardExpire) := of_any _
theorem vinOvervoltageTrip : Statement (.vinOvervoltageTrip) := of_any _
theorem vinUndervoltageTrip : Statement (.vinUndervoltageTrip) := of_any _
theorem railRegulationTrip : Statement (.railRegulationTrip) := of_any _
theorem logicOvertempTrip : Statement (.logicOvertempTrip) := of_any _
theorem stackOvertempTrip (k : StackId) : Statement (.stackOvertempTrip k) := of_any _
theorem valveLoop : Statement (.valveLoop) := of_any _
theorem leakDetected : Statement (.leakDetected) := of_any _
theorem holdChange (level : Bool) : Statement (.holdChange level) := of_any _
theorem inputChatter (pin : PinIn) : Statement (.inputChatter pin) := of_any _
theorem inputStuckTimeout (pin : PinIn) : Statement (.inputStuckTimeout pin) := of_any _
theorem pltUnmask (value : Word) : Statement (.pltUnmask value) := of_any _
theorem fltClr : Statement (.fltClr) := of_any _
theorem catalogueEventTake : Statement (.catalogueEventTake) := of_any _
theorem fencedEventRecord : Statement (.fencedEventRecord) := of_any _
theorem epochSeal : Statement (.epochSeal) := of_any _
theorem cataloguePersistFlush : Statement (.cataloguePersistFlush) := of_any _
theorem flashCopyComplete : Statement (.flashCopyComplete) := of_any _
theorem catalogueFreeze : Statement (.catalogueFreeze) := of_any _
theorem catalogueUnfreeze : Statement (.catalogueUnfreeze) := of_any _
theorem freezeLapse : Statement (.freezeLapse) := of_any _
theorem catWindowCapture : Statement (.catWindowCapture) := of_any _
theorem catWindowAdvance : Statement (.catWindowAdvance) := of_any _
theorem scoreDecay : Statement (.scoreDecay) := of_any _
theorem catCondClr (value : Word) : Statement (.catCondClr value) := of_any _
theorem bar2Read (off len : Nat) (tlp : Tlp) : Statement (.bar2Read off len tlp) := of_any _
theorem bar2ReadComplete : Statement (.bar2ReadComplete) := of_any _
theorem bar2Write (off : Nat) (bytes : List Byte) (tlp : Tlp) : Statement (.bar2Write off bytes tlp) := of_any _
theorem bar2Fetchadd (off : AtomicAt) (w : AtomicWidth) (v : DWord) : Statement (.bar2Fetchadd off w v) := of_any _
theorem bar2Swap (off : AtomicAt) (w : AtomicWidth) (v : DWord) : Statement (.bar2Swap off w v) := of_any _
theorem bar2Cas (off : AtomicAt) (w : AtomicWidth) (cmp v : DWord) : Statement (.bar2Cas off w cmp v) := of_any _
theorem bar4Read (off len : Nat) (tlp : Tlp) : Statement (.bar4Read off len tlp) := of_any _
theorem bar4Write (off : Nat) (bytes : List Byte) (tlp : Tlp) : Statement (.bar4Write off bytes tlp) := of_any _
theorem htwaitComplete (n : StnId) : Statement (.htwaitComplete n) := of_any _
theorem imgLoadBusyClear : Statement (.imgLoadBusyClear) := of_any _
theorem phaseCInputsRead : Statement (.phaseCInputsRead) := of_any _
theorem exactSumLossReport (loss : Bool) : Statement (.exactSumLossReport loss) := of_any _
theorem bar0MalformedRead (dws : Nat) : Statement (.bar0MalformedRead dws) := of_any _

end Sys2Proof.Laws.Shape
end

