-- ==== Sys2Proof/Laws/Station.lean ====
section
/-! SUPPORT. Laws of a station: what the landing of results touches, what the issue of an access-stream instruction
does, how a halted or fenced station is left. -/

namespace Sys2Proof.Machine

open Sys2Proof

/-- What the landing of results at station `n` may touch: its execute stream, blocks, Vitrine and reported flags; three
registers of the station; the Catalogue; free values. -/
def landsOnly (n : StnId) (s t : State) : Prop :=
  t = { s with regs := t.regs, evts := t.evts, stn := t.stn, cat := t.cat, free := t.free } ∧ stnsBut n s t ∧
  (∀ a, ¬ reportReg a → a ∉ [Reg.stnNumFlags n.val, Reg.stnPhxRecs n.val, Reg.stnPhxKept n.val] → t.rg a = s.rg a) ∧
  t.st n = { s.st n with
    used := (t.st n).used, vit := (t.st n).vit, vitBad := (t.st n).vitBad, vitBack := (t.st n).vitBack, xs := (t.st n).xs,
    numDone := (t.st n).numDone, cyc := (t.st n).cyc }

theorem landsOnly.refl (n : StnId) (s : State) : landsOnly n s s := ⟨rfl, fun _ _ => rfl, fun _ _ _ => rfl, rfl⟩

theorem landsOnly.trans {n : StnId} {s t u : State} (h : landsOnly n s t) (k : landsOnly n t u) : landsOnly n s u := by
  obtain ⟨h1, h2, h3, h4⟩ := h
  obtain ⟨k1, k2, k3, k4⟩ := k
  refine ⟨?_, fun m hm => (k2 m hm).trans (h2 m hm), fun a ha hl => (k3 a ha hl).trans (h3 a ha hl), ?_⟩
  · rw [k1, h1]
  · rw [k4, h4]

/-- A change of station `n` within its execute stream, blocks, Vitrine and reported flags. -/
theorem landsOnly.modSt (s : State) (n : StnId) (f : Stn → Stn)
    (hf : f (s.st n) = { s.st n with
      used := (f (s.st n)).used, vit := (f (s.st n)).vit, vitBad := (f (s.st n)).vitBad, vitBack := (f (s.st n)).vitBack,
      xs := (f (s.st n)).xs, numDone := (f (s.st n)).numDone, cyc := (f (s.st n)).cyc }) :
    landsOnly n s (s.modSt n f) :=
  ⟨rfl, fun _ hm => State.st_modSt_ne s f hm, fun _ _ _ => rfl, by rw [State.st_modSt_self]; exact hf⟩

/-- A report that is not Fatal. -/
theorem landsOnly.raise (s : State) (n : StnId) {c : Code} (u : UnitId) (e : List Word) (h : c.cls ≠ .fatal) :
    landsOnly n s (s.raise c u e) := by
  obtain ⟨h1, h2, h3, h4⟩ := State.raise_mild s u e h
  have hf := State.raise_frame s c u e
  refine ⟨?_, fun m _ => ?_, fun a ha _ => State.rg_raise s c u e ha, ?_⟩
  · apply State.eq_of <;> simp [h1, h2, h3, h4]
  · unfold State.st; rw [h4]
  · unfold State.st; rw [h4]

theorem Stn.freeTile_shape (x : Stn) (b : Option Nat) :
    x.freeTile b = { x with used := (x.freeTile b).used, cyc := (x.freeTile b).cyc } := by
  unfold Stn.freeTile; split
  · rfl
  · split <;> rfl

theorem Stn.replaceT_shape (x : Stn) (d : Fin 16) (t : Option Tile) :
    x.replaceT d t = { x with used := (x.replaceT d t).used, xs := (x.replaceT d t).xs, cyc := (x.replaceT d t).cyc } := by
  unfold Stn.replaceT
  dsimp only
  rw [Stn.freeTile_shape]

theorem Stn.landTile_shape (x : Stn) (d : Fin 16) (th : TH) (b : Nat) (bs : List Byte) :
    x.landTile d th b bs =
      { x with
        used := (x.landTile d th b bs).used, vit := (x.landTile d th b bs).vit, vitBad := (x.landTile d th b bs).vitBad,
        vitBack := (x.landTile d th b bs).vitBack, xs := (x.landTile d th b bs).xs, cyc := (x.landTile d th b bs).cyc } := by
  unfold Stn.landTile
  rw [Stn.replaceT_shape]
  rfl

/-- A result that lands touches blocks, Vitrine and the execute stream only. -/
theorem Stn.landRes_shape (x : Stn) (r : Result) :
    x.landRes r = { x with
      used := (x.landRes r).used, vit := (x.landRes r).vit, vitBad := (x.landRes r).vitBad, vitBack := (x.landRes r).vitBack,
      xs := (x.landRes r).xs, cyc := (x.landRes r).cyc } := by
  cases r with
  | tile d th b bytes m =>
    unfold Stn.landRes
    simp only []
    cases m <;> simp only [] <;> rw [Stn.landTile_shape]
  | tile2 d th b bytes th2 b2 bytes2 =>
    unfold Stn.landRes
    simp only []
    rw [Stn.landTile_shape, Stn.landTile_shape x d]
  | x d v => rfl
  | acc i a => rfl
  | ea i c => rfl
  | thWord d w v =>
    unfold Stn.landRes
    simp only []
    split
    · unfold Stn.putTh
      split
      · rw [Stn.replaceT_shape]
      · split <;> rfl
    · rfl
  | frame d t => unfold Stn.landRes; simp only []; rw [Stn.replaceT_shape]
  | empty d => unfold Stn.landRes; simp only []; rw [Stn.replaceT_shape]
  | superseded => rfl

theorem landsOnly.event (s : State) (n : StnId) {a : Nat} (f : Word → Word)
    (h : a ∈ [Reg.stnNumFlags n.val, Reg.stnPhxRecs n.val, Reg.stnPhxKept n.val]) : landsOnly n s (s.event a f) :=
  ⟨rfl, fun _ _ => rfl, fun _ _ hb => State.rg_setRg_ne s _ (fun e => hb (e ▸ h)), rfl⟩

theorem landsOnly.numFlags (s : State) (n : StnId) (fl : BitVec 5) (th : TH) : landsOnly n s (s.numFlags n fl th) := by
  unfold State.numFlags
  refine foldl_inv (landsOnly n s) _ ?_ _ _ (landsOnly.refl n s)
  intro t i ht
  split
  · have h1 : landsOnly n s (t.setBitEvt (Reg.stnNumFlags n.val) i) := ht.trans (landsOnly.event _ _ _ (by simp))
    simp only []
    split
    · refine (h1.trans (landsOnly.modSt _ n _ rfl)).trans (landsOnly.raise _ n _ _ (by decide))
    · exact h1
  · exact ht

theorem landsOnly.landOne (s : State) (n : StnId) (p : Pend) : landsOnly n s (s.landOne n p) := by
  have h1 : landsOnly n s (s.modSt n (fun x => (x.landRes p.res).settleAcc p.res.accOf p.order)) :=
    landsOnly.modSt s n _ (by unfold Stn.settleAcc; rw [Stn.landRes_shape])
  have h2 : ∀ t, landsOnly n s t → landsOnly n s (t.freeMax n) := fun t h =>
    h.trans ⟨rfl, fun _ hm => State.st_modSt_ne _ _ hm, fun _ _ _ => rfl, by unfold State.freeMax; rw [State.st_modSt_self]; rfl⟩
  have h3 : ∀ t k v, landsOnly n s t → k ∈ [Reg.stnPhxRecs n.val, Reg.stnPhxKept n.val] →
      landsOnly n s (if v = 0 then t else t.addSat k v) := fun t k v h hk => by
    split
    · exact h
    · exact h.trans (landsOnly.event _ n _ (List.mem_cons_of_mem _ hk))
  unfold State.landOne
  dsimp only
  refine landsOnly.trans (h3 _ _ _ (h3 _ _ _ ?_ (by simp)) (by simp)) (landsOnly.numFlags _ n _ _)
  split
  · exact h2 _ h1
  · exact h1

theorem landsOnly.landFirst (n : StnId) (c : Option Nat) (k : Nat) (s : State) : landsOnly n s (State.landFirst n c k s) := by
  induction k generalizing s with
  | zero => exact landsOnly.refl n s
  | succ k ih =>
    unfold State.landFirst
    split
    · exact landsOnly.refl n s
    · exact ((landsOnly.modSt s n _ rfl).trans (landsOnly.landOne _ n _)).trans (ih _)

theorem landsOnly.landAll (s : State) (n : StnId) : landsOnly n s (s.landAll n) := landsOnly.landFirst n _ _ s

theorem landsOnly.landDue (s : State) (n : StnId) (c : Nat) : landsOnly n s (s.landDue n c) := landsOnly.landFirst n _ _ s

/-! ### Discarded frames, fences and halts -/

/-- What the discarding of a frame may touch: VOQs, queues and blocks of stations, credit of ports. -/
def dropsOnly (s t : State) : Prop :=
  t = { s with stn := t.stn, prt := t.prt } ∧
  (∀ m, t.st m = { s.st m with
    voq := (t.st m).voq, q := (t.st m).q, used := (t.st m).used, ingUsed := (t.st m).ingUsed, cyc := (t.st m).cyc }) ∧
  (∀ p, (t.pt p).acc = (s.pt p).acc)

theorem dropsOnly.refl (s : State) : dropsOnly s s := ⟨rfl, fun _ => rfl, fun _ => rfl⟩

theorem dropsOnly.trans {s t u : State} (h : dropsOnly s t) (k : dropsOnly t u) : dropsOnly s u := by
  obtain ⟨h1, h2, h3⟩ := h
  obtain ⟨k1, k2, k3⟩ := k
  refine ⟨?_, fun m => ?_, fun p => (k3 p).trans (h3 p)⟩
  · rw [k1, h1]
  · rw [k2, h2]

theorem dropsOnly.modSt (s : State) (n : StnId) (f : Stn → Stn)
    (hf : f (s.st n) = { s.st n with
      voq := (f (s.st n)).voq, q := (f (s.st n)).q, used := (f (s.st n)).used, ingUsed := (f (s.st n)).ingUsed,
      cyc := (f (s.st n)).cyc }) :
    dropsOnly s (s.modSt n f) := by
  refine ⟨rfl, fun m => ?_, fun _ => rfl⟩
  by_cases h : m = n
  · subst h; rw [State.st_modSt_self]; exact hf
  · rw [State.st_modSt_ne s f h]

theorem dropsOnly.modPt (s : State) (p : PortId) (f : Prt → Prt) (hf : ∀ x, (f x).acc = x.acc) :
    dropsOnly s (s.modPt p f) := by
  refine ⟨rfl, fun _ => rfl, fun q => ?_⟩
  by_cases h : q = p
  · subst h; rw [State.pt_modPt_self]; exact hf _
  · rw [State.pt_modPt_ne s f h]

theorem Prt.giveCredit_acc (x : Prt) (pool : Fin 6) (b : Bool) : (x.giveCredit pool b).acc = x.acc := by
  unfold Prt.giveCredit; split <;> rfl

theorem Prt.leaveRoom_acc (x : Prt) (pool : Fin 6) (b : Bool) : (x.leaveRoom pool b).acc = x.acc := by
  unfold Prt.leaveRoom; split <;> rfl

theorem Stn.freeBlk_shape (x : Stn) (i b : Nat) :
    x.freeBlk i b = { x with used := (x.freeBlk i b).used, cyc := (x.freeBlk i b).cyc } := rfl

theorem dropsOnly.freeTile (s : State) (n : StnId) (b : Option Nat) : dropsOnly s (s.modSt n (fun x => x.freeTile b)) := by
  refine dropsOnly.modSt s n _ ?_
  dsimp only
  generalize e : (s.st n).freeTile b = y
  rw [← e, Stn.freeTile_shape]

theorem dropsOnly.releaseHold (s : State) (n : StnId) (h : Hold) : dropsOnly s (s.releaseHold n h) := by
  cases h with
  | none => exact dropsOnly.refl s
  | ingress pool hdr p b =>
    unfold State.releaseHold
    exact (dropsOnly.modPt s p (fun x => x.leaveRoom (Fin.ofNat 6 pool) hdr) (fun x => Prt.leaveRoom_acc x _ _)).trans
      (dropsOnly.modSt _ n _ rfl)
  | vitrine b => exact dropsOnly.freeTile s n (some b)

theorem dropsOnly.freeCurator (s : State) (n : StnId) (f : VoqFrame) :
    dropsOnly s (s.modSt n (fun x => x.freeCurator f)) := by
  refine dropsOnly.modSt s n _ ?_
  unfold Stn.freeCurator
  dsimp only
  split <;> rfl

theorem dropsOnly.releaseLanding (s : State) (f : VoqFrame) : dropsOnly s (s.releaseLanding f) := by
  unfold State.releaseLanding
  split
  · exact dropsOnly.refl s
  · split
    · refine dropsOnly.modSt s _ _ ?_
      dsimp only
      rw [Stn.freeTile_shape]
    · exact dropsOnly.freeCurator s _ f
    · exact foldl_inv (dropsOnly s) _ (fun t p ht => ht.trans (dropsOnly.modPt t _ _ (fun x => Prt.giveCredit_acc x _ _)))
        _ _ (dropsOnly.refl s)

/-- A frame that leaves its VOQ. -/
theorem dropsOnly.dropFrame (s : State) (n : StnId) (f : VoqFrame) : dropsOnly s (s.dropFrame n f) := by
  unfold State.dropFrame
  exact ((dropsOnly.modSt s n _ rfl).trans (dropsOnly.releaseHold _ n _)).trans (dropsOnly.releaseLanding _ f)

theorem dropsOnly.rg {s t : State} (h : dropsOnly s t) (a : Nat) : t.rg a = s.rg a := by
  rw [h.1]; rfl

/-- Blocks freed one after the other. -/
theorem Stn.freeTiles_shape {α : Type} (g : α → Option Nat) (l : List α) (x : Stn) :
    l.foldl (fun y a => y.freeTile (g a)) x =
      { x with used := (l.foldl (fun y a => y.freeTile (g a)) x).used, cyc := (l.foldl (fun y a => y.freeTile (g a)) x).cyc } := by
  induction l generalizing x with
  | nil => rfl
  | cons a l ih => rw [List.foldl_cons, ih, Stn.freeTile_shape]

theorem Stn.clearLupin_shape (x : Stn) :
    x.clearLupin = { x with used := x.clearLupin.used, cyc := x.clearLupin.cyc, lup := Lupin.reset } := by
  unfold Stn.clearLupin
  rw [Stn.freeTiles_shape (fun t : Tile => t.blk)]

theorem Stn.clearQueues_shape (x : Stn) :
    x.clearQueues = { x with used := x.clearQueues.used, cyc := x.clearQueues.cyc, q := x.clearQueues.q, loads := [] } := by
  have key : ∀ (ls : List (List QEntry)) (x : Stn),
      ls.foldl (fun z l => (l.filter (fun e => !e.crossing)).foldl Stn.freeEntry z) x =
        { x with used := (ls.foldl (fun z l => (l.filter (fun e => !e.crossing)).foldl Stn.freeEntry z) x).used,
                 cyc := (ls.foldl (fun z l => (l.filter (fun e => !e.crossing)).foldl Stn.freeEntry z) x).cyc } := by
    intro ls
    induction ls with
    | nil => intro x; rfl
    | cons a l ih =>
      intro x
      rw [List.foldl_cons, ih]
      unfold Stn.freeEntry
      rw [Stn.freeTiles_shape (fun e : QEntry => e.tile.blk)]
  unfold Stn.clearQueues
  simp only []
  rw [key]

theorem Stn.clearT_shape (x : Stn) : x.clearT = { x with used := x.clearT.used, cyc := x.clearT.cyc, xs := x.clearT.xs } := by
  have key : ∀ (l : List (Fin 16)) (x : Stn), l.foldl (fun (y : Stn) (d : Fin 16) => y.replaceT d none) x =
      { x with used := (l.foldl (fun (y : Stn) (d : Fin 16) => y.replaceT d none) x).used,
               cyc := (l.foldl (fun (y : Stn) (d : Fin 16) => y.replaceT d none) x).cyc,
               xs := (l.foldl (fun (y : Stn) (d : Fin 16) => y.replaceT d none) x).xs } := by
    intro l
    induction l with
    | nil => intro x; rfl
    | cons a l ih => intro x; rw [List.foldl_cons, ih, Stn.replaceT_shape]
  exact key _ x

theorem Stn.dropGot_shape (x : Stn) : x.dropGot = { x with used := x.dropGot.used, cyc := x.dropGot.cyc, xs := x.dropGot.xs } := by
  unfold Stn.dropGot
  dsimp only
  rw [Stn.freeTiles_shape (fun b : Nat => some b)]

/-- A partner's leave, a port that goes down and a report of any class change no more of a station than the frames in its VOQs. -/
theorem State.st_clearCredit (s : State) (p : PortId) (n : StnId) :
    (s.clearCredit p).st n = { s.st n with voq := ((s.clearCredit p).st n).voq } := by
  have h : ∀ (l : List PortId) (u : State), (l.foldl (fun t q => t.modPt q
      (fun x => { x with egress := x.egress.map (fun e => { e with paid := false }) })) u).stn = u.stn := by
    intro l
    induction l with
    | nil => intro u; rfl
    | cons q l ih => intro u; rw [List.foldl_cons, ih]; rfl
  unfold State.clearCredit State.st
  simp only []
  rw [Vector.getElem_map]
  show _ = _
  simp only [State.modPt_frame, h]

theorem State.st_portDown (s : State) (p : PortId) (n : StnId) :
    (s.portDown p).st n = { s.st n with voq := ((s.portDown p).st n).voq } := by
  have h : ∀ u : State, (u.partnerGone p).st n = { u.st n with voq := ((u.partnerGone p).st n).voq } := by
    intro u
    unfold State.partnerGone
    split
    · rfl
    · exact State.st_clearCredit u p n
  have e : ∀ (u : State) (k : Nat), (u.accEvent k).st n = u.st n := by intro u k; unfold State.st; simp
  have e2 : ∀ (u : State), (u.prtStatus p 0 false).st n = u.st n := by intro u; unfold State.st; simp
  have e3 : ∀ (f : Prt → Prt), (s.modPt p f).st n = s.st n := fun _ => rfl
  unfold State.portDown
  simp only []
  split
  · rw [e, h, e2, e3]
  · rw [h, e2, e3]

theorem State.st_fatalStop (s : State) (n : StnId) : s.fatalStop.st n = { s.st n with voq := (s.fatalStop.st n).voq } := by
  unfold State.fatalStop
  refine foldl_inv (fun t : State => t.st n = { s.st n with voq := (t.st n).voq }) _ ?_ _ _ rfl
  intro t p ht
  rw [State.st_portDown, ht]

theorem State.raise_st (s : State) (c : Code) (u : UnitId) (e : List Word) (n : StnId) :
    (s.raise c u e).st n = { s.st n with voq := ((s.raise c u e).st n).voq } := by
  have h : ∀ t : State, t.stn = s.stn → (if c.cls = .fatal then t.fatalStop else t).st n =
      { s.st n with voq := ((if c.cls = .fatal then t.fatalStop else t).st n).voq } := by
    intro t ht
    have : t.st n = s.st n := by unfold State.st; rw [ht]
    split
    · rw [State.st_fatalStop, this]
    · rw [this]
  unfold State.raise State.raiseAt
  simp only []
  apply h
  split <;> split <;> (try split) <;> simp

/-- A fenced station: its state, its program counter, its ports. -/
theorem State.fence_st (s : State) (n : StnId) :
    ((s.fence n).st n).st = .fenced ∧ ((s.fence n).st n).as.pc = (s.st n).as.pc := by
  have h1 : ((s.landAll n).st n).as = (s.st n).as := by rw [(landsOnly.landAll s n).2.2.2]
  unfold State.fence
  simp only []
  have e : ∀ (u : State) (v : Nat) (w : UnitId) (g : Code → Bool), ((u.closeWindows w g).vector v).st n = u.st n := by
    intro u v w g; unfold State.st; simp
  rw [e]
  have e2 : ∀ (u : State) (p q : PortId),
      (((u.portDown p).portDown q).st n).st = (u.st n).st ∧ (((u.portDown p).portDown q).st n).as = (u.st n).as := by
    intro u p q; rw [State.st_portDown, State.st_portDown]; exact ⟨rfl, rfl⟩
  rw [(e2 _ _ _).1, (e2 _ _ _).2, State.st_modSt_self]
  refine ⟨rfl, ?_⟩
  have hd : ∀ (l : List VoqFrame) (u : State), ((l.foldl (fun t f => t.dropFrame n f) u).st n).as = (u.st n).as := by
    intro l u
    exact foldl_keep (fun v : State => (v.st n).as) (fun t f => t.dropFrame n f)
      (fun t f => by rw [(dropsOnly.dropFrame t n f).2.1]) l u
  have hl : ∀ u : State, ((u.dropLupin n).st n).as = (u.st n).as := by
    intro u; unfold State.dropLupin; rw [State.st_modSt_self, Stn.clearLupin_shape]; rfl
  simp only [Stn.clearWaits, Stn.killCopies]
  rw [Stn.dropGot_shape, Stn.clearT_shape, Stn.clearQueues_shape]
  simp only []
  rw [hl, hd]
  show (((s.landAll n).addSat _ _).st n).as.pc = _
  have : ∀ (u : State) (a k : Nat), (u.addSat a k).st n = u.st n := fun _ _ _ => rfl
  rw [this, h1]

/-- A fence leaves every register alone but STN_DISCARDED, those that the landing of results touches, and reports. -/
theorem State.rg_fence (s : State) (n : StnId) {a : Nat} (h : ¬ reportReg a)
    (hl : a ∉ [Reg.stnNumFlags n.val, Reg.stnPhxRecs n.val, Reg.stnPhxKept n.val, Reg.stnDiscarded n.val]) :
    (s.fence n).rg a = s.rg a := by
  have h1 := (landsOnly.landAll s n).2.2.1 a h (by simp_all)
  have h2 : a ≠ Reg.stnDiscarded n.val := by simp_all
  unfold State.fence
  simp only []
  rw [State.rg_vector _ (by omega) (fun e => h (Or.inl e)), State.rg_closeWindows, State.rg_portDown _ _ h,
    State.rg_portDown _ _ h, State.rg_modSt]
  have hd : ∀ (l : List VoqFrame) (u : State), (l.foldl (fun t f => t.dropFrame n f) u).rg a = u.rg a := by
    intro l u
    exact foldl_keep (fun v : State => v.rg a) (fun t f => t.dropFrame n f)
      (fun t f => (dropsOnly.dropFrame t n f).rg a) l u
  unfold State.dropLupin
  rw [State.rg_modSt, State.rg_addSat_ne _ _ h2, hd, State.rg_addSat_ne _ _ h2, h1]

/-! ### Freezing -/

/-- The registers that a freeze may touch. -/
def freezeRegs (n : StnId) : List Nat :=
  [Reg.stnCutStat n.val, Reg.stnCutHtLo n.val, Reg.stnCutHtLo n.val + 4, Reg.stnCutPend n.val, Reg.stnNumFlags n.val,
    Reg.stnPhxRecs n.val, Reg.stnPhxKept n.val]

/-- The landing of results leaves a state with none pending as it was. -/
theorem State.landDue_none (s : State) (n : StnId) (c : Nat) (h : (s.st n).xs.pend = []) : s.landDue n c = s := by
  unfold State.landDue
  rw [h]
  rfl

/-- The record of a freeze changes the registers only. -/
@[simp] theorem State.stampFreeze_frame (s : State) (n : StnId) (p : Bool) (w : Word) :
    (s.stampFreeze n p w).pending = s.pending ∧ (s.stampFreeze n p w).out = s.out ∧ (s.stampFreeze n p w).free = s.free ∧
    (s.stampFreeze n p w).ht = s.ht ∧ (s.stampFreeze n p w).cycle = s.cycle ∧ (s.stampFreeze n p w).counting = s.counting ∧
    (s.stampFreeze n p w).evts = s.evts ∧ (s.stampFreeze n p w).heldHi = s.heldHi ∧ (s.stampFreeze n p w).capHi = s.capHi ∧
    (s.stampFreeze n p w).clk = s.clk ∧ (s.stampFreeze n p w).txnHost = s.txnHost ∧ (s.stampFreeze n p w).txnCur = s.txnCur ∧
    (s.stampFreeze n p w).stn = s.stn ∧ (s.stampFreeze n p w).prt = s.prt ∧ (s.stampFreeze n p w).stk = s.stk ∧
    (s.stampFreeze n p w).dram = s.dram ∧ (s.stampFreeze n p w).dramBad = s.dramBad ∧ (s.stampFreeze n p w).bar2 = s.bar2 ∧
    (s.stampFreeze n p w).pcie = s.pcie ∧ (s.stampFreeze n p w).flash = s.flash ∧ (s.stampFreeze n p w).xbar = s.xbar ∧
    (s.stampFreeze n p w).buckets = s.buckets ∧ (s.stampFreeze n p w).redDisc = s.redDisc ∧
    (s.stampFreeze n p w).redWait = s.redWait ∧ (s.stampFreeze n p w).redStray = s.redStray ∧
    (s.stampFreeze n p w).notices = s.notices ∧ (s.stampFreeze n p w).stgUsed = s.stgUsed ∧
    (s.stampFreeze n p w).expDisc = s.expDisc ∧ (s.stampFreeze n p w).sit = s.sit ∧ (s.stampFreeze n p w).cat = s.cat ∧
    (s.stampFreeze n p w).cur = s.cur ∧ (s.stampFreeze n p w).img = s.img ∧ (s.stampFreeze n p w).plt = s.plt := by
  unfold State.stampFreeze; simp only []; split <;> simp

theorem State.rg_stampFreeze (s : State) (n : StnId) (p : Bool) (w : Word) {a : Nat} (h : a ∉ freezeRegs n) :
    (s.stampFreeze n p w).rg a = s.rg a := by
  unfold freezeRegs at h
  unfold State.stampFreeze
  simp only []
  rw [State.rg_setRg_ne _ _ (by simp_all), State.rg_setRg64_ne _ _ (by simp_all) (by simp_all)]
  split
  · rw [State.rg_setRf_ne _ _ _ _ (by simp_all), State.rg_setRf_ne _ _ _ _ (by simp_all)]
  · rw [State.rg_setRf_ne _ _ _ _ (by simp_all)]

/-- The registers of a freeze differ. -/
theorem freezeRegs_ne (n : StnId) :
    Reg.stnCutStat n.val ≠ Reg.stnCutPend n.val ∧ Reg.stnCutStat n.val ≠ Reg.stnCutHtLo n.val ∧
    Reg.stnCutStat n.val ≠ Reg.stnCutHtLo n.val + 4 ∧ Reg.stnCutHtLo n.val ≠ Reg.stnCutPend n.val ∧
    Reg.stnCutHtLo n.val + 4 ≠ Reg.stnCutPend n.val := by
  simp only [Reg.stnCutStat, Reg.stnCutPend, Reg.stnCutHtLo]; omega

theorem State.stampFreeze_stat (s : State) (n : StnId) (p : Bool) (w : Word) :
    (s.stampFreeze n p w).rbit (Reg.stnCutStat n.val) 0 = true ∧
    (s.stampFreeze n p w).rbit (Reg.stnCutStat n.val) 1 = (p || s.rbit (Reg.stnCutStat n.val) 1) := by
  obtain ⟨h1, h2, h3, _, _⟩ := freezeRegs_ne n
  unfold State.stampFreeze State.rbit
  generalize Reg.stnCutStat n.val = cs at *
  generalize Reg.stnCutPend n.val = cp at *
  generalize Reg.stnCutHtLo n.val = ch at *
  simp only []
  rw [State.rg_setRg_ne _ _ h1, State.rg_setRg64_ne _ _ h2 h3]
  cases p
  · simp only [Bool.false_eq_true, if_false, State.rg_setRf_self, Bool.false_or]
    exact ⟨bitOf_set_self _ 0 (by omega), bitOf_setFld_ne _ 0 1 _ (by omega) (by omega)⟩
  · simp only [if_true, State.rg_setRf_self, Bool.true_or]
    rw [bitOf_setFld_ne _ 1 0 _ (by omega) (by omega)]
    exact ⟨bitOf_set_self _ 0 (by omega), bitOf_set_self _ 1 (by omega)⟩

theorem State.stampFreeze_ht (s : State) (n : StnId) (p : Bool) (w : Word) :
    (s.stampFreeze n p w).rg64 (Reg.stnCutHtLo n.val) = s.ht := by
  obtain ⟨_, _, _, h4, h5⟩ := freezeRegs_ne n
  unfold State.stampFreeze
  generalize Reg.stnCutPend n.val = cp at *
  generalize Reg.stnCutHtLo n.val = ch at *
  simp only []
  generalize (if p = true then (s.setRf (Reg.stnCutStat n.val) 0 1 1).setRf (Reg.stnCutStat n.val) 1 1 1
    else s.setRf (Reg.stnCutStat n.val) 0 1 1) = u
  have e := State.rg64_setRg64_self u ch s.ht
  unfold State.rg64 at e ⊢
  rw [State.rg_setRg_ne _ _ h4, State.rg_setRg_ne _ _ h5]
  exact e

/-- A station's register is none that interrupts touch. -/
theorem not_intReg {a : Nat} (h : 0x6000 ≤ a) : ¬ intReg a := by
  unfold intReg; simp only [Reg.glbIrqPend, Reg.glbPba]; omega

/-- A register of a station or of a stack is none that a report touches. -/
theorem not_reportReg {a : Nat} (h : 0x80000 ≤ a) (h' : a < 0x2000000) : ¬ reportReg a := by
  unfold reportReg intReg
  simp only [Reg.glbIrqPend, Reg.glbPba, Reg.catLost, Reg.catStatus, Reg.catCondStn, Reg.catCondOpt, Reg.curEvent, Reg.accEvent,
    Reg.prtStatus]
  omega

/-- What a freeze leaves (R110). -/
theorem State.freeze_spec (s : State) (n : StnId) (p : Bool) (t : State) (ht : t = s.freeze n p) :
    t = { s with regs := t.regs, evts := t.evts, stn := t.stn, out := t.out, cat := t.cat, free := t.free } ∧ stnsBut n s t ∧
    t.st n = { (s.landDue n (s.st n).xs.ic).st n with
      st := .halted, cut := { (s.st n).cut with due := false, toIdle := false } } ∧
    regsButReports (freezeRegs n) s t ∧ t.rbit (Reg.stnCutStat n.val) 0 = true ∧
    t.rbit (Reg.stnCutStat n.val) 1 = (p || s.rbit (Reg.stnCutStat n.val) 1) ∧
    t.rg64 (Reg.stnCutHtLo n.val) = s.ht ∧ t.rbit (Reg.glbIrqPend (n.val / 32)) (n.val % 32) = true := by
  have h := landsOnly.landDue s n (s.st n).xs.ic
  unfold State.freeze at ht
  simp only [] at ht
  generalize s.landDue n (s.st n).xs.ic = u at h ht ⊢
  obtain ⟨h1, h2, h3, h4⟩ := h
  have hcut : (u.st n).cut = (s.st n).cut := by rw [h4]
  generalize (u.st n).cutPend = w at ht
  generalize hv : u.modSt n (fun x => { x with st := .halted, cut := { x.cut with due := false, toIdle := false } }) = v at ht
  have hvr : ∀ a, v.rg a = u.rg a := fun a => by rw [← hv]; rfl
  have hvs : v = { u with stn := v.stn } := by rw [← hv]; rfl
  have hst : ∀ m, t.st m = v.st m := fun m => by
    unfold State.st; rw [ht]; simp only [State.vector_frame, State.stampFreeze_frame]
  have hlow : 0x1000000 ≤ Reg.stnCutStat n.val := by simp only [Reg.stnCutStat]; omega
  have hlow2 : 0x1000000 ≤ Reg.stnCutHtLo n.val := by simp only [Reg.stnCutHtLo]; omega
  have htr : ∀ a, ¬ intReg a → t.rg a = (v.stampFreeze n p w).rg a := fun a ha => by
    rw [ht]; exact State.rg_vector _ (by omega) ha
  have stat : ∀ i, t.rbit (Reg.stnCutStat n.val) i = (v.stampFreeze n p w).rbit (Reg.stnCutStat n.val) i := fun i => by
    unfold State.rbit; rw [htr _ (not_intReg (by omega))]
  have us : v.rbit (Reg.stnCutStat n.val) 1 = s.rbit (Reg.stnCutStat n.val) 1 := by
    unfold State.rbit
    rw [hvr, h3 _ (not_reportReg (by omega) (by simp only [Reg.stnCutStat]; omega))
      (by simp [Reg.stnCutStat, Reg.stnNumFlags, Reg.stnPhxRecs, Reg.stnPhxKept])]
  refine ⟨?_, ?_, ?_, ?_, ?_, ?_, ?_, ?_⟩
  · apply State.eq_of <;> dsimp only <;>
      (rw [ht]; simp only [State.vector_frame, State.stampFreeze_frame]; rw [← hv]; simp only [State.modSt_frame]; rw [h1])
  · intro m hm
    rw [hst, ← hv, State.st_modSt_ne _ _ hm, h2 m hm]
  · rw [hst, ← hv, State.st_modSt_self, hcut]
  · intro a ha hr
    rw [htr a (fun e => hr (Or.inl e)), State.rg_stampFreeze _ _ _ _ ha, hvr]
    refine h3 a hr (fun hc => ha ?_)
    unfold freezeRegs
    simp only [List.mem_cons, List.not_mem_nil, or_false] at hc ⊢
    tauto
  · rw [stat]; exact (State.stampFreeze_stat v n p w).1
  · rw [stat, (State.stampFreeze_stat v n p w).2, us]
  · have hht : v.ht = s.ht := by rw [hvs, h1]
    rw [← hht, ← State.stampFreeze_ht v n p w]
    unfold State.rg64
    rw [htr _ (not_intReg (by omega)), htr _ (not_intReg (by omega))]
  · rw [ht]; exact State.vector_pending _ _

/-! ### Halting -/

theorem State.st_stampFreeze (s : State) (n m : StnId) (p : Bool) (w : Word) : (s.stampFreeze n p w).st m = s.st m := by
  unfold State.st; rw [(State.stampFreeze_frame s n p w).2.2.2.2.2.2.2.2.2.2.2.2.1]

theorem State.st_freezeFault (s : State) (n m : StnId) : (s.freezeFault n).st m = s.st m := by
  unfold State.freezeFault
  split
  · rw [State.st_setRf, State.st_stampFreeze]
  · rfl

theorem State.rg_freezeFault (s : State) (n : StnId) {a : Nat} (h : a ∉ freezeRegs n) : (s.freezeFault n).rg a = s.rg a := by
  unfold State.freezeFault
  split
  · rw [State.rg_setRf_ne _ _ _ _ (by unfold freezeRegs at h; simp_all), State.rg_stampFreeze _ _ _ _ h]
  · rfl

theorem State.escalate_st (s : State) (n : StnId) (c : Code) (h : (s.st n).st = .halted) :
    ((s.escalate n c).st n).st ≠ .running ∧ ((s.escalate n c).st n).as.pc = (s.st n).as.pc := by
  unfold State.escalate
  dsimp only
  split
  · rw [State.raise_st]
    dsimp only
    exact ⟨by rw [(State.fence_st _ n).1]; decide, (State.fence_st _ n).2⟩
  · exact ⟨by rw [h]; decide, rfl⟩

/-- A station that halts does not run; its program counter stays. -/
theorem State.haltBy_st (s : State) (n : StnId) (c : Code) (th : Option TH) (x : List Word) :
    ((s.haltBy n c th x).st n).st ≠ .running ∧ ((s.haltBy n c th x).st n).as.pc = (s.st n).as.pc := by
  have rs : ∀ (u : State), ((u.raise c (uStn n) x).st n).st = (u.st n).st ∧ ((u.raise c (uStn n) x).st n).as = (u.st n).as := by
    intro u; rw [State.raise_st]; exact ⟨rfl, rfl⟩
  have h0 : ∀ u : State, (u.st n) = s.st n → ∀ e,
      let v := (((((u.freezeFault n).landAll n).modSt n Stn.fall).raise c (uStn n) x).openWindow (uStn n) e c).vector n.val
      ((v.escalate n c).st n).st ≠ .running ∧ ((v.escalate n c).st n).as.pc = (s.st n).as.pc := by
    intro u hu e v
    have e1 : ∀ w : State, ((((w.raise c (uStn n) x).openWindow (uStn n) e c).vector n.val).st n).st = (w.st n).st ∧
        ((((w.raise c (uStn n) x).openWindow (uStn n) e c).vector n.val).st n).as = (w.st n).as := by
      intro w
      have : (((w.raise c (uStn n) x).openWindow (uStn n) e c).vector n.val).st n = (w.raise c (uStn n) x).st n := by
        unfold State.st; simp
      rw [this]; exact rs w
    have hl : (((u.freezeFault n).landAll n).st n).as = (s.st n).as := by
      rw [(landsOnly.landAll _ n).2.2.2, State.st_freezeFault, hu]
    have hs : (v.st n).st = .halted := by
      rw [show v = _ from rfl, (e1 _).1, State.st_modSt_self]; rfl
    have ha : (v.st n).as = (s.st n).as := by
      rw [show v = _ from rfl, (e1 _).2, State.st_modSt_self, ← hl]; rfl
    have := State.escalate_st v n c hs
    exact ⟨this.1, this.2.trans (congrArg AsState.pc ha)⟩
  have h1 : ∀ u : State, u.st n = s.st n → ∀ w : State, w = (if u.rbit (Reg.stnCutStat n.val) 0 then
      u.setRf (Reg.stnCutStat n.val) 2 1 1 else u).raise c (uStn n) x → (w.st n).st = (s.st n).st ∧ (w.st n).as = (s.st n).as := by
    intro u hu w hw
    rw [hw, (rs _).1, (rs _).2]
    split
    · rw [State.st_setRf, hu]; exact ⟨rfl, rfl⟩
    · rw [hu]; exact ⟨rfl, rfl⟩
  have key : ∀ u : State, u.st n = s.st n →
      let w := if (s.st n).st = .halted then
          ((if u.rbit (Reg.stnCutStat n.val) 0 then u.setRf (Reg.stnCutStat n.val) 2 1 1 else u).raise c (uStn n) x)
        else if (s.st n).st = .fenced then u.raise c (uStn n) x
        else ((((((u.freezeFault n).landAll n).modSt n Stn.fall).raise c (uStn n) x).openWindow (uStn n) u.cat.eid c).vector
          n.val).escalate n c
      (w.st n).st ≠ .running ∧ (w.st n).as.pc = (s.st n).as.pc := by
    intro u hu
    dsimp only
    split
    · next hh =>
      obtain ⟨k1, k2⟩ := h1 u hu _ rfl
      exact ⟨by rw [k1, hh]; decide, by rw [k2]⟩
    · split
      · next hh => exact ⟨by rw [(rs u).1, hu, hh]; decide, by rw [(rs u).2, hu]⟩
      · exact h0 u hu _
  unfold State.haltBy
  cases th with
  | none => exact key s rfl
  | some t => exact key (s.setRg _ _) rfl

theorem State.halt_st (s : State) (n : StnId) (c : Code) (th : Option TH) :
    ((s.halt n c th).st n).st ≠ .running ∧ ((s.halt n c th).st n).as.pc = (s.st n).as.pc := s.haltBy_st n c th []

/-- A halt leaves every register alone but those of the station that a halt, a freeze, a fence or the landing of results
touches, and reports. -/
theorem State.rg_haltBy (s : State) (n : StnId) (c : Code) (th : Option TH) (x : List Word) {a : Nat} (h : ¬ reportReg a)
    (hl : a ∉ Reg.stnDiscarded n.val :: Reg.stnHalt n.val :: freezeRegs n) : (s.haltBy n c th x).rg a = s.rg a := by
  have hf : a ∉ freezeRegs n := fun e => hl (List.mem_cons_of_mem _ (List.mem_cons_of_mem _ e))
  have hn : a ∉ [Reg.stnNumFlags n.val, Reg.stnPhxRecs n.val, Reg.stnPhxKept n.val] := fun e => hf (by
    unfold freezeRegs; simp only [List.mem_cons, List.not_mem_nil, or_false] at e ⊢; tauto)
  have h1 : a ≠ Reg.stnHalt n.val := fun e => hl (e ▸ List.mem_cons_of_mem _ (List.mem_cons_self ..))
  have h2 : a ≠ Reg.stnCutStat n.val := fun e => hf (e ▸ List.mem_cons_self ..)
  have h3 : a ≠ Reg.stnDiscarded n.val := fun e => hl (e ▸ List.mem_cons_self ..)
  have hi : ¬ intReg a := fun e => h (Or.inl e)
  have esc : ∀ u : State, (u.escalate n c).rg a = u.rg a := by
    intro u
    unfold State.escalate
    dsimp only
    split
    · rw [State.rg_raise _ _ _ _ h, State.rg_fence _ _ h (by
        simp only [List.mem_cons, List.not_mem_nil, or_false, not_or] at hn ⊢; tauto)]
    · rfl
  have key : ∀ u : State, u.rg a = s.rg a →
      (if (s.st n).st = .halted then
          ((if u.rbit (Reg.stnCutStat n.val) 0 then u.setRf (Reg.stnCutStat n.val) 2 1 1 else u).raise c (uStn n) x)
        else if (s.st n).st = .fenced then u.raise c (uStn n) x
        else ((((((u.freezeFault n).landAll n).modSt n Stn.fall).raise c (uStn n) x).openWindow (uStn n) u.cat.eid c).vector
          n.val).escalate n c).rg a = s.rg a := by
    intro u hu
    split
    · rw [State.rg_raise _ _ _ _ h]
      split
      · rw [State.rg_setRf_ne _ _ _ _ h2, hu]
      · exact hu
    · split
      · rw [State.rg_raise _ _ _ _ h, hu]
      · rw [esc, State.rg_vector _ (by omega) hi, State.rg_openWindow, State.rg_raise _ _ _ _ h, State.rg_modSt,
          (landsOnly.landAll _ n).2.2.1 a h hn, State.rg_freezeFault _ _ hf, hu]
  unfold State.haltBy
  cases th with
  | none => exact key s rfl
  | some t => exact key (s.setRg _ _) (State.rg_setRg_ne s _ h1)

theorem State.rg_halt (s : State) (n : StnId) (c : Code) (th : Option TH) {a : Nat} (h : ¬ reportReg a)
    (hl : a ∉ Reg.stnDiscarded n.val :: Reg.stnHalt n.val :: freezeRegs n) : (s.halt n c th).rg a = s.rg a :=
  s.rg_haltBy n c th [] h hl

/-! ### The issue of an access-stream instruction -/

/-- A unit that may act takes its turn. -/
theorem State.turn_of {s : State} {n : StnId} {u : Actor} (h : s.mayAct n u = true) (k : State → State) :
    s.turn n u k = k (s.act n u) := by unfold State.turn; rw [if_pos h]

theorem Stn.act_asMem (x : Stn) (u : Actor) : (x.act u).asWord = x.asWord := by
  unfold Stn.act Stn.newCycle Stn.asWord; dsimp only; split <;> rfl

/-- The instruction at the program counter is issued. -/
theorem State.asIssue_at {s : State} {n : StnId} {w : Word} {op : Nat} (h : asAt s n w op) (k : Word → State → State) :
    s.asIssue n op k = k w (s.act n .as) := by
  obtain ⟨h1, h2, h3, h4⟩ := h
  unfold State.asIssue
  rw [State.turn_of h1]
  have : ((s.act n .as).st n).asWord = some w := by unfold State.act; rw [State.st_modSt_self, Stn.act_asMem, h2]
  simp only [this]
  simp [h3, h4]

end Sys2Proof.Machine
end

