-- ==== Sys2Proof/WellFormed.lean ====
section
/-! DEFINITION. Which commands are well formed: the operands that the types leave too wide have the lengths the
manual gives. -/

namespace Sys2Proof

/-- A sensor sample covers 64 stations, 8 stacks and 16 optical modules (R377). -/
def Sample.wf (s : Sample) : Bool := s.tStn.length = 64 && s.tMem.length = 8 && s.tOpt.length = 16

/-- Bytes in a BAR4 write: a BAR4 access lies within the 8 MiB window. -/
def barFits (off len size : Nat) : Bool := decide (off + len ≤ size)

/-- An access of `n` DW to BAR0: the host's is a TLP of at least one, the Curator's path carries one whole word (R376, R426). -/
def tlpOf (r : Requester) (n : Nat) (t : Tlp) : Bool :=
  match r with
  | .host => decide (0 < n)
  | .curator => decide (n = 1 ∧ t = .good)

/-- The check of a command's operands. -/
def Instr.wf : Instr → Bool
  | .stageAdvance straps => straps.length = 8
  | .pcieReset c => decide (1 ≤ c.link.gen ∧ c.link.gen ≤ 6 ∧ 1 ≤ c.link.width ∧ c.link.width ≤ 16)
  | .registerWrite r a w => decide (a % 4 = 0) && tlpOf r w.values.length w.tlp
  | .rcRead d => decide (d.addr % 4 = 0) && tlpOf d.by_ d.dws d.tlp
  | .pairLoRead d => decide (d.addr % 4 = 0) && tlpOf d.by_ d.dws d.tlp
  | .fabricCellReceive _ cell _ _ => cell.length = 248
  | .creditRecord _ ws => ws.length = 6
  | .bucketHeaderReceive _ bh => bh.length = 8
  | .sittingHeaderReceive _ sh => sh.length = 8
  | .plinthBlockReceive b => decide (b.length ≤ 4096)
  | .curatorSample smp => smp.wf
  | .bar2Read _ len _ => decide (len ≤ 4096)
  | .bar2Write _ bytes _ => decide (bytes.length ≤ 512)
  | .bar4Read _ len _ => decide (len ≤ 4096)
  | .bar4Write _ bytes _ => decide (bytes.length ≤ 512)
  | _ => true

end Sys2Proof
end

