-- ==== Sys2Proof/Tests/Slice0.lean ====
section
/-! SUPPORT. Tests of the model on small states: ill-formed commands that the check refuses, one step of a command with the
result that the manual gives, and for every statement with hypotheses a state and operands that meet them. -/

namespace Sys2Proof.Tests

open Sys2Proof Sys2Proof.Machine

/-! ### States -/

/-- A device in service: auxiliary power, regulators and clocks on, hall time counting. -/
def up : State :=
  { State.reset with counting := true, cur := { Cur.reset with aux := true, regOn := true, clocksOn := true, trained := true } }

/-- A station in service: 1 program unit, 4 tile blocks. -/
def stnUp0 : Stn := { Stn.reset with powered := true, released := true, lay := ⟨1, [4, 4, 4, 1, 1]⟩ }

/-- The same with the streams running. -/
def running : Stn := { stnUp0 with st := .running }

/-- The device with station 0 as given. -/
def withStn (x : Stn) : State := { up with stn := up.stn.set 0 x }

/-- A state with registers set. -/
def setRegs (s : State) (l : List (Nat × Word)) : State := l.foldl (fun t e => t.setRg e.1 e.2) s

/-- The device with station 0 as given and registers set. -/
def withRegs (x : Stn) (l : List (Nat × Word)) : State := setRegs (withStn x) l

/-- The device in service with registers set. -/
def dev (l : List (Nat × Word)) : State := setRegs up l

/-- The device with port 0 as given and registers set. -/
def withPort (x : Prt) (l : List (Nat × Word)) : State := setRegs { up with prt := up.prt.set 0 x } l

/-- The Curator runs. -/
def rdy : Nat × Word := (Reg.curStatus, 1)

/-- STEP_STATE, with the other bits of HT_STATUS. -/
def step_ (st bits : Nat) : Nat × Word := (Reg.htStatus, word (st * 16 + bits))

/-- The device at a tick. -/
def atTick (t : Nat) (s : State) : State := { s with ht := dword t }

/-- An access-stream program memory that holds one instruction at 0. -/
def asProg (w : Word) : Cells Byte := Cells.write zeroByte [] 0 (toLE 4 w.toNat)

/-- Station 0 running with one access-stream instruction at its program counter. -/
def asStn (w : Word) : Stn := { running with asMem := asProg w }

/-- The word of an access-stream instruction: opcode in bits 31 to 26. -/
def asW (op rest : Nat) : Word := word (op * 2 ^ 26 + rest)

/-- Bytes with their CRC-32. -/
def sealed (b : List Byte) : List Byte := b ++ toLE 4 (crc32 b)

/-- A header-only frame. -/
def bare : Tile := ⟨{ TH.zero with w1 := 1 }, none⟩

/-- A header of a 1 x 1 FP32 tile, whose payload is 4,096 bytes. -/
def thOne : TH := { TH.zero with w0 := word (0x00 + 1 * 2 ^ 8 + 1 * 2 ^ 16 + 1 * 2 ^ 24), w6 := 0x7F }

/-- A tile in block 0. -/
def tileOne : Tile := ⟨thOne, some 0⟩

/-- A station with one frame in queue 0. -/
def queued (x : Stn) (t : Tile) : Stn := { x with q := x.q.set 0 [⟨t, .ready⟩] }

/-- A station with G register 0 set. -/
def g0 (x : Stn) (v : DWord) : Stn := { x with as := { x.as with g := x.as.g.set 0 v } }

/-- An execute-stream program memory that holds one bundle of one op at 0. -/
def xsProg (slot : Nat) (w : Word) : Cells Byte := Cells.write zeroByte [] 0 (toLE 2 (2 ^ slot + 64) ++ toLE 4 w.toNat)

/-- Station 0 running with one bundle of one op. -/
def xsStn (slot : Nat) (w : Word) : Stn := { running with xsMem := xsProg slot w }

/-- The bundle of one op is fetched. -/
def fetches (x : Stn) (slot : Nat) (w : Word) : Prop :=
  (withStn x).mayAct 0 .xs = true ∧ x.xs.idle = 0 ∧ x.xs.pend = [] ∧
  x.fetch ((withStn x).redStns.contains 0) 2049 x.xs.pc = .bundle 0 [⟨slot, w⟩] 6

/-! ### Witnesses of the statements' hypotheses -/

/-- The instruction word stands at the program counter, as the statements about the access stream ask. -/
theorem witness_AccessArithmetic :
    (∀ op ∈ [0x00, 0x08, 0x09, 0x0A, 0x0B, 0x0C, 0x0D], asAt (withStn (asStn (asW op 0))) 0 (asW op 0) op) ∧
    asAt (withStn (asStn (asW 0x08 0xFFFFF))) 0 (asW 0x08 0xFFFFF) 0x08 := by
  unfold asAt; decide +kernel

theorem witness_AccessBranches :
    (asAt (withStn (asStn (asW 1 1))) 0 (asW 1 1) 1 ∧ asOff (asW 1 1) = 1) ∧
    (asAt (withStn (g0 (asStn (asW 2 0)) 1)) 0 (asW 2 0) 2 ∧ gReg (withStn (g0 (asStn (asW 2 0)) 1)) 0 0 = 1) ∧
    (asAt (withStn (g0 (asStn (asW 2 1)) 0)) 0 (asW 2 1) 2 ∧ gReg (withStn (g0 (asStn (asW 2 1)) 0)) 0 0 ≠ 1) ∧
    (asAt (withStn (g0 (asStn (asW 3 0)) 1)) 0 (asW 3 0) 3 ∧ gReg (withStn (g0 (asStn (asW 3 0)) 1)) 0 0 ≠ 0) ∧
    (asAt (withStn (asStn (asW 3 0))) 0 (asW 3 0) 3 ∧ gReg (withStn (asStn (asW 3 0))) 0 0 = 0) ∧
    (∀ op ∈ [1, 2, 3], asAt (withStn (asStn (asW op 0xFFFF))) 0 (asW op 0xFFFF) op ∧ (0 : Int) + asOff (asW op 0xFFFF) < 0 ∧
      gReg (withStn (asStn (asW op 0xFFFF))) 0 0 = 0 ∧ asGD (asW op 0xFFFF) = 0) := by
  unfold asAt gReg; decide +kernel

theorem witness_FlagsAndWaits :
    (∀ op ∈ [0x1C, 0x1D, 0x1E, 0x05, 0x04], asAt (withStn (asStn (asW op 0))) 0 (asW op 0) op) ∧
    ((asTurn (withStn (asStn (asW 0x1E 0))) 0).flagNow 0 = asV (asW 0x1E 0)) ∧
    (asAt (withStn (asStn (asW 0x1E 0x20))) 0 (asW 0x1E 0x20) 0x1E ∧
      (asTurn (withStn (asStn (asW 0x1E 0x20))) 0).flagNow 0 ≠ asV (asW 0x1E 0x20)) ∧
    (∀ b ∈ [true, false], ∀ m ∈ [0, 1],
      let s := withStn { asStn (asW 0x1C 0) with cyc := { Cyc.of 0 with start := b, sets := word m } }
      asAt s 0 (asW 0x1C 0) 0x1C ∧ (asTurn s 0).cyc.start = b ∧ (asTurn s 0).cyc.sets = word m) ∧
    (asAt (withStn (g0 (asStn (asW 5 0)) 1)) 0 (asW 5 0) 5 ∧
      (withStn (g0 (asStn (asW 5 0)) 1)).ht.toNat < gReg (withStn (g0 (asStn (asW 5 0)) 1)) 0 0) ∧
    (let x := { asStn (asW 5 0) with as := { (asStn (asW 5 0)).as with wait := .htwait } }
     asAt (withStn x) 0 (asW 5 0) 5 ∧ x.as.wait = .htwait ∧ gReg (withStn x) 0 0 ≤ (withStn x).ht.toNat) ∧
    ((asStn (asW 4 0)).as.wait ≠ .stepEnd) ∧ (withStn stnUp0).stnUp 0 = true := by
  unfold asAt gReg
  exact ⟨by decide +kernel, by decide +kernel, by decide +kernel, by decide +kernel, by decide +kernel, by decide +kernel,
    by decide +kernel, by decide +kernel⟩

/-- The frame that the access stream of station 0 may pop from queue 0. -/
def pops0 (x : Stn) : Option Tile := (asTurn (withStn x) 0).asPopHead (withStn x).ht 0

/-- A frame at the head of queue 0 with no block, and one whose block reads without an error. -/
theorem witness_AccessDropsAndStores :
    (let x := queued (asStn (asW 0x16 0)) bare
     asAt (withStn x) 0 (asW 0x16 0) 0x16 ∧ asQA (asW 0x16 0) = 0 ∧ pops0 x = some bare) ∧
    (asAt (withStn (asStn (asW 0x16 0))) 0 (asW 0x16 0) 0x16 ∧ pops0 (asStn (asW 0x16 0)) = none) ∧
    (let x := queued (asStn (asW 0x12 0)) tileOne
     asAt (withStn x) 0 (asW 0x12 0) 0x12 ∧ pops0 x = some tileOne ∧
     vitClean (withStn x) 0 (x.lay.blkAddr 0) thOne.bodyLen ∧ x.addrOk x.as.g[0] (64 + thOne.bodyLen) = true) ∧
    (let x := queued (asStn (asW 0x13 0)) tileOne
     asAt (withStn x) 0 (asW 0x13 0) 0x13 ∧ pops0 x = some tileOne ∧ thOne.hdrOnly = false ∧
     x.addrOk x.as.g[0] thOne.bodyLen = true) ∧
    (let x := queued (asStn (asW 0x13 0)) bare
     asAt (withStn x) 0 (asW 0x13 0) 0x13 ∧ pops0 x = some bare ∧ bare.th.hdrOnly = true ∧ bare.blk = none) := by
  unfold asAt vitClean; decide +kernel

/-- Station 0 with role FABRIC, a frame in queue 0 and a tsend of the hop word `hw`. -/
def sender (hw : Word) (share : Word) : State :=
  withRegs (g0 (queued (asStn (asW 0x15 0)) bare) (dword hw.toNat)) [(Reg.stnRole 0, 1), (Reg.stnXqAs 0, share)]

/-- tfwd to an END hop and to nowhere; tsend to queue 0 of station 0 as it takes tiles, with a share of descriptors and
without; an illegal hop word. -/
theorem witness_AccessSends :
    (let x := queued (asStn (asW 0x14 0)) bare
     asAt (withStn x) 0 (asW 0x14 0) 0x14 ∧ pops0 x = some bare ∧
     hopKind ((withStn x).hopWord bare.th.itin (bare.th.hop + 1)) = 0) ∧
    (let hw : Word := word (1 + 1 * 2 ^ 12)
     let s := sender hw 8
     asAt s 0 (asW 0x15 0) 0x15 ∧ (asTurn s 0).asPopHead s.ht 0 = some bare ∧ hopLegal hw = true ∧ hopKind hw = 1 ∧
     word (s.st 0).as.g[0].toNat = hw ∧ (s.hopDest hw bare.th).map (fun d => s.offStation d.stn) = some false ∧
     s.sendFull 0 = false ∧ hopTc hw ≠ 0 ∧ (sender hw 0).sendFull 0 = true) ∧
    (asAt (sender 4 8) 0 (asW 0x15 0) 0x15 ∧ hopLegal 4 = false) := by
  unfold asAt; decide +kernel

/-- tsend as a request, as a reply with a block and with its reservations in use, and to a station that takes none. -/
theorem witness_AccessSends_replies :
    (let s := setRegs (sender 1 8) [(Reg.stnRspResv 0, 1)]
     hopLegal 1 = true ∧ hopTc 1 = 0 ∧ (s.hopDest 1 bare.th).isSome = true ∧ s.sendFull 0 = false ∧ s.respFull 0 = false ∧
     ((s.act 0 .as).allocTile 0 .reply 0).isSome = true ∧ (setRegs s [(Reg.stnRspResv 0, 0)]).respFull 0 = true) ∧
    (let s := setRegs (sender 1 8) [(Reg.stnRole 0, 0)]
     (s.hopDest 1 bare.th).map (fun d => s.offStation d.stn) = some true) := by
  decide +kernel

/-- A free block 0 of pool 2, an address in DRAM whose header of zeros passes its check as header-only; the same with its
queue full, and with no block free. -/
theorem witness_AccessLoads :
    (∀ op ∈ [0x10, 0x11],
     let x := asStn (asW op 0)
     let y := asTurn (withStn x) 0
     x.lay.tilePool = some 2 ∧ 2 < x.used.length ∧ 0 < x.lay.count 2 ∧ 0 ∉ x.usedOf 2 ∧ addrSpace x.as.g[0] = 0 ∧
     y.outranked (withStn x).ht 2 .as 0 = false ∧ y.cyc.given.contains 2 = false ∧ (2, 0) ∉ y.cyc.freed ∧ y.canPush 0 = true) ∧
    (let x := asStn (asW 0x10 0)
     let s := { withStn x with dram := [(4, 1)] }
     let th1 := (TH.ofBytes (Cells.read zeroByte s.dram 0 32)).loaded false 0 0
     asAt s 0 (asW 0x10 0) 0x10 ∧ x.addrOk x.as.g[0] 64 = true ∧
     x.addrOk x.as.g[0] (64 + th1.bodyLen) = true ∧ th1.ok = true ∧ dramClean s 0 64 ∧ dramClean s 64 th1.bodyLen) ∧
    (let x := { asStn (asW 0x11 0) with as := { (asStn (asW 0x11 0)).as with h := Vector.replicate 8 thOne } }
     let th0 := thOne.loaded false 0 0
     asAt (withStn x) 0 (asW 0x11 0) 0x11 ∧ th0.ok = true ∧ x.addrOk x.as.g[0] th0.bodyLen = true ∧
     dramClean (withStn x) 0 th0.bodyLen) ∧
    (let x := { asStn (asW 0x10 0) with q := (asStn (asW 0x10 0)).q.set 0 (List.replicate 8 ⟨bare, .ready⟩) }
     asAt (withStn x) 0 (asW 0x10 0) 0x10 ∧ (asTurn (withStn x) 0).canPush 0 = false ∧ x.addrOk x.as.g[0] 64 = true) ∧
    (let x := { asStn (asW 0x10 0) with used := [[], [], [0, 1, 2, 3], [], []] }
     asAt (withStn x) 0 (asW 0x10 0) 0x10 ∧ x.lay.count 2 = 4 ∧ (∀ c, c < 4 → c ∈ x.usedOf 2)) ∧
    (let l : Load := ⟨0, 0, false, 0, thOne, 0, [], zeros 4096, true, none⟩
     l.bad = none ∧ l.th.ok = true ∧ l.extOk = true ∧ l.th.hdrOnly = false ∧
     ({ TH.zero with w0 := 1 } : TH).ok = false ∧ running.st = .running ∧ stnUp0.st = .idle) ∧
    (let x := asStn (asW 0x17 0)
     asAt (withStn x) 0 (asW 0x17 0) 0x17 ∧ addrSpace x.as.g[0] = 0 ∧ x.addrOk x.as.g[0] 32 = true ∧
     dramClean (withStn x) 0 32) := by
  unfold asAt dramClean
  exact ⟨by decide +kernel, by decide +kernel, by decide +kernel, by decide +kernel, by decide +kernel, by decide +kernel,
    by decide +kernel⟩

/-- Lengths 64 and 0 at offset 0, no copy and four copies outstanding, copies of 64 bytes to complete
between DRAM and the Vitrine. -/
theorem witness_AccessCopies :
    (let w := asW 0x18 (1 * 2 ^ 14)
     let x := { asStn w with as := { (asStn w).as with g := (asStn w).as.g.set 1 64 } }
     let full := { x with bcopies := List.replicate 4 ⟨0, 64, 64, 0, true⟩ }
     asAt (withStn x) 0 w 0x18 ∧ asGT w = 1 ∧ x.as.g[1].toNat % 2 ^ 32 = 64 ∧ 64 % 64 = 0 ∧ x.addrOk x.as.g[0] 64 = true ∧
     (x.bcopies.filter (fun b => b.live)).length < 4 ∧
     asAt (withStn full) 0 w 0x18 ∧ 4 ≤ (full.bcopies.filter (fun b => b.live)).length ∧
     full.bcopies[0]? = some ⟨0, 64, 64, 0, true⟩ ∧ dramClean (withStn full) 0 64) ∧
    (∀ d ∈ [0, 0x400000000000], let x := { running with bcopies := [⟨0x400000000000, dword d, 64, 0, true⟩] }
     x.bcopies[0]? = some ⟨0x400000000000, dword d, 64, 0, true⟩ ∧ addrSpace (0x400000000000 : DWord) = 1 ∧ vitClean (withStn x) 0 0 64) ∧
    (let w := asW 0x18 0
     asAt (withStn (asStn w)) 0 w 0x18 ∧ (asStn w).as.g[0].toNat % 2 ^ 32 = 0 ∧ (asStn w).addrOk 0 0 = true) := by
  unfold asAt dramClean vitClean; decide +kernel

/-- Idle, halted, running and released stations; an armed cut whose count is 0 and one that a write arms; a cut that is due
or has frozen. -/
theorem witness_StationCommands :
    (let s := withRegs stnUp0 [(Reg.stnRole 0, 1)]
     s.role 0 ≠ 0 ∧ s.cur.regOn = true ∧ (s.st 0).released = true ∧ (s.st 0).st = .idle ∧ s.rbit (Reg.stnCtrl 0) 0 = false ∧
     s.stnUp 0 = true ∧ (s.st 0).xs.pend = [] ∧ (s.st 0).st ≠ .fenced ∧ (s.st 0).st ≠ .halted) ∧
    (let s := withStn { stnUp0 with st := .halted }
     s.stnUp 0 = true ∧ (s.st 0).st = .halted ∧ (s.st 0).cut.armed = false ∧ (s.st 0).cut.arming = false) ∧
    (let s := withRegs { stnUp0 with cut := ⟨0, 0, true, false, false, false⟩ } [(Reg.stnCutCtrl 0, 1)]
     (s.st 0).cut.armed = true ∧ s.rf (Reg.stnCutCtrl 0) 0 2 = 1 ∧ s.rg64 (Reg.stnCutAtLo 0) = 0) ∧
    (let s := withRegs running [(Reg.stnRole 0, 1)]
     s.role 0 ≠ 0 ∧ s.cur.regOn = true ∧ (s.st 0).st = .running ∧ (s.st 0).xs.idle = 0 ∧
     ((withRegs { running with xs := { running.xs with idle := 3 } } [(Reg.stnRole 0, 1)]).st 0).xs.idle ≠ 0) ∧
    (let x : Stn := { stnUp0 with
       st := .halted, used := [[], [], [0, 1, 2], [], []], q := stnUp0.q.set 0 [⟨tileOne, .ready⟩],
       lup := { Lupin.reset with held := [⟨0, ⟨thOne, some 1⟩⟩] },
       xs := { stnUp0.xs with t := stnUp0.xs.t.set 0 (some ⟨thOne, some 2⟩) } }
     x.lay.tilePool = some 2 ∧ 2 < x.used.length ∧ (x.usedOf 2).Nodup ∧ x.cut.armed = false ∧ x.cut.arming = false) ∧
    (fld (1 : Word) 0 2 = 1 ∧ bitOf (1 : Word) 8 = false ∧ fld (3 : Word) 0 2 = 3 ∧ bitOf (0x101 : Word) 8 = true) ∧
    (let s := withRegs { running with cut := ⟨0, 0, false, true, false, false⟩, cyc := { Cyc.of 0 with didAs := true } } [(Reg.stnCutCtrl 0, 1)]
     s.canRun 0 = true ∧ (s.st 0).cyc.didAs = true ∧ (s.st 0).cut.arming = true ∧ (s.st 0).cut.due = false ∧
     (s.st 0).xs.stop = false ∧ s.cutCount 0 = some 0 ∧ s.rg64 (Reg.stnCutAtLo 0) = 0) ∧
    (∀ b ∈ [true, false], ∀ k ∈ [0, 1],
      let s := withStn { running with cut := ⟨0, 0, true, false, true, b⟩, xs := { running.xs with idle := k } }
      (s.st 0).cut.due = true ∧ (s.st 0).cut.toIdle = b ∧ (s.st 0).st = .running ∧ (s.st 0).xs.idle = k) ∧
    (let s := withRegs { stnUp0 with st := .halted } [(Reg.stnCutStat 0, 1)]
     s.stnUp 0 = true ∧ (s.st 0).st = .halted ∧ s.rbit (Reg.stnCutStat 0) 0 = true ∧ s.rbit (Reg.stnCutStat 0) 2 = false ∧
     (s.st 0).cut.armed = false ∧ (s.st 0).cut.arming = false) := by
  decide +kernel

/-- The cycle in which the execute stream of station 0 acts. -/
def turn0 (x : Stn) : Stn := xsTurn (withStn x) 0

/-- Every control op of the statement is fetched; a flag that agrees and one that does not; a full and an empty queue; a header
that is read and written; a step-end point at each record; a c.idle that runs; an illegal bundle, also behind padding. -/
theorem witness_ControlBundles :
    (∀ op ∈ [0x01, 0x05, 0x06, 0x07, 0x08, 0x09, 0x0A, 0x0B, 0x0C, 0x0D, 0x0E, 0x0F], fetches (xsStn 5 (asW op 0)) 5 (asW op 0)) ∧
    fetches (xsStn 5 (asW 2 0xFFFF)) 5 (asW 2 0xFFFF) ∧
    (∀ op ∈ [0x10, 0x11],
      let x := { xsStn 5 (asW op 0) with xs := { (xsStn 5 (asW op 0)).xs with t := (xsStn 5 (asW op 0)).xs.t.set 0 (some tileOne) } }
      fetches x 5 (asW op 0) ∧ x.xs.t[(⟨5, asW op 0⟩ : XOp).tb.val] = some tileOne) ∧
    (fetches (xsStn 5 (asW 0x12 0)) 5 (asW 0x12 0) ∧ (xsStn 5 (asW 0x12 0)).xs.stepRec = none) ∧
    (∀ k ∈ [0, 1],
      let x := { xsStn 5 (asW 0x12 0) with xs := { (xsStn 5 (asW 0x12 0)).xs with stepRec := some (word k) } }
      fetches x 5 (asW 0x12 0) ∧ x.xs.stepRec = some (word k) ∧ (withStn x).stepCur = 0) ∧
    (fetches (xsStn 5 (asW 3 0)) 5 (asW 3 0) ∧ (turn0 (xsStn 5 (asW 3 0))).headReady 0 = none) ∧
    (let w := asW 4 (4 * 2 ^ 19)
     let x := { xsStn 5 w with q := (xsStn 5 w).q.set 4 (List.replicate 8 ⟨bare, .ready⟩) }
     fetches x 5 w ∧ (turn0 x).canPush 4 = false) ∧
    ((turn0 (xsStn 5 (asW 8 0))).flagNow 0 = bitOf (asW 8 0) 5 ∧ fetches (xsStn 5 (asW 8 0x20)) 5 (asW 8 0x20) ∧
      (turn0 (xsStn 5 (asW 8 0x20))).flagNow 0 ≠ bitOf (asW 8 0x20) 5) ∧
    (let x := { running with xs := { running.xs with idle := 1 } }
     (withStn x).mayAct 0 .xs = true ∧ x.xs.pend = [] ∧ x.xs.idle ≠ 0) ∧
    (let x := xsStn 5 (asW 0x3F 0)
     (withStn x).mayAct 0 .xs = true ∧ x.xs.idle = 0 ∧ x.xs.pend = [] ∧
     x.fetch ((withStn x).redStns.contains 0) 2049 x.xs.pc = .bad 0 5) ∧
    (let x := { running with xsMem := Cells.write zeroByte [] 64 [1, 0] }
     x.fetch ((withStn x).redStns.contains 0) 2049 x.xs.pc = .bad 64 7) := by
  unfold fetches; decide +kernel

/-- A pop, a push and a free that issue; results that land in one register in the order of landing, and for one accumulator
against the order of issue. -/
theorem witness_PopPushFreeAndLandingOrder :
    (let x := queued (xsStn 5 (asW 3 0)) bare
     fetches x 5 (asW 3 0) ∧ (turn0 x).headReady 0 = some bare) ∧
    (let w := asW 4 (4 * 2 ^ 19)
     let x := { xsStn 5 w with xs := { (xsStn 5 w).xs with t := (xsStn 5 w).xs.t.set 0 (some tileOne) } }
     fetches x 5 w ∧ (turn0 x).canPush 4 = true ∧ x.xs.t[(0 : Nat)] = some tileOne) ∧
    fetches (xsStn 5 (asW 5 0)) 5 (asW 5 0) ∧
    (let p : Pend := ⟨0, 0, 5, .empty 0, 0, TH.zero, 0, 0⟩
     let x := { running with xs := { running.xs with ic := 1, pend := [p] } }
     x.xs.pend = [p] ∧ p.land < x.xs.ic ∧ p.flags = 0 ∧ p.recs = 0 ∧ p.kept = 0) ∧
    (let p : Pend := ⟨0, 0, 0, .x 3 1, 0, TH.zero, 0, 0⟩
     let q : Pend := ⟨0, 0, 5, .x 3 2, 0, TH.zero, 0, 0⟩
     let x := { running with xs := { running.xs with ic := 1, pend := [q, p] } }
     x.xs.pend = [q, p] ∧ p.land < x.xs.ic ∧ q.land < x.xs.ic ∧ p.land = q.land ∧ p.order = q.order ∧ p.slot < q.slot) ∧
    (let p : Pend := ⟨0, 1, 0, .acc 3 ⟨.free, []⟩, 0, TH.zero, 0, 0⟩
     let q : Pend := ⟨1, 0, 0, .acc 3 ⟨.fp32, []⟩, 0, TH.zero, 0, 0⟩
     let x := { running with xs := { running.xs with ic := 2, pend := [q, p] } }
     x.xs.pend = [q, p] ∧ p.land < x.xs.ic ∧ q.land < x.xs.ic ∧ p.land < q.land ∧ q.order < p.order) := by
  unfold fetches; decide +kernel

/-- dclr on a free Dahlia and on one that is occupied; pending results of each kind, a header word that
makes the frame header-only and one that does not, one with flags that are reported, have been reported and are not, one whose
cycle has not ended. -/
theorem witness_EngineOccupancyAndResults :
    (let x := xsStn 0 (asW 4 0)
     fetches x 0 (asW 4 0) ∧ (⟨0, asW 4 0⟩ : XOp).op = 4 ∧ (withStn x).rbit (Reg.stnCheck 0) 0 = false ∧
     x.xs.freeAt[0] ≤ x.xs.ic) ∧
    (let x0 := xsStn 0 (asW 4 0)
     let x := { x0 with xs := { x0.xs with freeAt := x0.xs.freeAt.set 0 1 } }
     fetches x 0 (asW 4 0) ∧ x.xs.ic < x.xs.freeAt[0] ∧ x.xs.mmTil[0] = none) ∧
    (∀ r ∈ [Result.x 3 1, .acc 1 ⟨.fp32, []⟩, .empty 0],
      let p : Pend := ⟨0, 0, 0, r, 0, TH.zero, 0, 0⟩
      let q : Pend := ⟨0, 1, 0, .x 4 2, 0, TH.zero, 0, 0⟩
      let x := { running with xs := { running.xs with ic := 1, pend := [q, p] } }
      (∀ y ∈ x.xs.pend, y ≠ p → y.land < x.xs.ic → p.land < y.land ∨ (p.land = y.land ∧ p.order < y.order)) ∧
      p ∈ x.xs.pend ∧ p.land < x.xs.ic ∧ p.flags = 0 ∧ p.recs = 0 ∧ p.kept = 0) ∧
    (∀ v ∈ [(0 : Nat), 1],
      let p : Pend := ⟨0, 0, 0, .thWord 0 1 (word v), 0, TH.zero, 0, 0⟩
      let x := { running with xs := { running.xs with ic := 1, pend := [p], t := running.xs.t.set 0 (some tileOne) } }
      x.xs.pend = [p] ∧ p.land < x.xs.ic ∧ x.xs.t[(0 : Nat)] = some tileOne ∧ tileOne.blk = some 0 ∧ x.lay.tilePool = some 2 ∧
      (tileOne.th.putWord 1 (word v)).hdrOnly = decide (v = 1)) ∧
    (let p : Pend := ⟨0, 0, 0, .tile 2 thOne 3 [1, 2] none, 0, TH.zero, 0, 0⟩
     let x := { running with xs := { running.xs with ic := 1, pend := [p] } }
     x.xs.pend = [p] ∧ p.land < x.xs.ic ∧ x.xs.t[(2 : Nat)] = none ∧ x.lay.blkAddr 3 + 2 ≤ 0x800000) ∧
    (∀ r ∈ [0, 0x1F00], ∀ d ∈ [0, 31],
      let p : Pend := ⟨0, 0, 0, .x 3 1, 17, TH.zero, 5, 3⟩
      let s := withRegs { running with numDone := BitVec.ofNat 5 d, xs := { running.xs with ic := 1, pend := [p] } }
        [(Reg.stnNumCtrl 0, word r)]
      (s.st 0).xs.pend = [p] ∧ p.land < (s.st 0).xs.ic ∧ p.flags.getLsbD 0 = true ∧
      s.rbit (Reg.stnNumCtrl 0) 8 = decide (r ≠ 0) ∧ (s.st 0).numDone.getLsbD 0 = decide (d ≠ 0)) ∧
    (let p : Pend := ⟨1, 0, 0, .x 3 1, 0, TH.zero, 0, 0⟩
     let x := { running with xs := { running.xs with ic := 1, pend := [p] } }
     ∀ y ∈ x.xs.pend, x.xs.ic ≤ y.land) := by
  unfold fetches
  exact ⟨by decide +kernel, by decide +kernel, by decide +kernel, by decide +kernel, by decide +kernel, by decide +kernel,
    by decide +kernel⟩

/-- A tile of a format, its rows and columns, in a block. -/
def tileOf (fmt rows cols blk : Nat) : Tile := ⟨{ TH.zero with w0 := TH.shape fmt 0 rows cols rows, w6 := 0x7F }, some blk⟩

/-- A tile of no more than 64 records of 64 bytes. -/
def recTile : Tile := ⟨{ TH.zero with w0 := TH.shape 9 0 16 64 16, w1 := 0x30, w6 := 0x7F }, some 0⟩

/-- Station 0 with one bundle of one op, two tiles in T0 and T1, block 3 at hand and bytes in block 1. -/
def engStn (slot : Nat) (w : Word) (a b : Tile) (bytes : List Byte) : Stn :=
  let x := xsStn slot w
  { x with
    vit := Cells.write zeroByte x.vit (x.lay.blkAddr 1) bytes
    xs := { x.xs with t := (x.xs.t.set 0 (some a)).set 1 (some b), got := [3], x := x.xs.x.set 1 0x3F800000,
                      accNext := x.xs.accNext.set 1 ⟨.int32, [(0, 7)]⟩ } }

/-- What the clauses about the engines ask of every op: its fetch, a block, free engines, clean tiles within their rows. -/
def engReady (x : Stn) (slot : Nat) (w : Word) : Prop :=
  fetches x slot w ∧ x.xs.got = [3] ∧ x.lay.tilePool ≠ none ∧ (withStn x).rbit (Reg.stnCheck 0) 0 = false ∧
  (withStn x).rbit (Reg.stnNumCtrl 0) 0 = false ∧ (∀ e : Fin 4, x.xs.freeAt[e.val] ≤ x.xs.ic) ∧
  (∀ d : Fin 16, ∀ u ∈ x.xs.t[d.val], ∀ b ∈ u.blk, vitClean (withStn x) 0 (x.lay.blkAddr b) u.th.bodyLen ∧
    u.th.valid ≤ u.th.rows ∧ u.th.rows ≤ rowCap u.th.code ∧ u.th.cols ≤ 64)

/-- The element of T0 at (0, 0), in bytes of `k`. -/
def elem0 (x : Stn) (u : Tile) (k : Nat) : Nat := leAt (x.body u) 0 k

/-- Each op of the clauses about the engines on tiles of one row: dmm of INT8 tiles, dout to INT8, mul by 1, amax of a number
and of a NaN, add of FP64 zeros, sort of an empty record tile, run. -/
theorem witness_EngineArithmetic :
    (let w := asW 1 (1 * 2 ^ 14)
     let a := tileOf 7 1 3 0
     let x := engStn 0 w a (tileOf 7 1 3 1) []
     engReady x 0 w ∧ x.xs.t[(0 : Nat)] = some a ∧ x.xs.t[(1 : Nat)] = some (tileOf 7 1 3 1) ∧ a.th.hdrOnly = false ∧ a.th.fmt = 7 ∧
     a.th.tscale = 0x7F ∧ x.xs.accNext[(0 : Nat)].mode = .free ∧
     (engReady (engStn 0 (asW 1 (2 ^ 24 + 2 ^ 14)) a a []) 0 (asW 1 (2 ^ 24 + 2 ^ 14)) ∧ x.xs.accNext[(1 : Nat)].mode = .int32)) ∧
    (let w := asW 3 (1 * 2 ^ 20 + 1 * 2 ^ 9 + 7 * 2 ^ 4)
     let x := engStn 0 w bare bare []
     engReady x 0 w ∧ fld w 4 5 = 7 ∧ fld w 1 3 = 0 ∧ fld w 18 2 = 0 ∧ bitOf w 0 = false ∧
     x.xs.accNext[(⟨0, w⟩ : XOp).accOut.val].mode = .int32 ∧ x.xs.x[((⟨0, w⟩ : XOp).x 9).val] = 0x3F800000) ∧
    (let w := asW 3 (1 * 2 ^ 14)
     let a := tileOf 0 1 1 0
     let b := tileOf 0 1 1 1
     let x := engStn 2 w a b (toLE 4 0x3F800000)
     engReady x 2 w ∧ fld w 0 5 = 0 ∧ a.th.sameShape b.th = true ∧ a.th.fmt = 0 ∧ elem0 x a 4 % 2 ^ 31 < 0x7F800000 ∧
     elem0 x b 4 = 0x3F800000) ∧
    (∀ v ∈ [0x3F800000, 0x7FC00000],
      let w := asW 7 0
      let a := tileOf 0 1 1 1
      let x := engStn 2 w a a (toLE 4 v)
      engReady x 2 w ∧ a.th.hdrOnly = false ∧ 0 < a.th.valid ∧ 0 < a.th.cols ∧ elem0 x a 4 = v) ∧
    (let w := asW 1 (1 * 2 ^ 14)
     let a := tileOf 5 1 1 0
     let x := engStn 1 w a a []
     engReady x 1 w ∧ bitOf w 13 = false ∧ a.th.fmt = 5 ∧ a.th.sameShape a.th = true ∧ elem0 x a 8 = 0) ∧
    (let w := asW 1 0
     let x := engStn 4 w recTile recTile []
     engReady x 4 w ∧ recTile.th.isRecords = true) ∧
    (let w := asW 1 (4 * 2 ^ 21)
     let x := engStn 3 w bare bare []
     engReady x 3 w ∧ x.lup.jobs.length < 4 ∧ x.xs.x[((⟨3, w⟩ : XOp).x 12).val] = word 0 ∧ 0 + 64 ≤ x.lay.prog * 65536 ∧
     vitClean (withStn x) 0 0 64) := by
  unfold engReady fetches vitClean
  exact ⟨by decide +kernel, by decide +kernel, by decide +kernel, by decide +kernel, by decide +kernel, by decide +kernel,
    by decide +kernel⟩

/-- Both streams wait, at the limit and below it, and with the watchdog disabled. -/
theorem witness_Watchdog :
    let x := { running with wd := 5, as := { running.as with wait := .flag, obj := 31 }, xs := { running.xs with wait := .queueEmpty } }
    let s := withRegs x [(Reg.stnWatchdog 0, 5)]
    ((s.st 0).st = .running ∧ (s.st 0).as.wait ≠ .none ∧ (s.st 0).xs.wait ≠ .none ∧ (s.st 0).as.wait ≠ .htwait ∧
     (s.st 0).xs.wait ≠ .htwait ∧ ((s.st 0).as.wait ≠ .stepEnd ∨ (s.st 0).xs.wait ≠ .stepEnd) ∧
     (s.rg (Reg.stnWatchdog 0)).toNat ≠ 0 ∧ (s.rg (Reg.stnWatchdog 0)).toNat ≤ (s.st 0).wd ∧ (s.st 0).as.obj < 32 ∧
     (s.st 0).xs.obj < 32) ∧
    (s.st 0).wd < ((withRegs x [(Reg.stnWatchdog 0, 6)]).rg (Reg.stnWatchdog 0)).toNat ∧
    ((withRegs x [(Reg.stnWatchdog 0, 0)]).rg (Reg.stnWatchdog 0)).toNat = 0 := by
  decide +kernel

/-- A check job of a 16 x 16 matrix. -/
def checkJob : LupJob := ⟨0, 4, 4, [4, 16 + 16 * 2 ^ 16] ++ List.replicate 14 0⟩

/-- Station 0, which runs or was frozen by a cut, with Lupin as given. -/
def lupDev (frozen : Bool) (l : Lupin) (x : Stn) : State :=
  if frozen then withRegs { x with st := .halted, lup := l } [(Reg.stnCutStat 0, 1)] else withStn { x with st := .running, lup := l }

/-- The job and one with a malformed descriptor; an input to pop, a tile of a pair that is held; an output to push, the last
and another, with QO open and full; an output to form with a block free and with none; at a station that runs and at one
that a cut has frozen. -/
theorem witness_LupinJobsAndTiles :
    (let s (j : LupJob) := withStn { running with lup := { Lupin.reset with jobs := [j] } }
     (s checkJob).canRun 0 = true ∧ ((s checkJob).st 0).lup.cur = none ∧ checkJob.badWord = none ∧
     (⟨0, 4, 1, List.replicate 16 0⟩ : LupJob).badWord = some 0) ∧
    (let l := { Lupin.reset with cur := some checkJob }
     let s := setRegs (lupDev false l (queued stnUp0 tileOne)) [(Reg.stnCutCtrl 0, 4)]
     s.mayAct 0 .lupin = true ∧ l.stuck = false ∧ l.outs = [] ∧ l.todo = [] ∧ l.keep = none ∧ l.hand = none ∧ l.ended = false ∧
     (lupTurn s 0).lupPop s.ht (Fin.ofNat 8 checkJob.qi.val) = some tileOne ∧
     s.rf (Reg.stnCutCtrl 0) 2 3 ≠ (Fin.ofNat 8 checkJob.qi.val).val) ∧
    (∀ b ∈ [true, false],
      let l := { Lupin.reset with cur := some checkJob, hand := some tileOne }
      let s := lupDev b l stnUp0
      (if b then s.cutFrozen 0 else s.mayAct 0 .lupin) = true ∧ l.held = [] ∧ checkJob.mode = 4 ∧ tileOne.th.hdrOnly = false ∧
      tileOne.th.last = false ∧ vitClean s 0 ((s.st 0).lay.blkAddr 0) tileOne.th.bodyLen) ∧
    (∀ b ∈ [true, false], ∀ r ∈ [[], [tileOne]], ∀ k ∈ [7, 8],
      let l := { Lupin.reset with cur := some checkJob, outs := tileOne :: r, ended := r.isEmpty }
      let s := lupDev b l { stnUp0 with q := stnUp0.q.set 4 (List.replicate k ⟨bare, .ready⟩) }
      (if b then s.cutFrozen 0 else s.mayAct 0 .lupin) = true ∧ l.pushable checkJob = true ∧ checkJob.mode ≠ 2 ∧
      (lupTurn s 0).lupMayPush s.ht checkJob.qo = decide (k = 7)) ∧
    (∀ b ∈ [true, false], ∀ u ∈ [[0], [3, 2, 1, 0]],
      let l := { Lupin.reset with cur := some checkJob, todo := [(thOne, zeros 4096)], keep := some [] }
      let s := lupDev b l { stnUp0 with used := [[], [], u, [], []] }
      let y := lupTurn s 0
      (if b then s.cutFrozen 0 else s.mayAct 0 .lupin) = true ∧ l.outs = [] ∧ thOne.hdrOnly = false ∧ y.lay.tilePool = some 2 ∧
      2 ∉ y.cyc.given ∧ y.outranked s.ht 2 .lupin 0 = false ∧ y.lowestFree 2 = (if u = [0] then some 1 else none)) := by
  unfold vitClean
  exact ⟨by decide +kernel, by decide +kernel, by decide +kernel, by decide +kernel, by decide +kernel⟩

/-- The root with an armed edge before, at and after its tick, and with an edge in and off its tick; a driven device at a
multiple; a record at the parent's port and elsewhere. -/
theorem witness_TimeSignals :
    (let s (ht : Nat) := atTick ht (dev [(Reg.htCtrl, 3), (Reg.htTsyncPeriod, 100), (Reg.htEpochLo, 8)])
     (s 7).isRoot = true ∧ (s 7).rbit Reg.htCtrl 1 = true ∧ (s 7).ht.toNat + 1 ≤ ((s 7).rg64 Reg.htEpochLo).toNat ∧
     ((s 8).rg64 Reg.htEpochLo).toNat < (s 8).ht.toNat + 1) ∧
    (let s (ht : Nat) := { atTick ht (dev [(Reg.htCtrl, 1), (Reg.htTsyncPeriod, 100)]) with
       clk := { Clock.reset with tsyncRef := some 0 } }
     (s 99).isRoot = true ∧ (s 99).rbit Reg.htCtrl 1 = false ∧ (s 99).rg Reg.htTsyncPeriod = 100 ∧
     (∀ ht ∈ [99, 100, 101], 0 + 100 ≤ (s ht).ht.toNat + 1 ∧ (s ht).ht.toNat ≤ 0 + 100 + 1) ∧
     (∀ ht ∈ [98, 102], ¬ (0 + 100 ≤ (s ht).ht.toNat + 1 ∧ (s ht).ht.toNat ≤ 0 + 100 + 1))) ∧
    (let s := { dev [(Reg.htTsyncPeriod, 100)] with plt := { Plt.reset with driven := true } }
     s.plt.driven = true ∧ s.rg Reg.htTsyncPeriod ≠ 0 ∧ s.atMultiple 100 = true ∧ s.atMultiple 4096 = true) ∧
    (let s := withPort { Prt.reset with acc := .admitted, locked := true } [(Reg.stnRole 0, 1), step_ 0 1]
     s.isFabric 0 = true ∧ (s.pt 0).locked = true ∧ s.parentPort = some 0 ∧ s.parentUp 0 = true ∧
     s.isFabric 1 = true ∧ s.parentPort ≠ some 1 ∧ s.rbit Reg.htStatus 0 = true ∧ (16 < (17 : Int).natAbs)) := by
  decide +kernel

/-- A timed holdover beyond its limit in each step state; a root against a lower rank and against its own. -/
theorem witness_ParentsHoldoverAndRoot :
    (∀ st ∈ [0, 1, 2],
      let s := { atTick 101 (dev [step_ st 3, (Reg.htHoldover, 100)]) with clk := { Clock.reset with holdSince := some 0 } }
      s.clk.holdSince = some 0 ∧ s.rbit Reg.htStatus 1 = true ∧ s.clk.holdDone = false ∧
      (s.rg Reg.htHoldover).toNat < s.ht.toNat - 0 ∧ s.stepState = st) ∧
    (let s := dev [(Reg.htCtrl, 1), (Reg.pltStrap, 1)]
     s.isRoot = true ∧ (15 : Fin 512).val < s.rank ∧ s.rank ≤ (16 : Fin 512).val) := by
  decide +kernel

/-- Open at the close tick; Closing and drained; Closing and not drained at the limit, before and after the overrun. -/
theorem witness_ClosingDrainAndOverrun :
    (let s := atTick 50 (dev [step_ 1 0, (Reg.htStepCloseLo, 50), (Reg.htStepCloseLo + 4, 0)])
     s.stepState = 1 ∧ (s.rg64 Reg.htStepCloseLo).toNat ≤ s.ht.toNat) ∧
    (let s := dev [step_ 2 0]
     s.stepState = 2 ∧ s.drained = true ∧ s.clk.stopWanted = false ∧ s.holding = false) ∧
    (∀ b ∈ [true, false],
      let x := { queued stnUp0 bare with st := .running }
      let s := { atTick 150 (withRegs x [(Reg.stnRole 0, 1), step_ 2 0, (Reg.htCloseLimit, 100)]) with
        clk := { Clock.reset with closeAt := some 50, overrun := b } }
      s.clk.closeAt = some 50 ∧ s.stepState = 2 ∧ s.drained = false ∧
      (50 : DWord).toNat + (s.rg Reg.htCloseLimit).toNat ≤ s.ht.toNat ∧ s.clk.overrun = b) := by
  decide +kernel

/-- Closed at the opening tick and later; Stopped with each condition; a stream at its step-end point; a due parade. -/
theorem witness_StepsOpenAndParade :
    (let s (ht : Nat) := atTick ht (dev [step_ 0 0, (Reg.htStepOpenLo, 50), (Reg.htStepOpenLo + 4, 0)])
     (s 50).stepState = 0 ∧ ((s 50).rg64 Reg.htStepOpenLo).toNat ≤ (s 50).ht.toNat ∧
     ((s 51).rg64 Reg.htStepOpenLo).toNat < (s 51).ht.toNat) ∧
    (let s := dev [step_ 3 5, (Reg.pwrStatus, 6)]
     s.stepState = 3 ∧ s.rbit Reg.htStatus 0 = true ∧ s.rbit Reg.htStatus 2 = true ∧ s.stage = 6 ∧ s.holding = false) ∧
    (let s := dev [step_ 3 4, (Reg.pwrStatus, 5)]
     s.stepState = 3 ∧ s.rbit Reg.htStatus 0 = false ∧ s.stage ≠ 6) ∧
    (let x := { asStn (asW 4 0) with
       as := { (asStn (asW 4 0)).as with wait := .stepEnd, stepRec := some 1 }
       xs := { running.xs with wait := .stepEnd, stepRec := some 1 } }
     let s (c : Word) := withRegs x [(Reg.htStepCur, c)]
     asAt (s 2) 0 (asW 4 0) 4 ∧ x.as.wait = .stepEnd ∧ x.as.stepRec ≠ some (s 2).stepCur ∧
     x.as.stepRec = some (s 1).stepCur ∧ x.xs.wait = .stepEnd ∧ x.xs.stepRec ≠ some (s 2).stepCur ∧
     x.xs.stepRec = some (s 1).stepCur) ∧
    ({ atTick 65536 up with clk := { Clock.reset with alignedYet := true } } : State).paradeDue = true := by
  unfold asAt; decide +kernel

/-- A requester's transaction in each state, and TXN_AT one after, at and before hall time. -/
theorem witness_TransactionBeginAndCommit :
    (bitOf (1 : Word) 0 = true) ∧
    (∀ st ∈ [TxnState.none, .open_, .armed, .failed], ∀ r ∈ [Requester.host, .curator],
      let s := atTick 10 (up.setTxn r { Txn.reset with st := st, want := 11 })
      (s.txn r).st = st ∧ s.ht.toNat < (s.txn r).want.toNat ∧ s.img.booted = none ∧
      ({ s with img := { Img.reset with booted := some 0 } } : State).img.booted.isSome = true ∧
      (s.txn r).want.toNat ≤ (atTick 11 s).ht.toNat) := by
  decide +kernel

/-- A rollback that is written, one with nothing to discard, and a warm reset. -/
theorem witness_RollbackDiscards :
    bitOf (1 : Word) 0 = true ∧ (up.txn .host).st = .none ∧ (up.txn .host).entries = [] ∧
    fld (0x15752 : Word) 0 16 = 0x5752 ∧ bitOf (0x15752 : Word) 16 = true ∧ up.img.load = none ∧ up.cur.regOn = true ∧ up.cur.aux = true := by
  decide +kernel

/-- A due transaction of one entry that holds, one whose entry breaks row 5 of Table 14.7; an armed gate bank. -/
theorem witness_TakeoversAtTheirTick :
    (let t : Txn := { Txn.reset with st := .armed, entries := [(0x100000, 5)], at_ := 7 }
     let s := atTick 7 (up.setTxn .host t)
     s.txnDue .host = true ∧ s.txnDue .curator = false ∧ (s.txn .host).entries = [(0x100000, 5)] ∧
     s.entriesOk [(0x100000, 5)] = true) ∧
    (let t : Txn := { Txn.reset with st := .armed, entries := [(Reg.stnVitProg 0, 129)], at_ := 7 }
     let s := atTick 7 (up.setTxn .curator t)
     s.txnDue .curator = true ∧ s.txnDue .host = false ∧ s.entriesOk (s.txn .curator).entries = false) ∧
    (let s := atTick 7 (withPort { Prt.reset with gateDue := 7 } [(Reg.prtGateCtrl 0, 1)])
     s.rbit (Reg.prtGateCtrl 0) 0 = true ∧ (s.pt 0).gateDue.toNat ≤ s.ht.toNat ∧ (s.pt 0).txUntil ≤ s.cycle) := by
  decide +kernel

/-- Addresses just outside each window; a register with RC fields, both halves of an RO pair, a unit that is off. -/
theorem witness_RegisterReadsAndWindows :
    (2 ^ 26 + 1) % 4 ≠ 0 ∧ 2 ^ 36 < (2 ^ 36 - 3) + atomicBytes .w32 ∧ 2 ^ 24 < (2 ^ 24 : Nat) + 1 ∧
    (let a := 0x10000 + 100
     ∃ row, regRow a = some row ∧ a % 4 = 0 ∧ isProg a = false ∧ a ∉ [Reg.catWindow 0, Reg.catWindow 15] ∧
       up.unitUp a = true ∧ row.half = .single ∧ row.rc ≠ 0) ∧
    (let a := 0x10000
     ∃ row, regRow a = some row ∧ up.unitUp a = true ∧ row.roLo = true ∧ isProg a = false) ∧
    (let a := 0x10004
     ∃ row, regRow a = some row ∧ up.unitUp a = true ∧ row.roHi = true ∧
       Cells.look ({ up with capHi := [(a, 1)] } : State).capHi a = some 1) ∧
    (let a := 0x100000
     (∃ row, regRow a = some row) ∧ State.reset.unitUp a = false) ∧ up.cur.aux = true := by
  refine ⟨by decide, by decide, by decide, ⟨(regRow (0x10000 + 100)).get (by decide +kernel), by decide +kernel⟩,
    ⟨(regRow 0x10000).get (by decide +kernel), by decide +kernel⟩, ⟨(regRow 0x10004).get (by decide +kernel), by decide +kernel⟩,
    ⟨⟨(regRow 0x100000).get (by decide +kernel), by decide +kernel⟩, by decide +kernel⟩, by decide⟩

/-- A single register with RWS fields, outside a transaction, in an open one and on a device with the regulators off. -/
theorem witness_RegisterWrite :
    let a := 0x100004
    ∃ row, regRow a = some row ∧ a % 4 = 0 ∧ row.half = .single ∧ row.rws ≠ 0 ∧ inStn a = false ∧ inPrt a = false ∧
      a ∉ [Reg.htCtrl, Reg.htParent, Reg.htTsyncPeriod] ∧
      (∀ s ∈ [up, State.reset], (s.domainAction .host a 7).isNone = true) ∧ up.unitUp a = true ∧ (up.txn .host).st = .none ∧
      (let s := up.setTxn .host { Txn.reset with st := .open_ }
       (s.txn .host).st = .open_ ∧ (s.txn .host).entries = [] ∧ s.unitUp a = true ∧ (s.domainAction .host a 7).isNone = true) ∧
      State.reset.unitUp a = false :=
  ⟨(regRow 0x100004).get (by decide +kernel), by decide +kernel⟩

/-- The first and the last word of each window of program memory at a station that runs and at one that does not. -/
theorem witness_ProgramMemoryWrites :
    (∀ o ∈ [0x10000, 0x17FFC, 0x20000, 0x2FFFC], o % 4 = 0 ∧ ((0x10000 ≤ o ∧ o < 0x18000) ∨ (0x20000 ≤ o ∧ o < 0x30000))) ∧
    (withStn stnUp0).cur.regOn = true ∧ (withStn stnUp0).stnUp 0 = true ∧ ((withStn stnUp0).st 0).st ≠ .running ∧
    (withStn running).stnUp 0 = true ∧ ((withStn running).st 0).st = .running := by
  decide +kernel

/-- An STN_PROG of 8 bytes that ends at the end of each program memory, with the staging pool's first block free. -/
theorem witness_StnProg :
    (∀ e ∈ [((0 : Nat), 0x7FF8), (1, 0x1FFF8)], ∀ x ∈ [stnUp0, running],
      let m : Mail := ⟨0x40, 0, 6, none⟩
      let s0 := withRegs x [rdy, (Reg.curArg 1, word e.1), (Reg.curArg 2, word e.2), (Reg.curArg 3, 8)]
      let s := { s0 with cur := { s0.cur with mail := some m } }
      s.curReady = true ∧ (s.rg (Reg.curArg 0)).toNat = 0 ∧ (s.rg (Reg.curArg 1)).toNat = e.1 ∧
      (s.rg (Reg.curArg 2)).toNat = e.2 ∧ (s.rg (Reg.curArg 3)).toNat = 8 ∧
      e.2 + 8 ≤ (if e.1 = 0 then 0x8000 else 0x20000) ∧ s.stnUp 0 = true ∧ s.ringUp = true ∧ (s.st 0).lay.count 4 ≠ 0 ∧
      4 ∉ (s.st 0).cyc.given ∧ (s.st 0).outranked s.ht 4 .curator 0 = false ∧ (s.st 0).lowestFree 4 = some 0 ∧ (s.rg (Reg.curArg 4)).toNat = 0 ∧ (s.rg (Reg.curArg 5)).toNat = 0 ∧ dramClean s 0 8) := by
  unfold dramClean; decide +kernel

/-- Accesses that end at the window's end, and operands of each width. -/
theorem witness_DramApertureAndAtomics :
    up.cur.aux = true ∧ up.ringUp = true ∧ State.reset.ringUp = false ∧ State.reset.cur.aux = true ∧
    (2 ^ 36 - 8) + 8 ≤ 2 ^ 36 ∧ dramClean up (up.aperture (2 ^ 36 - 8)) 8 ∧
    (∀ d ∈ [some (zeros 8), none], let s := { up with bar2 := [⟨d⟩] }
     s.ringUp = true ∧ s.bar2 = ⟨d⟩ :: []) ∧
    (∀ w ∈ [AtomicWidth.w32, .w64], (2 ^ 36 - 8) + atomicBytes w ≤ 2 ^ 36 ∧ (2 ^ 36 - 8) % atomicBytes w = 0 ∧
      w ≠ .w128 ∧ up.badAt (up.aperture (2 ^ 36 - 8)) = 0) ∧
    (2 : Nat) % atomicBytes .w32 ≠ 0 ∧ (2 : Nat) + atomicBytes .w32 ≤ 2 ^ 36 := by
  unfold dramClean; decide +kernel

/-- Both halves at a station that answers and at one that does not; accesses within a half, across both, and a write
across the end of the program region. -/
theorem witness_Bar4ReadsAndWrites :
    (let s := withRegs stnUp0 [(Reg.stnRole 0, 1), (Reg.glbVitSel, 0)]
     s.cur.aux = true ∧ s.vitStn 0 = 0 ∧ s.vitUp 0 = true ∧ s.vitStn (2 ^ 23) = 0 ∧ vitClean s 0 (2 ^ 23 - 8) 8 ∧
     vitClean s 0 0 8 ∧ (2 ^ 23 - 8) + 8 ≤ 2 ^ 23 ∧ (2 ^ 23 - 8 : Nat) < 2 ^ 23 ∧ 2 ^ 23 < (2 ^ 23 - 8) + 16 ∧
     vitClean s 0 65532 8 ∧ 65532 + 8 ≤ 2 ^ 23 ∧ (s.st 0).lay.prog * 65536 < 65532 + 8 ∧
     (s.st 0).lay.prog * 65536 = 65532 + 4) ∧
    (up.vitUp (up.vitStn 0) = false ∧ up.vitUp (up.vitStn (2 ^ 23)) = false) := by
  unfold vitClean; decide +kernel

/-- No lock, a lock of BAR2 and of the Curator with a mailbox command; the last unit of a scrub pass with words of 2 and of
3 bad bits; a write-back that waits; the last line of a Vitrine and of the ingress memory. -/
theorem witness_LocksAndScrubs :
    (up.sk 0).locks = [] ∧ (up.sk 0).late = [] ∧ (up.sk 0).back = [] ∧
    (∀ w ∈ [MemUser.aperture, .curator], ∀ c ∈ [6, 18],
      let s := { up with
        stk := up.stk.set 0 { Stk.reset with locks := [⟨w, 0, 0⟩] }
        cur := { up.cur with mail := some ⟨0x10, 0, 4, none⟩ }
        cycle := c }
      (s.sk 0).locks = ⟨w, 0, 0⟩ :: [] ∧
      decide (0 + max 8 ((setRegs s [(Reg.memHoldMax 0, 8)]).rf (Reg.memHoldMax 0) 0 16) < s.ctlCycle) = decide (c = 18)) ∧
    (let s := { dev [(Reg.memScrubCtrl 0, 1)] with
       stk := up.stk.set 0 { Stk.reset with scrub := 37748735, back := [unitAddr 0 37748735] }
       dramBad := [(wordKey 0 (unitAddr 0 37748735), 2), (wordKey 0 (unitAddr 0 37748735 + 8), 3)] }
     s.rbit (Reg.memScrubCtrl 0) 0 = true ∧ (s.sk 0).lost = false ∧ (s.sk 0).locks = [] ∧ (s.sk 0).back ≠ []) ∧
    (let s := withRegs { stnUp0 with
       vitBad := [(16 * 65535, 2), (16 * 65535 + 1, 3)], ingBad := [(16 * 32767, 2)] } [(Reg.stnVitScrub 0, 1)]
     s.rbit (Reg.stnVitScrub 0) 0 = true ∧ (s.st 0).powered = true ∧ (65535 : Nat) < 65536 ∧ (98303 : Nat) < 98304) := by
  exact ⟨by decide +kernel, by decide +kernel, by decide +kernel, by decide +kernel, by decide +kernel, by decide +kernel⟩

/-- An event of a class, for the device. -/
def ev (c : Code) (cls : Cls) : Event := ⟨5, 100, c, cls, uDevice, 1, 40, 41, 300, [], none⟩

/-- A record of that event's key. -/
def recOf (isOpen : Bool) : CatRec :=
  ⟨7, List.replicate 16 0, ⟨.tim, 1⟩, .noted, uDevice, 0, none, 4, isOpen, false, false⟩

/-- The Catalogue with an event queued and records in the tail. -/
def catSt (q u : List Event) (r : List CatRec) : Cat := { Cat.reset with queue := q, urgent := u, recs := r }

/-- An event that opens a record, one that counts in an open one, one in a freeze, a Fenced one. -/
theorem witness_EventsBecomeRecords :
    let e := ev ⟨.tim, 1⟩ .noted
    let f := ev ⟨.stn, 1⟩ .fenced
    (let s := { dev [rdy] with cat := catSt [e] [] [] }
     s.curReady = true ∧ s.cat.urgent = [] ∧ s.cat.queue = [e] ∧ s.rbit Reg.catCtrl 0 = false ∧
     s.cat.recs.find? (fun r => r.isOpen && !r.follow && s.sameKey e r) = none) ∧
    (let s := { dev [rdy] with cat := catSt [e] [] [recOf true] }
     s.cat.recs.find? (fun r => r.isOpen && !r.follow && s.sameKey e r) = some (recOf true)) ∧
    (let s := { dev [rdy, (Reg.catCtrl, 1)] with cat := catSt [e] [] [] }
     s.curReady = true ∧ s.rbit Reg.catCtrl 0 = true ∧ e.cls ≠ .fenced ∧ e.cls ≠ .fatal) ∧
    (let s := { dev [rdy] with cat := catSt [] [f] [] }
     s.curReady = true ∧ s.cat.urgent = [f] ∧ s.rbit Reg.catCtrl 0 = false ∧
     s.cat.recs.any (fun r => !r.follow && s.sameKey f r) = false ∧ s.cat.copying = none) := by
  decide +kernel

/-- One sealed record that is not in the ring; CAT_FLUSH with no copy and with one under way; a copy to complete. -/
theorem witness_RecordsPersistAndCopy :
    (let s := { atTick 1250000 (dev [rdy]) with cat := catSt [] [] [recOf false] }
     s.atMultiple 1250000 = true ∧ s.curReady = true ∧ s.ringUp = true ∧
     s.cat.recs.filter (fun x => !x.isOpen && !x.inRing) = [recOf false] ∧ (recOf false).words.length = 16 ∧
     dramClean s ((s.rg64 Reg.catRingLo).toNat % 2 ^ 40 + (recOf false).seq.toNat % 65536 * 64) 64) ∧
    (let m : Mail := ⟨0x50, 0, 0, none⟩
     let c : CatCopy := ⟨3, false, 0, false, 0, 0, 0⟩
     let s (o : Option CatCopy) := { dev [rdy] with
       cat := { Cat.reset with copying := o, recs := [recOf false] }, cur := { (dev [rdy]).cur with mail := some m, trained := false } }
     (s none).curReady = true ∧ (s none).cur.mail = some m ∧ m.op = 0x50 ∧ m.done = none ∧ (s none).cat.copying = none ∧
     (s none).cat.waiting = none ∧ (s (some c)).cat.copying = some c ∧ c.flush = false ∧ (s (some c)).curReady = true ∧
     (s (some c)).cat.fltFatal = false ∧ (s (some c)).ringUp = false ∧ ∀ r ∈ (s (some c)).cat.recs, r.words.length = 16) := by
  unfold dramClean; decide +kernel

/-- A thawed and a frozen Catalogue, a freeze at its limit, a cursor that selects a record, each kind of unit with its last
index. -/
theorem witness_CatalogueFreezeWindowAndClear :
    up.rbit Reg.catCtrl 0 = false ∧
    (let s := { atTick 1250000 (dev [(Reg.catCtrl, 1), (Reg.catFreezeMax, 1)]) with cat := { Cat.reset with freezeAt := some 0 } }
     s.rbit Reg.catCtrl 0 = true ∧ s.cat.freezeAt = some 0 ∧
     (0 : DWord).toNat + max 1 (s.rf Reg.catFreezeMax 0 16) * 1250000 ≤ s.ht.toNat) ∧
    (let s := { dev [(Reg.catCursor, 7)] with cat := catSt [] [] [recOf false] }
     (s.cat.recs.filter (fun x => x.seq.toNat % 65536 = s.rf Reg.catCursor 0 16)).getLast? = some (recOf false)) ∧
    (∀ e ∈ [(1, 63), (2, 127), (4, 7), (5, 15)],
      fld (word (e.1 + e.2 * 16)) 0 4 = e.1 ∧ fld (word (e.1 + e.2 * 16)) 4 7 = e.2) := by
  decide +kernel

/-- A second's end with the Curator running and no corrected codewords. -/
theorem witness_ScoresDecay :
    let s := atTick 1250000000 (dev [rdy])
    s.atMultiple 1250000000 = true ∧ s.curReady = true ∧
    ∀ p : PortId, Cells.get zeroNat s.cat.fecRest p.val + Cells.get zeroNat s.cat.fecNow p.val < 65536 := by
  decide +kernel

/-- Each command in the mailbox, with arguments in and out of range; results that wait, and a reserved opcode. -/
theorem witness_MailboxCommandsAndCompletion :
    (∀ op ∈ [0x01, 0x02, 0x10, 0x20, 0x30, 0x7F],
      let s := { dev [rdy, (Reg.curArg 0, 0x0FFFFFC0), (Reg.curArg 1, 64)] with
        cur := { up.cur with mail := some ⟨op, 9, 4, none⟩ } }
      s.cur.mail = some ⟨op, 9, 4, none⟩ ∧ s.curReady = true ∧ s.ringUp = true ∧
      (s.rg (Reg.curArg 0)).toNat % 64 = 0 ∧ (s.rg (Reg.curArg 1)).toNat = 64 ∧
      (s.rg (Reg.curArg 0)).toNat + 64 ≤ 0x10000000 ∧ (s.rg (Reg.curArg 2)).toNat = 0 ∧ (s.rg (Reg.curArg 3)).toNat = 0 ∧
      dramClean s 0 288 ∧ s.cur.mirrors = []) ∧
    ((dev [(Reg.curArg 0, 1)]).rg (Reg.curArg 0)).toNat % 64 ≠ 0 ∧
    ((dev []).rg (Reg.curArg 0)).toNat + ((dev []).rg (Reg.curArg 1)).toNat * 2 ^ 32 + 320 * 0 ≤ dramSize ∧
    (let m : Mail := ⟨0x01, 9, 4, some (0, [1, 2])⟩
     let s := { dev [rdy] with cur := { up.cur with mail := some m } }
     s.cur.mail = some m ∧ m.done = some (0, [1, 2]) ∧ s.curReady = true) ∧
    0x7F ∉ [0x01, 0x02, 0x10, 0x20, 0x30, 0x40, 0x50] := by
  unfold dramClean; decide +kernel

/-- A load that starts, pushes of the least and the greatest length, an end, each with BUSY 0 and 1; a slot that was tried;
a loaded slot of zeros, which is refused; a Plinth load that starts, takes a block, and ends short or whole,
whose pass is signalled, and whose pass has been: which image passes rests on the opaque root key. -/
theorem witness_ImageLoadsAndVerification :
    (let s (b : Word) (l : Option ImgLoad) := { dev [rdy, (Reg.glbImgLoadst, b)] with
       img := { Img.reset with booted := some 0, tried := true, load := l } }
     let l : ImgLoad := ⟨.pcie, 1, 0, false, false⟩
     (s 0 none).curReady = true ∧ (s 0 none).rbit Reg.glbImgLoadst 0 = false ∧ (s 0 none).img.load = none ∧
     (s 0 none).img.booted = some 0 ∧ (s 1 none).rbit Reg.glbImgLoadst 0 = true ∧ (s 0 (some l)).img.load = some l ∧
     (s 0 (some l)).rbit Reg.glbImgLoadst 0 = false ∧ (s 1 (some l)).rbit Reg.glbImgLoadst 0 = true ∧
     (s 0 none).img.tried = true ∧ l.ended = false ∧ l.src = .pcie ∧
     (∀ v ∈ [4, 32768], fld (word v) 0 16 % 4 = 0 ∧ 4 ≤ fld (word v) 0 16 ∧ fld (word v) 0 16 ≤ 32768 ∧
       l.bytes + fld (word v) 0 16 ≤ 0x4000000)) ∧
    (let l : ImgLoad := ⟨.pcie, 1, 400, true, false⟩
     let s := { up with img := { Img.reset with booted := some 0, load := some l } }
     s.img.load = some l ∧ l.ended = true ∧ l.src = .pcie ∧ s.plt.passAt = none ∧ s.img.booted = some 0 ∧ l.slot < 2 ∧
     s.verify (Cells.read zeroByte s.flash (l.slot * 0x4000000)
       (min 0x4000000 (imgHead (Cells.read zeroByte s.flash (l.slot * 0x4000000) 64)).len)) = some ⟨⟨.cfg, 1⟩, 1, 0xFFFF⟩) ∧
    (let s0 := dev [rdy, (Reg.pltPhase, 1)]
     s0.rf Reg.pltPhase 0 2 = 1 ∧ s0.curReady = true ∧ s0.img.load = none ∧ s0.plt.passAt = none) ∧
    (∀ c ∈ [12499, 12500],
      let l : ImgLoad := ⟨.plinth, 1, 400, true, false⟩
      let s := { up with img := { Img.reset with load := some l }, plt := { Plt.reset with passAt := some 0 }, cycle := c }
      s.img.load = some l ∧ l.ended = true ∧ s.img.booted = none ∧ l.slot < 2 ∧
      (imgHead (Cells.read zeroByte s.flash (l.slot * 0x4000000) 64)).len ≤ 0x4000000 ∧ s.plt.passAt = some 0 ∧
      (0 + 12500 ≤ s.cycle ↔ c = 12500)) ∧
    (∀ n ∈ [0, 63, 64, 4096],
      let l : ImgLoad := ⟨.plinth, 0, n, false, false⟩
      let s := { up with img := { Img.reset with load := some l }, plt := { Plt.reset with ack := true } }
      s.img.load = some l ∧ l.src = .plinth ∧ l.ended = false ∧ s.plt.ack = true ∧ (zeros 4096).length = 4096 ∧
      l.bytes + 4096 ≤ 0x4000000 ∧ (64 ≤ n → (imgHead (Cells.read zeroByte s.flash (l.slot * 0x4000000) 64)).len ≤ l.bytes)) := by
  decide +kernel

/-- Any state serves the power-on reset and the loss of power; a PCIe reset beside an armed transaction; the key of a warm
reset, a wrong key and a missing start bit; no copy of the slot table and two good ones. -/
theorem witness_Resets :
    up.img.load = none ∧ ({ up with txnHost := { Txn.reset with st := .armed } } : State).txnHost.st = .armed ∧
    fld (0x15753 : Word) 0 16 ≠ 0x5752 ∧ bitOf (0x05752 : Word) 16 = false ∧ fld (0x15752 : Word) 0 16 = 0x5752 ∧
    bitOf (0x15752 : Word) 16 = true ∧ up.cur.regOn = true ∧ up.cur.aux = true ∧
    up.tableCopy 0 = none ∧ up.tableCopy 1 = none ∧
    (let put (k n : Nat) (f : Cells Byte) : Cells Byte := Cells.write zeroByte f (tableAt k) (sealed (toLE 4 0x18 ++ toLE 4 3 ++ toLE 4 n))
     let s := { up with flash := put 1 8 (put 0 7 []) }
     s.tableCopy 0 = some ⟨0x18, 3, 7⟩ ∧ s.tableCopy 1 = some ⟨0x18, 3, 8⟩) := by
  decide +kernel

/-- The boot ROM's turn; each stage with its condition met and unmet, straps at their greatest legal coordinates, an image
with no record and with one of each DRAM kind; a wave at its tick and one before it, a station that a role change powered. -/
theorem witness_StartUpAndWaves :
    ((dev [(Reg.pwrStatus, 1)]).stage = 1 ∧ (dev [(Reg.pwrStatus, 1)]).curReady = false) ∧
    (State.reset.stage = 0 ∧ State.reset.cur.aux = true ∧
      (let trit (z : Strap) : Nat := (tritOf z).getD 0
       trit .open_ + 3 * (trit .open_ + 3 * (trit .low + 3 * trit .open_)) = 31 ∧
       trit .low + 3 * (trit .high + 3 * trit .open_) = 15 ∧
       Strap.unsteady ∉ [Strap.open_, .open_, .low, .open_, .low, .high, .open_, .high])) ∧
    (let s (v : Nat) (b : Option Nat) (f : Bool) := { dev [(Reg.pwrStatus, 1)] with
       cur := { up.cur with vinGood := v, smp := { up.cur.smp with hotSwap := true } }, img := { Img.reset with booted := b }, cat := { Cat.reset with fltFatal := f } }
     (s 1000 (some 0) false).stage = 1 ∧ (s 1000 (some 0) false).img.booted.isSome = true ∧
     1000 ≤ (s 1000 (some 0) false).cur.vinGood ∧ (s 1000 (some 0) false).cur.smp.hotSwap = true ∧ up.cur.smp.hotSwap = false ∧
     (s 1000 (some 0) false).cur.aux = true ∧ (s 1000 (some 0) false).cat.fltFatal = false ∧
     (s 999 (some 0) false).cur.vinGood < 1000 ∧ (s 1000 none false).img.booted = none ∧ (s 1000 none true).cat.fltFatal = true) ∧
    (∀ v ∈ [2, 3, 4, 5], (dev [(Reg.pwrStatus, word v), step_ 3 4]).stage = v ∧
      (dev [(Reg.pwrStatus, word v), step_ 3 4]).cur.regOn = true ∧
      (dev [(Reg.pwrStatus, word v), step_ 3 4]).rbit Reg.htStatus 2 = true) ∧
    (∀ l ∈ [[], [(⟨5, 64, toLE 4 128⟩ : ImgRec)], [⟨4, 64, toLE 4 7⟩]],
      let s := { dev [(Reg.pwrStatus, 3)] with img := { Img.reset with records := l } }
      s.stage = 3 ∧ s.img.records = l ∧ (∀ k, (s.sk k).lost = false) ∧ dramClean s 64 4) ∧
    ((({ up with stk := up.stk.set 7 { Stk.reset with lost := true } } : State).sk 7).lost = true) ∧
    (∀ e ∈ [((0 : Fin 8), 0), (7, 218750)], ∀ w ∈ [0, 31250],
      let s := { atTick (e.2 + w) (withRegs { Stn.reset with powered := true } [(Reg.stnRole 0, 1)]) with
        clk := { Clock.reset with w0 := some 0 } }
      s.cur.regOn = true ∧ s.clk.w0 = some 0 ∧ (0 : DWord).toNat + 31250 * e.1.val + w ≤ s.ht.toNat ∧
      (∀ n, (s.st n).cut.armed = false ∧ (s.st n).cut.arming = false) ∧ s.role 0 ≠ 0 ∧ (s.st 0).powered = true ∧ (s.st 0).offTick = none ∧
      (s.st 0).released = false ∧ (s.st 0).st = .idle ∧ s.rbit (Reg.stnCtrl 0) 0 = false) ∧
    ((atTick 218749 up).ht.toNat < (0 : DWord).toNat + 31250 * (7 : Fin 8).val) ∧
    (let s := atTick 9 (withStn { Stn.reset with powered := true, offTick := some 9 })
     (s.st 0).offTick = some 9 ∧ (9 : DWord).toNat ≤ s.ht.toNat ∧ (s.st 0).powered = true ∧ s.rbit (Reg.stnCtrl 0) 0 = false) := by
  unfold dramClean; decide +kernel

/-- Phase C at each cycle where clauses meet; an input that chatter holds; each input read, stuck and not yet. -/
theorem witness_PlinthPins :
    (∀ c ∈ [124999, 125000, 1249999, 1250000],
      let s := { up with plt := { Plt.reset with phaseC := some 0 }, cycle := c }
      s.plt.phaseC = some 0 ∧ s.plt.phaseC.isSome = true ∧ s.cycle = c ∧ s.plt.reading = false ∧ s.plt.leak.level = false ∧
      s.plt.hold.hush ≤ s.cycle) ∧
    (let s := { up with plt := { Plt.reset with phaseC := some 0, hold := { Pin.low with hush := 9 } }, cycle := 8 }
     s.plt.phaseC.isSome = true ∧ s.cycle < s.plt.hold.hush) ∧
    (dev [(Reg.pltMask, 0x2A)]).since Reg.pltMask = 0 ∧
    (∀ e ∈ [(PinIn.hold, Reg.pltFilt1), (.leak, Reg.pltFilt3), (.flow, Reg.pltFilt5)], ∀ c ∈ [1249999, 1250001],
      let high : Pin := { Pin.low with raw := true, level := true }
      let s := { dev [(e.2, 0x10000), (Reg.pwrValve, 5)] with
        plt := { Plt.reset with reading := true, hold := high, leak := high }
        cycle := c }
      s.plt.reading = true ∧ pinFilt e.1 = e.2 ∧ s.rf (pinFilt e.1) 16 16 ≠ 0 ∧ s.stuck e.1 = decide (c = 1250001) ∧
      s.rbit Reg.pltMask (pinBit e.1) = false) := by
  decide +kernel

/-- Temperatures at each trip and just short of it; an unmasked leak; a Curator that runs. -/
theorem witness_TripsAndGuard :
    up.cur.regOn = true ∧ up.cur.guard = false ∧ (dev [rdy]).curReady = true ∧ (dev [rdy]).cur.regOn = true ∧
    (dev [rdy]).cur.guard = false ∧ up.cur.hot110 = 0 ∧ up.cur.hot105 < 10000 ∧
    (let s := { up with cur := { up.cur with hot105 := 10000, hot98 := up.cur.hot98.set 7 100 } }
     10000 ≤ s.cur.hot105 ∧ 100 ≤ s.cur.hot98[7] ∧ s.cur.regOn = true) ∧
    (let s := { up with plt := { Plt.reset with phaseC := some 0, reading := true } }
     s.plt.phaseC.isSome = true ∧ s.plt.leak.hush ≤ s.cycle ∧ s.plt.reading = true ∧ s.rbit Reg.pltMask 3 = false ∧
     s.plt.leaked = false) := by
  decide +kernel

/-- A masked FLOW input; a ladder above and at its floor after 100 quiet samples; a stack that has cooled; an automatic and
a manual valve. -/
theorem witness_PowerAndThermalLoops :
    (let s := dev [rdy, (Reg.pltMask, 32)]
     s.curReady = true ∧ s.rbit Reg.pltMask 5 = true ∧ s.cur.smp.leak = false ∧ s.plt.leak.level = false) ∧
    (let s (l q : Nat) := { dev [rdy, (Reg.pwrStatus, word (6 + l * 8)), (Reg.pwrLadderMin, 2)] with
       cur := { up.cur with quiet := q } }
     (s 3 100).curReady = true ∧ 100 ≤ (s 3 100).cur.quiet ∧ (s 3 100).cur.hotHold = false ∧ (s 3 100).cur.guard = false ∧
     (s 3 100).rf Reg.pwrLadderMin 0 3 < (s 3 100).ladder ∧ (s 3 99).cur.quiet < 100 ∧
     (s 2 100).ladder ≤ (s 2 100).rf Reg.pwrLadderMin 0 3) ∧
    (let s := { up with cur := { up.cur with cool := up.cur.cool.set 7 100, throttle := up.cur.throttle.set 7 1 } }
     100 ≤ s.cur.cool[7] ∧ stackLevel (nth s.cur.smp.tMem 7 0).toNat < s.cur.throttle[7]) ∧
    ((dev [rdy]).rbit Reg.pwrValve 8 = false ∧ (dev [rdy]).cur.guard = false ∧ (dev [rdy]).plt.leaked = false ∧ (dev [rdy, (Reg.pwrValve, 256)]).rbit Reg.pwrValve 8 = true) := by
  decide +kernel



/-- Port 0 of an endpoint or fabric station, admitted and locked. -/
def linkDev (role : Word) (x : Prt) (r : List (Nat × Word)) : State :=
  withPort { x with acc := .admitted, locked := true } ([(Reg.stnRole 0, role), (Reg.prtMacLo 0, 0), (Reg.prtMacHi 0, 0),
    (Reg.prtEtype 0, 0x9999), (Reg.crsItin 0 0, 0x1000 + 1)] ++ r)

/-- A header-only frame of a class in a VOQ of station 0 for a landing. -/
def vf (c : TClass) (l : Landing) (credit : Bool) : VoqFrame :=
  ⟨0, c, 0, l, ⟨c, 0, false, 0, .none, some bare.th, []⟩, .none, 0, credit, none, [], false, false, false, none⟩

/-- The same with a payload. -/
def vfData (c : TClass) (l : Landing) : VoqFrame := { vf c l false with wire := ⟨c, 0, false, 0, .none, some thOne, [0]⟩ }

/-- The device with role FABRIC at station 0, which holds frames in its VOQs. -/
def voqDev (x : Stn) (l : List VoqFrame) (r : List (Nat × Word)) : State :=
  withRegs { x with voq := l } ((Reg.stnRole 0, 1) :: r)

/-- The turn of the sources for a landing: station 0 only; a frame for a queue with no payload, with a reply reservation,
with a block; a full queue, a halted station, a station of no role; a port with credit and without, a group's member, the
Curator. -/
theorem witness_LandingCredits :
    (∀ l ∈ [Landing.queue 0 3, .port 0, .group 0, .curator], ∀ c ∈ [(0 : TClass), 1, 4],
      let s := voqDev stnUp0 [vf c l false] []
      (List.range 64).filter (fun k => ((s.st (stnId k)).requester l c).isSome) = [0] ∧ s.xbar.landSrc = [] ∧
      (s.st 0).requester l c = some (vf c l false)) ∧
    ((List.range 64).filter (fun k => ((up.st (stnId k)).requester (.port 0) 0).isSome) = []) ∧
    (let s := voqDev stnUp0 [vf 0 (.queue 0 3) false] []
     s.offStation 0 = false ∧ (s.st 0).st ≠ .halted ∧ (s.st 0).landMayPush s.ht 3 = true ∧ (vf 0 (.queue 0 3) false).wire.hdrOnly = true) ∧
    (let f := vfData 1 (.queue 0 3)
     let s := voqDev { stnUp0 with resv := [(0, 2)] } [f] []
     (s.st 0).requester (.queue 0 3) 1 = some f ∧ f.wire.hdrOnly = false ∧ f.tc = 1 ∧ (s.st 0).resv = [(0, 2)] ∧
     ((voqDev stnUp0 [vfData 0 (.queue 0 3)] []).allocTile 0 .landing 0).isSome = true) ∧
    (let s := voqDev { stnUp0 with q := stnUp0.q.set 3 (List.replicate 8 ⟨bare, .ready⟩) } [vf 0 (.queue 0 3) false] []
     (s.st 0).landMayPush s.ht 3 = false ∧ s.offStation 0 = false ∧
     (setRegs s [(Reg.stnRole 0, 0)]).offStation 0 = true ∧ (voqDev { stnUp0 with st := .halted } [] []).offStation 0 = false) ∧
    (∀ l ∈ [Landing.port 0, .group 0],
      let s (n : Nat) := { voqDev stnUp0 [vf 0 l false] [(Reg.crsMcg 0 0, 1)] with
        prt := up.prt.set 0 { Prt.reset with acc := .admitted, crHdr := Prt.reset.crHdr.set 0 n } }
      (s 1).linkCredit 0 (vf 0 l false).wire = true ∧ (s 1).portBad ((s 1).orTwin 0) = false ∧
      (s 0).linkCredit 0 (vf 0 l false).wire = false ∧
      (l = .group 0 → ((s 1).takeLinks (vf 0 l false).wire ((s 1).livePorts l)).isSome = true ∧
        ((s 0).takeLinks (vf 0 l false).wire ((s 0).livePorts l)).isNone = true)) ∧
    ((voqDev stnUp0 [vf 0 .curator false] []).alloc 0 .wicket 0 (vf 0 .curator false).wire.len).isSome = true := by
  exact ⟨by decide +kernel, by decide +kernel, by decide +kernel, by decide +kernel, by decide +kernel, by decide +kernel,
    by decide +kernel⟩

/-- A ready frame alone in the device, two classes and two sources for one output, and a device whose frames hold no credit. -/
theorem witness_CrossingGrants :
    (let f := vf 0 (.queue 0 3) true
     let s := voqDev stnUp0 [f] [step_ 1 0]
     s.xbar.xfers = [] ∧ (s.st 0).voq = [f] ∧ (∀ m, m ≠ 0 → (s.st m).voq = []) ∧ s.ready 0 f = true ∧ f.hold = .none ∧
     (∀ n, ∀ g ∈ (s.st n).voq, (s.st n).ingLost g.hold (32 + g.wire.data.length) = false) ∧
     f.land ≠ .curator ∧ s.mirrored 0 f = false) ∧
    (let mgt := { vf 4 (.queue 0 3) true with id := 1 }
     let s0 := voqDev stnUp0 [vf 0 (.queue 0 3) true, mgt] [step_ 1 0]
     let s := { s0 with stn := s0.stn.set 1 { stnUp0 with voq := [{ vf 0 (.queue 0 3) true with id := 2 }] } }
     s.outputFree 0 = true ∧ (s.readyFor 0).any (fun e => e.2.tc == 4 && e.1 == 0) = true ∧
     (s.readyFor 0).any (fun e => e.2.tc == 0 && e.1 == 1) = true ∧ (∀ n, ∀ g ∈ (s.st n).voq, g.hold = .none)) ∧
    (let s := voqDev stnUp0 [vf 0 (.queue 0 3) false] []
     ∀ n, ∀ f ∈ (s.st n).voq, f.credit = false) := by
  decide +kernel

/-- A transfer that has landed, for each landing and each hold, and one to a port whose first bytes have; a port that is down,
of which a twin stands in; a sweep's tick and another, with a frame that waits at a port; a reservation at its limit and before it. -/
theorem witness_CrossingDeliversAndAgeing :
    (∀ l ∈ [Landing.queue 0 3, .port 0, .group 0, .curator], ∀ n ∈ [511, 512], ∀ c ∈ [9, 10],
      ∀ h ∈ [Hold.none, .vitrine 2, .ingress 0 true 0 none, .ingress 0 false 0 (some 5)],
      let f := { vf 0 l true with landBlk := some 1, hold := h }
      let x : Xfer := ⟨1, f, 5, 9, false⟩
      let s := { withRegs { stnUp0 with q := stnUp0.q.set 3 [⟨bare, .frame 0⟩] } [(Reg.stnRole 0, 1), (Reg.crsMcg 0 0, 1), (Reg.prtStatus 0, 2)] with
        xbar := { Xbar.reset with xfers := [x] }, cycle := c
        prt := up.prt.set 0 { Prt.reset with acc := .admitted }
        cur := { up.cur with rx := List.replicate n f.wire } }
      s.xbar.xfers.find? (fun y => y.fr.dst == 0 && !y.out && decide (y.due ≤ s.cycle)) = some x ∧ (x.lands < s.cycle ↔ c = 10) ∧
      s.rbit Reg.crsTalCtrl 0 = false ∧ f.landBlk = some 1 ∧
      (s.st 0).q[(3 : Nat)].any (fun e => e.fill == .frame f.id) = true ∧ s.members 0 = [0] ∧ s.portBad 0 = false ∧
      s.portBad 1 = true ∧ s.orTwin 1 = 0 ∧ s.cur.rx.length = n) ∧
    (let w := (vf 0 (.port 0) true).wire
     let f := { vf 0 (.port 0) true with aside := true, wire := { w with th := some thOne, data := zeros 480 } }
     let x : Xfer := ⟨1, f, 5, 19, false⟩
     let s := { withRegs stnUp0 [(Reg.stnRole 0, 1)] with xbar := { Xbar.reset with xfers := [x] }, cycle := 18 }
     s.xbar.xfers.find? (fun y => y.fr.dst == 0 && !y.out && decide (y.due ≤ s.cycle)) = some x ∧ ¬ x.lands ≤ s.cycle) ∧
    (let s := atTick 4096 (voqDev stnUp0 [vf 0 (.queue 0 3) true] [(Reg.crsAgeLimit, 1250)])
     s.atMultiple 4096 = true ∧ (∀ n, ∀ f ∈ (s.st n).voq, ∀ g ∈ (s.st n).voq, f.id = g.id → f = g) ∧
     (atTick 4097 s).atMultiple 4096 = false) ∧
    (let s := atTick 4096 (linkDev 1 { Prt.reset with egress := [⟨(vf 0 (.port 0) true).wire, false, none, 0⟩] } [(Reg.crsAgeLimit, 1250)])
     s.atMultiple 4096 = true ∧ (s.pt 0).egress.any (fun e => decide (1250 < s.ht.toNat - e.entry.toNat)) = true) ∧
    (let s (ht : Nat) := atTick ht (voqDev { stnUp0 with resv := [(0, 1)] } [] [(Reg.crsAgeLimit, 1250)])
     ((s 2500).st 0).resv = [(0, 1)] ∧
     2 * clamp 1250 81250000 ((s 2500).rf Reg.crsAgeLimit 0 27) ≤ (s 2500).ht.toNat - (0 : DWord).toNat ∧
     (s 2499).ht.toNat - (0 : DWord).toNat < 2 * clamp 1250 81250000 ((s 2499).rf Reg.crsAgeLimit 0 27)) := by
  exact ⟨by decide +kernel, by decide +kernel, by decide +kernel, by decide +kernel, by decide +kernel⟩

/-- A Carade frame of one header-only tile in an Ethernet frame with LSEQ `q`. -/
def etherFrame (dst q : Nat) : List Byte :=
  sealed (zeros 5 ++ [BitVec.ofNat 8 dst] ++ zeros 6 ++ [0x99, 0x99] ++ toLE 4 0 ++ toLE 4 q ++ toLE 4 32 ++ zeros 4 ++ bare.th.bytes)

/-- A frame of the LLDP agent, addressed to the port. -/
def agentFrame : List Byte := sealed (zeros 12 ++ [0x88, 0xCC] ++ zeros 50)

/-- A fabric cell with a header and a payload. -/
def cellOf (h : Nat) (b : List Byte) : List Byte := sealed (toLE 4 (h + b.length * 256) ++ b ++ zeros (240 - b.length))

/-- Frames in and out of order, for another address, with a bad check, for the LLDP agent; cells in each place of a frame,
and control cells with each record. -/
theorem witness_FramesAndCells :
    (let x := { Prt.reset with hasHdr := Vector.replicate 6 1 }
     let s := linkDev 2 x []
     let e (q : Nat) := etherOf ((etherFrame 0 q).take ((etherFrame 0 q).length - 4))
     let c := chOf (e 0).rest
     let w := wireOf { c with esc := 0, mc := false } (s.etherClass 0 (e 0) c) s.rank (((e 0).rest.drop 16).take c.len)
     s.bundle = 0 ∧ s.isEndpoint 0 = true ∧ (s.pt 0).locked = true ∧ (s.pt 0).acc = .admitted ∧
     4 ≤ (etherFrame 0 0).length ∧ (etherFrame 0 0).length ≤ 4454 ∧ crcGood (etherFrame 0 0) = true ∧
     s.badTag 0 (e 0) = false ∧ groupAddr (e 0).type (e 0).dst = false ∧ (e 0).dst = s.macOf 0 ∧
     (e 0).type = s.rf (Reg.prtEtype 0) 0 16 ∧ c.control = false ∧ c.lseq = (s.pt 0).rxSeq ∧ (s.pt 0).early = [] ∧
     w.th = some bare.th ∧ w.xh = .none ∧ w.good = true ∧ bare.th.tagKind = 0 ∧
     w.hdrOnly = true ∧ 0 < (s.pt (s.credPort 0)).hasHdr[(poolOf w.tc w.esc).val] ∧
     (let hop := s.hopWord (bare.th.clean.setHop 0).itin 0
      hopKind hop = 1 ∧ hopTarget hop = (0 : StnId).val ∧ hopQueue hop = (0 : Fin 4)) ∧
     crcGood (etherFrame 0 1) = true ∧ (chOf (e 1).rest).lseq ≠ (s.pt 0).rxSeq ∧ (s.pt 0).nakOut = false) ∧
    (let s := linkDev 2 Prt.reset []
     crcGood (etherFrame 9 0) = true ∧
     (let e := etherOf ((etherFrame 9 0).take ((etherFrame 9 0).length - 4))
      groupAddr e.type e.dst = false ∧ e.dst ≠ s.macOf 0) ∧ crcGood ((etherFrame 0 0).set 20 1) = false ∧
      ((etherFrame 0 0).set 20 1).length ≤ 4454 ∧
      crcGood agentFrame = true ∧ agentFrame.length ≤ 4454 ∧
      (let e := etherOf (agentFrame.take (agentFrame.length - 4))
       s.badTag 0 e = false ∧ e.type = 0x88CC ∧ e.dst = s.macOf 0)) ∧
    (let s (b : List Byte) := linkDev 1 { Prt.reset with cellBuf := b } []
     (s []).bundle = 0 ∧ (s []).isFabric 0 = true ∧ ((s []).pt 0).locked = true ∧
     (∀ h ∈ [1, 2, 5], (cellOf h (zeros 48)).length = 248 ∧ crcGood (cellOf h (zeros 48)) = true ∧
       fld (word (leAt (cellOf h (zeros 48)) 0 4)) 0 2 = h % 4 ∧ bitOf (word (leAt (cellOf h (zeros 48)) 0 4)) 2 = decide (h = 5)) ∧
     ((s []).pt 0).cellBuf = [] ∧ ((s [1]).pt 0).cellBuf ≠ [] ∧ ((s []).pt 0).nakOut = false ∧
     (∀ q ∈ [0, 1],
       let body := toLE 4 0 ++ toLE 4 q ++ zeros 40
       let cell := cellOf 5 body
       crcGood cell = true ∧ ((cell.drop 4).take (min 240 (fld (word (leAt cell 0 4)) 8 8))) = body ∧
       (chOf body).control = false ∧ ((chOf body).lseq = ((s []).pt 0).rxSeq ↔ q = 0) ∧ ((s []).pt 0).acc = .admitted ∧
       ((s []).pt 0).early = []) ∧
     (∀ k ∈ [0, 1, 3, 7],
       let cell := cellOf 0 (zeros 16 ++ [BitVec.ofNat 8 k] ++ zeros 31)
       let body := (cell.drop 4).take (min 240 (fld (word (leAt cell 0 4)) 8 8))
       cell.length = 248 ∧ crcGood cell = true ∧ fld (word (leAt cell 0 4)) 0 2 = 0 ∧ body.length = 48 ∧
       leAt ((body.drop 16).take 32) 0 1 % 16 = k) ∧
     crcGood ((cellOf 1 (zeros 48)).set 9 1) = false ∧ ((cellOf 1 (zeros 48)).set 9 1).length = 248) ∧
    (∀ ht ∈ [255, 256],
      let s := atTick ht (linkDev 1 { Prt.reset with gapAt := some 0 } [])
      (s.pt 0).gapAt = some 0 ∧ s.ht.toNat = ht ∧ (s.pt 0).nakOut = false) := by
  exact ⟨by decide +kernel, by decide +kernel, by decide +kernel, by decide +kernel⟩

/-- Frames kept for replay with a count below and at four; an ACK that is due; an identity of the link's rank and of another;
a gate boundary. -/
theorem witness_LinkRecords :
    (let s := linkDev 1 { Prt.reset with ackDue := true, lastAcc := some 7 } []
     (s.pt 0).ackDue = true ∧ (s.pt 0).lastAcc = some 7 ∧ ∀ hdr i, s.creditNow 0 hdr i = 0) ∧
    (∀ n ∈ [3, 4],
      let w := (vf 0 (.port 0) true).wire
      let s := linkDev 1 { Prt.reset with replay := [(1, w), (2, w), (3, w)], replays := [(2, n)] } []
      (s.pt 0).locked = true ∧ (s.pt 0).replay = [(1, w)] ++ (2, w) :: [(3, w)] ∧ (∀ e ∈ [((1 : BitVec 16), w)], e.1 ≠ 2) ∧
      Cells.get zeroNat (s.pt 0).replays 2 = n ∧ (∀ e ∈ (s.pt 0).replay, e.1 ≠ 9) ∧ (s.pt 0).acc = .admitted) ∧
    ((withPort { Prt.reset with acc := .refused, locked := true } []).pt 0).acc ≠ .admitted ∧
    (let s := withPort { Prt.reset with acc := .discovered, locked := true } [(Reg.stnRole 0, 1), rdy, (Reg.accCtrl, 1), (Reg.crsRowLink 0, 0)]
     s.isFabric 0 = true ∧ (s.pt 0).locked = true ∧ (s.pt 0).acc = .discovered ∧ s.curReady = true ∧
     s.rbit Reg.accCtrl 0 = true ∧ s.linkRank 0 = some (fld 0 0 9) ∧ s.linkRank 0 ≠ some (fld 1 0 9) ∧ s.leadsBack 0 0 = true ∧
     s.leadsBack 0 (word (63 * 2 ^ 9)) = false) ∧
    (let s := linkDev 1 Prt.reset []
     s.isFabric 0 = true ∧ (s.pt 0).acc = .admitted ∧ (s.pt 0).creditOn = false ∧ s.gateBoundary 0 = true) := by
  decide +kernel

/-- Ports in each state of a failure and its recovery: a twin of a failed port, a partner's epitaph, refused ports whose
identity agrees, differs and is missing. -/
theorem witness_LinkFailuresAndTwins :
    (∀ a ∈ [AccState.training, .failed],
      let s := withPort { Prt.reset with acc := a } [(Reg.stnRole 0, 1)]
      s.portMode 0 ≠ 0 ∧ (s.pt 0).acc = a ∧ s.cur.engOff[0]! = false ∧ s.isFabric 0 = true ∧ (s.pt (s.bundlePort 0)).locked = false) ∧
    (let s := linkDev 1 Prt.reset []
     s.bundlePort 0 = 0 ∧ (s.pt 0).locked = true ∧ (s.pt 0).acc = .admitted ∧ s.cat.queue.length < 4096) ∧
    (let f := { Prt.reset with acc := .failed, epitaph := true, epiAt := some 12500, ident := some (word (5 * 2 ^ 15), 0) }
     let s0 := linkDev 1 Prt.reset [(Reg.prtStatus 0, 3)]
     let s := atTick 12500 { s0 with prt := s0.prt.set 1 f }
     (s.pt 0).locked = true ∧ s.portOfPartner 0 5 = some 1 ∧ s.orTwin 1 = twinOf 1 ∧ (s.pt 1).acc = .failed ∧
     (s.pt 1).epitaph = true ∧ (s.pt 1).epiAt = some 12500 ∧ (12500 : DWord).toNat ≤ s.ht.toNat) ∧
    (let s0 := linkDev 1 Prt.reset []
     s0.bundle = 0 ∧ s0.portBad 1 = true ∧ twinOf 1 = 0 ∧ s0.portBad 0 = false ∧ s0.gateBoundary 0 = true ∧
     s0.rbit (Reg.prtStatus 0) 1 = false) ∧
    (∀ e ∈ [((0 : Nat), some true), (1, some false), (2, none)],
      let s := withPort { Prt.reset with acc := .refused, locked := true, ident := if e.1 = 2 then none else some (word e.1, 0) }
        [(Reg.stnRole 0, 1), rdy, (Reg.accCtrl, 1), (Reg.crsRowLink 0, 0)]
      s.curReady = true ∧ s.rbit Reg.accCtrl 0 = true ∧ (s.pt 0).acc = .refused ∧ (s.pt 0).locked = true ∧ s.matches_ 0 = e.2) := by
  exact ⟨by decide +kernel, by decide +kernel, by decide +kernel, by decide +kernel, by decide +kernel⟩

/-- An endpoint port with class bit 5 open and closed; a message of the domain; a discovered partner; a neighbour at the end
of its time and before it. -/
theorem witness_AgentsOfPorts :
    (let s (r : List (Nat × Word)) := linkDev 2 Prt.reset (rdy :: r)
     (s []).curReady = true ∧ ((s []).pt 0).locked = true ∧ (s []).isEther 0 = true ∧ (s []).isEndpoint 0 = true ∧
     (s []).isOpen 0 5 = true ∧ (s [(Reg.prtGateLen 0, 1), (Reg.prtGateA 0 0, 100)]).isOpen 0 5 = false ∧
     (BitVec.ofNat 8 ((s []).rf Reg.accPtp 0 8)).toNat = (s []).rf Reg.accPtp 0 8) ∧
    (let s := withPort { Prt.reset with acc := .discovered, locked := true } [(Reg.stnRole 0, 2), rdy, (Reg.accCtrl, 1)]
     s.curReady = true ∧ (s.pt 0).locked = true ∧ s.isEther 0 = true ∧ (s.pt 0).acc = .discovered ∧ s.rbit Reg.accCtrl 0 = true) ∧
    (∀ ht ∈ [8, 9],
      let nb : Neighbour := ⟨⟨0, 1, true, 1, 0⟩, 9⟩
      let s := atTick ht (linkDev 2 { Prt.reset with nbr := some nb } [rdy])
      s.curReady = true ∧ (s.pt 0).locked = true ∧ (s.pt 0).nbr = some nb ∧ s.isEther 0 = true ∧ (s.pt 0).acc = .admitted ∧
      (nb.until_.toNat ≤ s.ht.toNat ↔ ht = 9)) := by
  exact ⟨by decide +kernel, by decide +kernel, by decide +kernel⟩

/-- A frame that may start, paid and unpaid, and one whose class does not move, whose port is busy, without credit; the
last tick of a slot and another; a ring with room and a full one. -/
theorem witness_FrameStartsSlipsAndTelemetry :
    (let w := (vf 0 (.port 0) true).wire
     let s (n st : Nat) (until_ : Nat) := linkDev 1 { Prt.reset with
       egress := [⟨w, false, none, 0⟩], crHdr := Prt.reset.crHdr.set 0 n, txUntil := until_ } [step_ st 0]
     ((s 1 1 0).pt 0).egress = [] ++ ⟨w, false, none, 0⟩ :: [] ∧ w.tc = 0 ∧ (s 1 1 0).pastBoundary 0 none = true ∧
     (s 1 1 0).pastBoundary 0 (some 0) = false ∧ (s 1 1 0).classMoves 0 = true ∧
     (s 1 1 0).linkCredit 0 w = true ∧ (s 1 1 0).canStart 0 w = true ∧ (s 1 0 0).classMoves 0 = false ∧
     (s 1 1 9).canStart 0 w = false ∧ (s 0 1 0).linkCredit 0 w = false) ∧
    (let s := atTick 1 (linkDev 1 Prt.reset [(Reg.prtGateLen 0, 2), (Reg.prtGateA 0 0, 0x01000001), (Reg.prtGateA 0 1, 100)])
     s.slotEnds 0 0 = true ∧ s.slotEnds 0 1 = false) ∧
    (∀ h ∈ [1, 2],
      let s := { atTick 256 (dev [(Reg.crsTelCtrl, 32), (Reg.crsTelRingSize, 2), (Reg.prtTel 0, 1)]) with dram := [(0, BitVec.ofNat 8 h)] }
      s.rbit Reg.crsTelCtrl 5 = true ∧ s.atMultiple (2 ^ clamp 8 24 (s.rf Reg.crsTelCtrl 0 5)) = true ∧
      allPorts.filter (fun q => s.rbit (Reg.prtTel q.val) 0) = [0] ∧ s.rf Reg.crsTelRingSize 0 24 = 2 ∧
      ofLE (Cells.read zeroByte s.dram 0 4) = h ∧ ofLE (Cells.read zeroByte s.dram 4 4) = 0 ∧ dramClean s 0 8 ∧ dramClean s (64 + 1 * 64) 64 ∧ ∀ k, (s.sk k).locks = []) := by
  unfold dramClean
  exact ⟨by decide +kernel, by decide +kernel, by decide +kernel⟩

/-- A bucket header of endpoint slot 0: bucket 5 of step 0, FP32, 1,024 tiles. -/
def bkHead : List Word := [0x10004, 0, 5, 100, 1024, 0, 0, 0]

/-- An endpoint at port 0 that serves slot 0, in the open step, with station 0 reducing. -/
def redDev (b : List (Nat × Bucket)) (r : List (Nat × Word)) : State :=
  { linkDev 2 Prt.reset ([step_ 1 0, (Reg.crsRedEpstn 0, 0x80808000), (Reg.crsRedGroup 0, 1), (Reg.crsRedRstnLo, 1)] ++ r) with
    buckets := b, stn := up.stn.set 0 stnUp0 }

/-- Bucket 5 with one member, its tiles held as given, and T tiles. -/
def bucket5 (t : Nat) (own data : Cells BTile) : Bucket :=
  { up.newBucket bkHead with
    st := .members, m := some 0, settled := true, entryCnt := 1, tiles := t, own := own, contrs := [⟨0, t, data, false, false⟩] }

/-- A tile of zeros held in a block. -/
def bt (b : Nat) : BTile := ⟨some b, none, false, false⟩

/-- A header of the open step with one slot expected and with two, one of another step, a malformed one, one behind another
running tag, one whose settings differ, a second one. -/
theorem witness_BucketHeaders :
    (∀ g ∈ [1, 3],
      let s := redDev [] [(Reg.crsRedGroup 0, word g), (Reg.htStepCloseLo, 0xFFFFFFFF)]
      (s.pt 0).acc = .admitted ∧ s.isEndpoint 0 = true ∧ s.redWait = [] ∧ s.slotOf (stnOf 0) = some 0 ∧
      s.bhMalformed (some 0) bkHead = false ∧ bhStep bkHead = s.stepCur ∧ bhBucket bkHead % 4096 = 5 ∧ (s.bkt 5).isNone = true ∧
      s.stepState = 1 ∧ s.ht.toNat < (s.rg64 Reg.htStepCloseLo).toNat ∧ s.redDisc = [] ∧
      s.ht.toNat < (s.ht + dword (bhDeadline bkHead)).toNat ∧
      (s.expects (bhGroup bkHead) 1 = true ↔ g = 3)) ∧
    (let s := redDev [] [(Reg.htStepCur, 1)]
     s.bhMalformed (s.slotOf (stnOf 0)) bkHead = false ∧ bhStep bkHead ≠ s.stepCur) ∧
    (let s := redDev [] []
     s.bhMalformed (s.slotOf (stnOf 0)) (bkHead.set 4 1023) = true ∧ (s.bkt 5).isNone = true) ∧
    (let b := { bucket5 1024 [] [] with bucket := 4096 + 5 }
     let s := redDev [(5, b)] []
     s.bkt 5 = some b ∧ b.bucket % 4096 = 5 ∧ b.running = true ∧ b.isTag (bhStep bkHead) (bhBucket bkHead) = false ∧
     b.collide = false) ∧
    (let e := { bucket5 1024 [] [] with contrs := [⟨1, 1024, [], false, false⟩] }
     let s := redDev [(5, e)] []
     let h := bkHead.set 3 99
     s.slotOf (stnOf 0) = some 0 ∧ s.bhMalformed (some 0) h = false ∧ s.bkt 5 = some e ∧ e.bucket % 4096 = 5 ∧ e.running = true ∧
     e.st ≠ .open_ ∧ e.isTag (bhStep h) (bhBucket h) = true ∧ e.contrs.any (fun c => c.slot = 0) = false ∧ e.agrees h = false ∧
     0 ∉ e.disc) ∧
    (let e := bucket5 1024 [] []
     let s := redDev [(5, e)] []
     s.bkt 5 = some e ∧ e.isTag (bhStep bkHead) (bhBucket bkHead) = true ∧ e.contrs.any (fun c => c.slot = 0) = true ∧
     e.gone 0 = false) := by
  exact ⟨by decide +kernel, by decide +kernel, by decide +kernel, by decide +kernel, by decide +kernel, by decide +kernel⟩

/-- The header of tile `k` of bucket 5 from its endpoint. -/
def redTh (k : Nat) : TH :=
  { (((⟨TH.shape 0 0 16 64 16, word (2 ^ 4), word k, 0, 5, 0, 0x7F, 0⟩ : TH).setContrib 1).setNf false) with w7 := 0 }

/-- The last tile of the bucket, with a block and with a place of the staging region, one that is held already, one of a
station that serves no slot. -/
theorem witness_BucketTiles :
    (redTh 1023).ok = true ∧ (redTh 1023).frameLen = 32 + 4096 ∧ (redTh 1023).tagKind = 1 ∧
    (TH.ofBytes (redTh 1023).bytes) = redTh 1023 ∧
    (let b := bucket5 1024 [] []
     let s := redDev [(5, b)] []
     let th := (redTh 1023).clean
     th.tag.toNat % 2 ^ 20 = 5 ∧ th.seq.toNat = 1023 ∧ s.slotOf (stnOf 0) = some 0 ∧ s.bkt 5 = some b ∧
     b.isTag th.step 5 = true ∧ b.running = true ∧ b.disc = [] ∧ b.contrs.find? (fun c => c.slot = 0) = some ⟨0, 1024, [], false, false⟩ ∧
     b.tileOk th 1 = true ∧ 256 * b.entryCh ≤ 1023 ∧ b.nfpol = false ∧ s.redStn 1023 = some 0 ∧
     (s.st 0).lay.tilePool = some 2 ∧ 2 < (s.st 0).used.length ∧ 2 ∉ (s.st 0).cyc.given ∧
     (s.st 0).outranked s.ht 2 .wicket (tileKey b.bucket 1023 0) = false ∧ (s.st 0).lowestFree 2 = some 0 ∧ s.redWait = [] ∧
     (s.pt 0).acc = .admitted ∧ s.isEndpoint 0 = true ∧ b.hasTile ⟨0, 1024, [], false, false⟩ 1023 = false ∧
     ({ stnUp0 with used := [[], [], [0, 1, 2, 3], [], []] } : Stn).lowestFree 2 = none) ∧
    (let s := redDev [(5, { bucket5 1024 [] [] with nfpol := true })] [(Reg.crsRedStageSize, 2)]
     firstBelow (16 * s.rf Reg.crsRedStageSize 0 16) (fun x => !s.stgUsed.contains x) = some 0) ∧
    ((bucket5 1024 [] [(1023, bt 0)]).hasTile ⟨0, 1024, [(1023, bt 0)], false, false⟩ 1023 = true) ∧
    (∀ l ∈ [[], [(⟨0, 0, 5, false⟩ : RedStream)]], ({ up with redDisc := l } : State).redBad 0 0 5 = false) ∧
    (redDev [] [(Reg.crsRedEpstn 0, 0x80808080), (Reg.crsRedEpstn 1, 0x80808080), (Reg.crsRedEpstn 2, 0x80808080),
      (Reg.crsRedEpstn 3, 0x80808080)]).slotOf (stnOf 0) = none := by
  exact ⟨by decide +kernel, by decide +kernel, by decide +kernel, by decide +kernel, by decide +kernel, by decide +kernel,
    by decide +kernel, by decide +kernel, by decide +kernel⟩

/-- An open entry at its deadline and before it, an EXCLUDE entry whose members are complete, a running entry of the step
and one that is done. -/
theorem witness_BucketMembership :
    (∀ ht ∈ [99, 100],
      let e := { bucket5 1 [] [] with st := .open_, m := none, settled := false }
      let s := atTick ht (redDev [(5, e)] [])
      s.bkt 5 = some e ∧ e.bucket % 4096 = 5 ∧ e.st = .open_ ∧ e.m = none ∧ (e.deadline.toNat ≤ s.ht.toNat ↔ ht = 100)) ∧
    (let e := { bucket5 1 [] [(0, bt 0)] with nfpol := true, settled := false }
     let s := redDev [(5, e)] []
     s.bkt 5 = some e ∧ e.nfpol = true ∧ e.st = .members ∧ e.settled = false ∧ e.contrs.all Contr.complete = true ∧ s.redWait = []) ∧
    (let e := bucket5 1 [] []
     let s := redDev [(5, e)] []
     s.bkt 5 = some e ∧ e.running = true ∧ e.isTag s.stepCur (fld 5 0 20) = true ∧ fld 5 0 20 % 4096 = 5 ∧
     ({ e with st := .done } : Bucket).running = false) := by
  exact ⟨by decide +kernel, by decide +kernel, by decide +kernel⟩

/-- A fabric device of rank 0 in a row of two, with station 0 reducing. -/
def rowDev (b : List (Nat × Bucket)) : State :=
  let s := setRegs { up with prt := up.prt.set 0 { Prt.reset with acc := .admitted, locked := true } }
    [(Reg.stnRole 0, 1), (Reg.crsRowLink 1, 0), (Reg.crsRedRstnLo, 1), step_ 1 0]
  { s with buckets := b, stn := up.stn.set 0 stnUp0, img := { Img.reset with g := 1, p := 2 } }

/-- The header of the partner's stream of round 0, with its first word as given. -/
def fabHead (w0 : Word) : List Word := (bkHead.set 0 w0).set 5 0x14001

/-- A partner's header, a stray one, one of a finished entry, one of an entry that has none, has one and has a SIZE header, whose
settings agree and differ. -/
theorem witness_DeviceHeaders :
    (let s := rowDev []
     (s.pt 0).acc = .admitted ∧ s.isEndpoint 0 = false ∧ s.isFabric 0 = true ∧ s.redWait = [] ∧
     bhStage (fabHead 0x10004) = 1 ∧ 0 ∈ s.rounds ∧ bhSender (fabHead 0x10004) = s.rank ^^^ 2 ^ 0 ∧
     bhSenderKind (fabHead 0x10004) = 1 ∧ bhKind (fabHead 0x10004) = 0 ∧ bhWfmt (fabHead 0x10004) ≠ 3 ∧
     bhStep (fabHead 0x10004) = s.stepCur ∧ bhSender ((fabHead 0x10004).set 5 0x14002) ≠ s.rank ^^^ 2 ^ 0) ∧
    (let e := { bucket5 1024 [] [] with st := .done }
     (rowDev [(5, e)]).bkt 5 = some e ∧ e.isTag 0 5 = true ∧ e.running = false) ∧
    (let e := bucket5 1024 [] []
     (rowDev [(5, e)]).bkt 5 = some e ∧ e.bucket % 4096 = 5 ∧ e.running = true ∧ e.st ≠ .open_ ∧ e.fabs = [] ∧ e.sizes = [] ∧
     e.agrees (fabHead 0x10004) = true ∧ e.agrees (fabHead 0x10014) = false ∧ bhKind (fabHead 0x10006) = 2 ∧
     ({ e with fabs := [⟨0, 1, 1, 1024, []⟩] } : Bucket).fabs.any (fun f => f.round = 0) = true ∧
     ({ e with sizes := [(0, 1, 7)] } : Bucket).sizes.any (fun x => x.1 = 0) = true) := by
  exact ⟨by decide +kernel, by decide +kernel, by decide +kernel⟩

/-- Tiles of the partner's stream: kept, held already, of a stream taken as ABSENT, beyond T, of a finished entry. -/
theorem witness_DeviceTiles :
    (let th : TH := { redTh 511 with w5 := 0x4001 }
     th.ok = true ∧ th.tagKind = 1 ∧ TH.ofBytes th.bytes = th ∧ fld th.clean.w5 14 2 = 1 ∧ th.clean.origin = 1 ∧
     th.clean.tag.toNat % 2 ^ 20 = 5 ∧ th.clean.seq.toNat = 511 ∧ th.clean.last = false) ∧
    (∀ c ∈ [0, 1], ∀ d ∈ [false, true],
      let f : FabStream := ⟨0, 1, c, 1024, if d then [(511, bt 0)] else []⟩
      let e := { bucket5 1024 [] [] with fabs := [f] }
      let s := rowDev [(5, e)]
      s.bkt 5 = some e ∧ e.bucket % 4096 = 5 ∧ e.isTag 0 5 = true ∧ e.fabs.find? (fun f => f.sender = 1) = some f ∧ e.running = true ∧
      f.count = c ∧ 511 < min 16384 f.tiles ∧ s.keeps (s.before (f.round + 1)) (511 / (min 16384 f.tiles / s.hallD)) = true ∧
      (Cells.look f.data 511).isSome = d ∧ Cells.get zeroNat e.roundCh f.round = 0 ∧ s.redStn 511 = some 0 ∧
      (s.allocTile 0 .wicket (tileKey e.bucket 511 16)).isSome = true) ∧
    (min 16384 (⟨0, 1, 1, 511, []⟩ : FabStream).tiles ≤ 511 ∧ ({ bucket5 1024 [] [] with st := .done } : Bucket).running = false) := by
  exact ⟨by decide +kernel, by decide +kernel, by decide +kernel⟩

/-- A dynamic bucket before and after its SIZE header has gone; a bucket whose only chunk has its tiles, and one that
misses one; a dynamic bucket with no tile of its own, at a station with no free block. -/
theorem witness_SizesAndEntryStage :
    (let e := { bucket5 1 [] [] with dyn := true }
     let s := rowDev [(5, e)]
     s.bkt 5 = some e ∧ e.dyn = true ∧ e.settled = true ∧ e.running = true ∧ (0 : Fin 9).val ∈ s.rounds ∧ e.sizeNext ≤ 0 ∧
     (∀ q ∈ s.rounds, q < 0 → q < e.sizeNext) ∧ e.sizeSent = [] ∧ (e.sizes.find? (fun y => y.1 = 0)).isNone = true ∧
     (s.routeOut (s.rank ^^^ 2 ^ 0) (s.rank + e.bucket) 3 0).isSome = true ∧
     (let e1 := { e with sizeSent := [0], sizes := [(0, 1, 7)] }
      (0 : Fin 9).val ∈ e1.sizeSent ∧ e1.sizes.find? (fun y => y.1 = 0) = some (0, 1, 7) ∧ e1.running = true)) ∧
    (∀ d ∈ [[(0, bt 0), (1, bt 1)], [(0, bt 0)]],
      let e := bucket5 2 [] d
      let s := rowDev [(5, e)]
      s.bkt 5 = some e ∧ e.running = true ∧ e.settled = true ∧ s.sized e = true ∧ e.entryCh = 0 ∧ 0 < s.chunks e ∧ s.redWait = [] ∧
      s.chunkTiles e 0 = [0, 1] ∧ e.entryDone 0 = false ∧ e.entryDone 1 = false ∧ (∀ k ∈ [0, 1], s.redStn k ≠ none) ∧
      ((∀ m ∈ e.present, ∀ k ∈ s.chunkTiles e 0, k < m.tiles → (Cells.look m.data k).isSome = true) ↔ d.length = 2)) ∧
    (let e := { bucket5 0 [] [] with dyn := true, hmax := 2, sizeNext := 9, contrs := [⟨0, 0, [], false, false⟩] }
     let s0 := rowDev [(5, e)]
     let s := { s0 with stn := s0.stn.set 0 { stnUp0 with used := [[], [], [0, 1, 2, 3], [], []] } }
     s.bkt 5 = some e ∧ e.running = true ∧ e.settled = true ∧ s.sized e = true ∧ 0 < s.chunks e ∧
     ((s.chunkTiles e 0).filter (fun k => !e.entryDone k)).head? = some 0 ∧ s.redStn 0 = some 0 ∧
     (∀ m ∈ e.present, Cells.look m.data 0 = none) ∧ (s.allocTile 0 .wicket (tileKey e.bucket 0 31)).isNone = true) ∧
    ∀ m ∈ (bucket5 1 [] []).present, m.slot < 16 := by
  exact ⟨by decide +kernel, by decide +kernel, by decide +kernel, by decide +kernel⟩

/-- A round before its header, with a tile to give away, with the partner's partials here; a bucket ready for delivery with
a count of 0 and of 1. -/
theorem witness_FabricRoundsAndDelivery :
    (∀ e ∈ [{ bucket5 1 [] [] with entryCh := 1 }, { bucket5 2 [(0, bt 0), (1, bt 1)] [] with entryCh := 1, bhSent := [0] },
        { bucket5 2 [(0, bt 0)] [] with entryCh := 1, bhSent := [0], sent := [(0, 2)], fabs := [⟨0, 1, 1, 2, [(0, bt 1)]⟩] }],
      let s := rowDev [(5, e)]
      s.bkt 5 = some e ∧ e.bucket % 4096 = 5 ∧ e.running = true ∧ e.settled = true ∧ s.sized e = true ∧ (0 : Fin 9).val ∈ s.rounds ∧
      s.stageBefore e 0 0 = true ∧ 0 = Cells.get zeroNat e.roundCh 0 ∧ 0 < s.chunks e ∧ s.redWait = [] ∧ 0 < s.cntBefore e 0 ∧
      (s.routeOut (s.rank ^^^ 2 ^ 0) (s.rank + e.bucket) 3 0).isSome = true ∧ s.redStn 1 = some 0) ∧
    (let gives (e : Bucket) := let s := rowDev [(5, e)]
       (s.chunkTiles e 0).filter (fun k => s.givesTile e 0 k && decide (Cells.get zeroNat e.sent 0 ≤ k))
     gives { bucket5 2 [(0, bt 0), (1, bt 1)] [] with entryCh := 1, bhSent := [0] } = [1] ∧
     gives { bucket5 2 [(0, bt 0)] [] with entryCh := 1, bhSent := [0], sent := [(0, 2)] } = []) ∧
    (∀ c ∈ [0, 1],
      let e := { bucket5 1 [(0, bt 0)] [] with entryCh := 1, entryCnt := c }
      let s0 := rowDev [(5, e)]
      let s := setRegs { s0 with img := { Img.reset with g := 1, p := 1 } } [(Reg.crsItin 0 0, 0x1001)]
      s.bkt 5 = some e ∧ e.running = true ∧ e.settled = true ∧ s.sized e = true ∧ s.redWait = [] ∧ e.excl = false ∧
      s.rounds = [] ∧ s.chunks e ≤ e.entryCh ∧ s.cntBefore e 9 = c ∧ hopKind (s.hopWord (e.outItin % 4096) 0) = 1 ∧
      s.bucketT e / s.hallD = 1 ∧ s.redStn (s.compact * 1 + 0) = some 0) := by
  exact ⟨by decide +kernel, by decide +kernel, by decide +kernel⟩

/-- A sitting header: KIND and DFMT, STEP, EXPERT, COUNT, TILES with SLICES, SENDER of a device. -/
def sitting (w0 step count w4 : Nat) : List Word := [word w0, word step, 0, word count, word w4, 0x4000, 0, 0]

/-- Headers that pass: a request for an expert of this device, a segment; a malformed one and a stray one. A Curator that
owes two steps' summaries, and one that owes none. -/
theorem witness_SittingsAndSummaries :
    (let s := linkDev 2 Prt.reset [(Reg.crsExpMap 0, 0x80000000)]
     (s.pt 0).acc = .admitted ∧ s.isEndpoint 0 = true ∧ s.shBad (sitting 0 0 1 0) = none ∧ shKind (sitting 0 0 1 0) = 0 ∧
     hopKind (s.hopWord (shItin (sitting 0 0 1 0)) 0) = 1 ∧ hopTarget (s.hopWord (shItin (sitting 0 0 1 0)) 0) = (0 : StnId).val ∧
     hopQueue (s.hopWord (shItin (sitting 0 0 1 0)) 0) = (0 : Fin 4) ∧
     shKind (sitting 5 0 1 0) = 5 ∧ s.shBad (sitting 5 0 1 0) = some .malformed ∧ s.shBad (sitting 0 1 1 0) = some .stray ∧
     s.shBad (sitting 0x102 0 1 0x10001) = none ∧ shKind (sitting 0x102 0 1 0x10001) = 2 ∧
     s.shBad (sitting 2 0 1 0x10001) = some .malformed ∧ shKind (sitting 2 0 1 0x10001) = 2 ∧
     s.shBad (sitting 2 1 1 0x10001) = some .stray) ∧
    (let s := { dev [rdy] with cur := { (dev [rdy]).cur with optDue := [0, 1], moeDue := [0], closed := some 0 } }
     s.curReady = true ∧ s.cur.optDue = 0 :: [1] ∧ s.cur.moeDue = 0 :: [] ∧ s.cur.closed ≠ none ∧
     dramClean s 4 24 ∧ (∀ n, n < 64 → dramClean s (n * 16 * 64) 64) ∧ (dev [rdy]).cur.closed = none ∧ (dev [rdy]).cur.optDue = [] ∧ (dev [rdy]).cur.moeDue = []) := by
  unfold dramClean
  exact ⟨by decide +kernel, by decide +kernel⟩

/-- One record of each verdict in the ring. -/
theorem witness_TallyDrain :
    ∀ v ∈ [1, 2],
      let s := { dev [rdy, (Reg.crsTalRingSize, 4)] with dram := [(0, 1), (96, BitVec.ofNat 8 v)] }
      s.curReady = true ∧ s.rf Reg.crsTalRingSize 0 16 = 4 ∧ (s.rg64 Reg.crsTalRingLo).toNat % 2 ^ 40 = 0 ∧
      ofLE (Cells.read zeroByte s.dram 0 4) = 0 + 1 ∧ ofLE (Cells.read zeroByte s.dram 4 4) = 0 ∧
      ofLE (Cells.read zeroByte s.dram 8 4) = s.cur.talSeen ∧ ofLE (Cells.read zeroByte s.dram (64 + 32) 4) = v ∧
      dramClean s 0 12 ∧ dramClean s 64 64 ∧ (∀ k, (s.sk k).locks = []) ∧ s.cat.queue.length < 4095 := by
  unfold dramClean; decide +kernel

/-- Hall time that stands still, that counts, and that slews in each direction. -/
theorem witness_EmptyQueueTicks :
    State.reset.pending = [] ∧ State.reset.counting = false ∧ up.pending = [] ∧ up.counting = true ∧ up.clk.slewBy = 0 ∧
    (∀ v ∈ [(1 : Int), -1],
      let s := { up with clk := { Clock.reset with slewBy := v, lastSlew := some 5 }, cycle := 1029 }
      s.pending = [] ∧ s.counting = true ∧ s.clk.slewBy = v ∧ ∀ c, s.clk.lastSlew = some c → c + 1024 ≤ s.cycle) := by
  refine ⟨by decide, by decide, by decide, by decide, by decide, ?_⟩
  intro v _
  exact ⟨rfl, rfl, rfl, fun c h => by cases h; exact (by decide : 5 + 1024 ≤ 1029)⟩

/-- Reset is a canonical state, and a step from it goes on; so does the command that no station is powered for. -/
theorem witness_StepsKeepCanonicalForm :
    canonical State.reset ∧ goesOn State.reset ∧ ∃ t, exec (.asNop 0) State.reset = .next t := by
  refine ⟨⟨by decide +kernel, by decide +kernel, by decide +kernel, by decide +kernel⟩, ?_, _, rfl⟩
  unfold goesOn step
  exact ⟨_, rfl⟩

/-! ### Ill-formed commands -/

/-- A sensor sample that names 63 stations. -/
def shortSample : Sample := ⟨List.replicate 63 0, List.replicate 8 0, List.replicate 16 0, 0, 0, 0, 0, 0, false, false, false, false⟩

/-- Each check of WellFormed refuses a command that breaks it: straps, a link's width, addresses, TLPs of no DW and of a Curator,
cells, credit words, headers, blocks, samples, the lengths of accesses. -/
theorem test_ill_formed_commands_are_refused :
    (Instr.stageAdvance (List.replicate 7 .low)).wf = false ∧ (Instr.pcieReset ⟨.hot, ⟨1, 17, false⟩⟩).wf = false ∧
    (Instr.registerWrite .host 2 ⟨[0], .good⟩).wf = false ∧ (Instr.registerWrite .host 4 ⟨[], .good⟩).wf = false ∧
    (Instr.registerWrite .curator 4 ⟨[0], .poisoned⟩).wf = false ∧ (Instr.rcRead ⟨.host, 1, 1, .good⟩).wf = false ∧
    (Instr.pairLoRead ⟨.curator, 4, 2, .good⟩).wf = false ∧ (Instr.fabricCellReceive 0 [] 0 0).wf = false ∧
    (Instr.creditRecord 0 [0, 0, 0, 0, 0]).wf = false ∧ (Instr.bucketHeaderReceive 0 [0]).wf = false ∧
    (Instr.sittingHeaderReceive 0 []).wf = false ∧ (Instr.plinthBlockReceive (List.replicate 4097 0)).wf = false ∧
    (Instr.curatorSample shortSample).wf = false ∧ (Instr.bar2Read 0 4097 .good).wf = false ∧
    (Instr.bar2Write 0 (List.replicate 513 0) .good).wf = false ∧ (Instr.bar4Read 0 4097 .good).wf = false ∧
    (Instr.bar4Write 0 (List.replicate 513 0) .good).wf = false := by
  decide +kernel

/-- The longest well-formed accesses pass, and those of no length. -/
theorem test_well_formed_commands_pass :
    (Instr.stageAdvance (List.replicate 8 .low)).wf = true ∧ (Instr.rcRead ⟨.host, 4, 17, .good⟩).wf = true ∧
    (Instr.bar2Read 0 4096 .good).wf = true ∧ (Instr.bar2Read 0 0 .good).wf = true ∧
    (Instr.bar4Write 0 (List.replicate 512 0) .poisoned).wf = true := by
  decide +kernel

/-- The table gives no row any bits: no word spells a command, and placing one changes nothing. -/
theorem test_no_word_spells_a_command : decodeTableWord 32 0x12345678 = none ∧ State.reset.withFetchWord 8 1 = State.reset :=
  ⟨rfl, rfl⟩

/-! ### The manual's worked examples -/

/-- The next state of an outcome, or the reset state where there is none. -/
def nextOf : Host.Outcome State Fault Refusal → State
  | .next t => t
  | _ => State.reset

/-- The example of `18_module_physical.md`: straps of device (2, 5). -/
theorem test_straps_of_device_2_5 :
    (nextOf (exec (.stageAdvance [.high, .low, .low, .low, .high, .open_, .low, .low]) { State.reset with cur := { Cur.reset with aux := true } })).rg Reg.pltStrap = 0x06022502 := by
  decide +kernel

/-- Table 13.3: two offsets of a device with L = 8. -/
theorem test_dram_map_of_table_13_3 :
    dramMap 8 0x1234567A40 = ⟨5, 20, 0x2468ACA40⟩ ∧ dramMap 8 0x8800203040 = ⟨4, 0, 0x1000101040⟩ := by
  decide +kernel

/-- Table 2.9: the fields of the header of tile SEQ 2. -/
theorem test_header_of_table_2_9 :
    let t : TH := ⟨0x05401053, 0x22, 2, 0x773, 0x30D9, 0x00144025, 0x0022A17C, 0⟩
    t.fmt = 0x13 ∧ t.sblk = 2 ∧ t.rows = 16 ∧ t.cols = 64 ∧ t.valid = 5 ∧ t.last = true ∧ t.tagKind = 2 ∧ t.origin = 37 ∧
    t.tscale = 0x7C ∧ t.itin = 673 ∧ t.hop = 2 ∧ t.bodyLen = 4096 + 128 ∧ t.ok = true ∧
    t.bytes.take 8 = [0x53, 0x10, 0x40, 0x05, 0x22, 0, 0, 0] := by
  decide +kernel

/-- Table 2.8: the entry of itinerary 673 and the fields of its hop words. -/
theorem test_itinerary_of_table_2_8 :
    Reg.crsItin 673 0 = 0x18A840 ∧ Reg.crsItin 673 3 = 0x18A84C ∧ hopTarget 0x3011 = 2 ∧ hopQueue 0x3011 = 0 ∧
    hopTarget 0x38A1 = 20 ∧ hopQueue 0x38A1 = 2 ∧ hopTarget 0x3212 = 66 ∧ hopKind 0x3011 = 1 ∧ hopKind 0x3212 = 2 ∧
    hopTc 0x3212 = 3 := by
  decide +kernel

/-- Table 1.4: step 41 opens at T = 10^12 with a period of 5,000,000 tk. -/
theorem test_step_opening_of_table_1_4 :
    let s := atTick 1000000000000 (dev [step_ 0 0, (Reg.htStepNum, 41), (Reg.htStepPeriod, 5000000),
      (Reg.htStepOpenLo, 0xD4A51000), (Reg.htStepOpenHi, 0xE8)])
    let t := nextOf (exec .stepOpen s)
    t.stepState = 1 ∧ t.rg Reg.htStepCur = 41 ∧ t.rg Reg.htStepNum = 42 ∧ t.rg64 Reg.htStepOpenLo = 1000005000000 := by
  decide +kernel

/-- The first example of Dahlia's order: truncation decides a tie. -/
theorem test_truncation_decides_a_tie :
    let p (k : Int) : Val × Flags := (.fin false 1 k, 0)
    dotF32 false 0 (p 0 :: List.replicate 15 (.zero, 0) ++ p (-24) :: p (-32) :: List.replicate 14 (.zero, 0)) = (0x3F800000, 0) := by
  decide +kernel

/-- The second: an overflowing product and a NaN leave the canonical NaN, NV and OF. -/
theorem test_bf16_overflow_and_nan :
    let p (a b : Nat) := product (decodeElem 1 a) (decodeElem 1 b)
    dotF32 false 0 ((p 0x7F00 0x4300) :: ((p 0xFFA5 0x3F80).1, (p 0xFFA5 0x3F80).2 ||| fNV) :: [p 0x3F80 0x4000]) =
      (0x7FC00000, 5) := by
  decide +kernel

/-- The block of the running-maximum example: the scale and three elements. -/
theorem test_block_scale_example :
    blockExp 3 [f32 0x447A0000, f32 0xC0533333] = 2 ∧
    convertTo 3 true false ((f32 0x447A0000).scale (-2)) = (0x78, 0) ∧
    convertTo 3 true false ((f32 0xC0533333).scale (-2)) = (0xB5, 0) ∧
    convertTo 3 true false ((f32 0x3A83126F).scale (-2)) = (0, 8) := by
  decide +kernel

/-- The example of the Olverov order: the tree over four FP64 terms, in two assignments. -/
theorem test_order_decides_an_fp64_sum :
    let one : Option Term2 := some ([0x3FF0000000000000], false, false)
    let big : Option Term2 := some ([0x4340000000000000], false, false)
    let neg : Option Term2 := some ([0xC340000000000000], false, false)
    (treeSum 5 false 2 [big, one, neg, one]).1 = some ([0x3FF0000000000000], false, false) ∧
    (treeSum 5 false 2 [big, neg, one, one]).1 = some ([0x4000000000000000], false, false) := by
  decide +kernel

/-! ### Single commands -/

/-- FIPS 180-4: the SHA-384 digest of the three bytes abc begins so. -/
theorem test_sha384_of_abc : (sha384 [0x61, 0x62, 0x63]).take 8 = [0xCB, 0x00, 0x75, 0x3F, 0x45, 0xA3, 0x5E, 0x8B] := by
  decide +kernel

/-- RFC 5639: the base point lies on the curve and has order N. -/
theorem test_brainpool_base_point :
    (ecBase.y * ecBase.y) % ecP = (ecBase.x * ecBase.x * ecBase.x + ecA * ecBase.x + ecB) % ecP ∧ (ecBase.mul ecN 384).z = 0 := by
  decide +kernel

/-- addi wraps modulo 2^64 and sign-extends its immediate (R83). -/
theorem test_addi_wraps :
    ((nextOf (exec (.asAddi 0) (withStn (asStn (asW 0x0B (1 * 2 ^ 22 + 0 * 2 ^ 18 + 0x3FFFF)))))).st 0).as.g[1] =
      0xFFFFFFFFFFFFFFFF := by
  decide +kernel

/-- lih writes bits 59 to 40 and keeps bits 63 to 60 (R83). -/
theorem test_lih_keeps_the_top_bits :
    ((nextOf (exec (.asLih 0) (withStn (g0 (asStn (asW 0x0A 0xABCDE)) 0xF123456789ABCDEF)))).st 0).as.g[0] =
      0xFABCDE6789ABCDEF := by
  decide +kernel

/-- beqz of a zero register branches backward from its own place; before instruction 0 it raises STN-07 and halts (R80). -/
theorem test_beqz_before_instruction_0_halts :
    ((nextOf (exec (.asBeqz 0) (withStn (asStn (asW 0x03 0xFFFF))))).st 0).st ≠ .running ∧
    ((nextOf (exec (.asBeqz 0) (withStn (asStn (asW 0x03 5))))).st 0).as.pc = 5 := by
  decide +kernel

/-- The host sets the number of the next step (R38). -/
theorem test_register_write_then_read :
    (nextOf (exec (.registerWrite .host Reg.htStepNum ⟨[41], .good⟩) (dev []))).rg Reg.htStepNum = 41 := by
  decide +kernel

end Sys2Proof.Tests
end

section
/-! SUPPORT. The write of a single register (R10, R11, R369, R373): what a direct write does to the fields of a register,
what stands before it in and outside a transaction, and the TLPs that no register takes (R426, R430). -/

namespace Sys2Proof.Machine

open Sys2Proof

-- In the joined text the tests' kernel evaluations are still running here, each on a thread with a stack of its own;
-- elaborating in turn starts no further thread, and so stays within the check's memory limit.
set_option Elab.async false

/-! ### What the device has put into a register in this tick -/

theorem Cells.look_erase_ne {α : Type} (m : Cells α) {k j : Nat} (h : j ≠ k) :
    Cells.look (Cells.erase m k) j = Cells.look m j := by
  induction m with
  | nil => rfl
  | cons e r ih =>
    obtain ⟨a, v⟩ := e
    by_cases hk : a = k
    · subst hk; simp [Cells.erase, Cells.look, ih, Ne.symm h]
    · simp [Cells.erase, Cells.look, hk, ih]

theorem Cells.look_put_ne {α : Type} (m : Cells α) {k j : Nat} (v : α) (h : j ≠ k) :
    Cells.look (Cells.put m k v) j = Cells.look m j := by
  induction m with
  | nil => simp [Cells.put, Cells.look, Ne.symm h]
  | cons e r ih =>
    obtain ⟨a, w⟩ := e
    by_cases hlt : k < a
    · simp [Cells.put, hlt, Cells.look, Ne.symm h]
    · simp [Cells.put, hlt, Cells.look, ih]

theorem Cells.look_ins_ne {α : Type} (m : Cells α) {k j : Nat} (v : α) (h : j ≠ k) :
    Cells.look (Cells.ins m k v) j = Cells.look m j := by
  rw [Cells.ins, Cells.look_put_ne _ v h, Cells.look_erase_ne _ h]

theorem State.since_congr {s t : State} (h : s.evts = t.evts) (a : Nat) : s.since a = t.since a := by
  unfold State.since; rw [h]

@[simp] theorem State.since_setRg (s : State) (a b : Nat) (v : Word) : (s.setRg a v).since b = s.since b := rfl

theorem State.since_event_ne (s : State) {a b : Nat} (f : Word → Word) (h : b ≠ a) :
    (s.event a f).since b = s.since b := by
  simp only [State.since, State.event, Cells.look_ins_ne _ _ h]

theorem State.since_inc_ne (s : State) {a b : Nat} (h : b ≠ a) : (s.inc a).since b = s.since b :=
  State.since_event_ne s _ h

theorem State.since_setBitEvt_ne (s : State) {a b : Nat} (i : Nat) (h : b ≠ a) :
    (s.setBitEvt a i).since b = s.since b := State.since_event_ne s _ h

/-- A code that is not Fatal puts nothing into a register that no report touches. -/
theorem State.since_raise (s : State) {c : Code} (u : UnitId) (e : List Word) (hc : c.cls ≠ .fatal) {b : Nat}
    (h : ¬ reportReg b) : (s.raise c u e).since b = s.since b := by
  have hlost : b ≠ Reg.catLost := fun x => h (Or.inr (Or.inl x))
  have hstat : b ≠ Reg.catStatus := fun x => h (Or.inr (Or.inr (Or.inl x)))
  have hwin (t : State) (i : Nat) : (t.openWindow u i c).since b = t.since b := State.since_congr (by simp) b
  unfold State.raise State.raiseAt
  simp only [hc, if_false, or_false]
  by_cases hf : c.cls = .fenced
  · rw [if_pos hf]
    split
    · rw [hwin]; rfl
    · rfl
  · rw [if_neg hf]
    by_cases hq : s.cat.queue.length < 4096
    · rw [if_pos hq]
      split
      · rw [hwin]; rfl
      · rfl
    · rw [if_neg hq]
      split
      · rw [hwin, State.since_setBitEvt_ne _ _ hstat, State.since_inc_ne _ hlost]; rfl
      · rw [State.since_setBitEvt_ne _ _ hstat, State.since_inc_ne _ hlost]; rfl

/-- A code that is not Fatal touches registers and the Catalogue only. -/
theorem State.raise_mild_eq (s : State) {c : Code} (u : UnitId) (e : List Word) (hc : c.cls ≠ .fatal) :
    s.raise c u e =
      { s with regs := (s.raise c u e).regs, evts := (s.raise c u e).evts, cat := (s.raise c u e).cat } := by
  obtain ⟨hout, hprt, hcur, hstn⟩ := State.raise_mild s u e hc
  apply State.eq_of <;> simp [hout, hprt, hcur, hstn]

/-! ### The fields of a register -/

/-- A mask of no bits takes none. -/
theorem masked_none (x y : Word) : (x &&& ~~~(0 : Word)) ||| (y &&& 0) = x := by
  change (x &&& ~~~0#32) ||| (y &&& 0#32) = x
  rw [BitVec.not_zero, BitVec.and_allOnes, BitVec.and_zero, BitVec.or_zero]

/-- The step of a direct write that sets fields and clears W1C bits, after its shadow or its refusal. -/
def State.setFields (s : State) (a : Nat) (half : Half) (m c v : Word) : State :=
  let s2 := if m = 0 then s else s.putPair a m v half
  if c = 0 then s2 else s2.clearBits a c

/-- The step of a direct write before its fields: the shadow in an open transaction, or the refusal of R373. -/
def State.beforeFields (s : State) (r : Requester) (a : Nat) (row : RegRow) (v : Word) : State :=
  let s0 := if row.rws ≠ 0 ∧ (s.txn r).st = .open_ then s.shadow r a v else s
  if s.refusedAlone r a row v then (s0.inc Reg.txnRefused).raise ⟨.cfg, 7⟩ uDevice [] else s0

theorem State.plainWrite_eq (s : State) (r : Requester) (a : Nat) (row : RegRow) (v : Word) :
    s.plainWrite r a row v = (s.beforeFields r a row v).setFields a row.half
      (if s.refusedAlone r a row v then row.rw else s.nowMask r row) (row.w1c &&& v) v := rfl

/-- A register has taken the bits of `v` in `m` and lost those in `c` that the device has not set in this tick (R10, R11);
besides it only handling windows have changed. -/
def fieldsTaken (a : Nat) (m c v : Word) (s t : State) : Prop :=
  t.rg a = ((((s.rg a &&& ~~~m) ||| (v &&& m)) &&& ~~~c) ||| (s.since a &&& c)) ∧ regsBut [a] s t ∧
  t = { s with regs := t.regs, cat := t.cat } ∧ t.cat.queue = s.cat.queue ∧ t.cat.urgent = s.cat.urgent

theorem State.settleReg_of_not_inPrt (s : State) {a : Nat} (hp : inPrt a = false) : s.settleReg a = s := by
  simp [State.settleReg, hp]

theorem State.follow_of_no_consequence (s : State) (l : List (Nat × Word)) {a : Nat} (old : Word) (hs : inStn a = false)
    (hp : inPrt a = false) (hf : a ∉ [Reg.htCtrl, Reg.htParent, Reg.htTsyncPeriod]) : s.follow l a old = s := by
  simp only [List.mem_cons, List.not_mem_nil, or_false, not_or] at hf
  obtain ⟨hctrl, hparent, hperiod⟩ := hf
  simp [State.follow, hs, hp, hctrl, hparent, hperiod]

theorem State.putPair_single (s : State) {a : Nat} (m v : Word) (hs : inStn a = false) (hp : inPrt a = false)
    (hf : a ∉ [Reg.htCtrl, Reg.htParent, Reg.htTsyncPeriod]) : s.putPair a m v .single = s.put a m v := by
  simp only [State.putPair, State.putNow, State.settleReg_of_not_inPrt s hp,
    State.follow_of_no_consequence _ _ _ hs hp hf]

/-- The fields of a single register whose value brings nothing with it. -/
theorem State.setFields_taken (s : State) {a : Nat} (m c v : Word) (hs : inStn a = false) (hp : inPrt a = false)
    (hf : a ∉ [Reg.htCtrl, Reg.htParent, Reg.htTsyncPeriod]) :
    fieldsTaken a m c v s (s.setFields a .single m c v) := by
  have hne (b : Nat) (hb : b ∉ [a]) : b ≠ a := by simpa using hb
  unfold State.setFields
  rw [State.putPair_single s m v hs hp hf]
  by_cases hm : m = 0 <;> by_cases hc : c = 0 <;> simp only [hm, hc, if_true, if_false]
  · exact ⟨by simp only [masked_none], fun _ _ => rfl, rfl, rfl, rfl⟩
  · exact ⟨by simp only [State.clearBits, State.rg_setRg_self, masked_none],
      fun b hb => State.rg_setRg_ne s _ (hne b hb), rfl, rfl, rfl⟩
  · exact ⟨by simp only [State.put, State.rg_setRg_self, masked_none],
      fun b hb => State.rg_setRg_ne s _ (hne b hb), rfl, rfl, rfl⟩
  · exact ⟨by simp [State.clearBits, State.put],
      fun b hb => (State.rg_setRg_ne _ _ (hne b hb)).trans (State.rg_setRg_ne s _ (hne b hb)), rfl, rfl, rfl⟩

/-- A cleared bit ends handling windows at most. -/
theorem State.cleared_eq (s : State) (a : Nat) :
    s.cleared a = { s with cat := { s.cat with windows := (s.cleared a).cat.windows } } := by
  unfold State.cleared State.stackCalm
  split
  · split <;> rfl
  · rfl

theorem fieldsTaken.cleared {a : Nat} {m c v : Word} {s t : State} (h : fieldsTaken a m c v s t) (b : Nat) :
    fieldsTaken a m c v s (t.cleared b) := by
  obtain ⟨hrg, hregs, heq, hq, hu⟩ := h
  rw [State.cleared_eq]
  exact ⟨hrg, hregs, by rw [heq], hq, hu⟩

/-- The rest of a direct write from a state in which the register is as it was before. -/
theorem fieldsTaken.of_agree {a : Nat} {m c v : Word} {s s' t : State} (h : fieldsTaken a m c v s' t)
    (hrg : s'.rg a = s.rg a) (hsince : s'.since a = s.since a) :
    t.rg a = ((((s.rg a &&& ~~~m) ||| (v &&& m)) &&& ~~~c) ||| (s.since a &&& c)) := by
  obtain ⟨htaken, -⟩ := h
  rw [htaken, hrg, hsince]

/-! ### What stands before the fields -/

theorem State.refusedAlone_of_open (s : State) (r : Requester) (a : Nat) (row : RegRow) (v : Word)
    (ht : (s.txn r).st = .open_) : s.refusedAlone r a row v = false := by
  simp [State.refusedAlone, ht]

/-- Outside a transaction a write that Table 14.7 does not refuse begins with nothing, and sets the RWS fields too. -/
theorem State.plainWrite_accepted (s : State) {r : Requester} {a : Nat} {row : RegRow} {v : Word}
    (ht : (s.txn r).st = .none ∨ (s.txn r).st = .armed) (hok : row.rws = 0 ∨ s.entriesOk [(a, v)] = true) :
    s.plainWrite r a row v = s.setFields a row.half (row.rw ||| row.rws) (row.w1c &&& v) v := by
  have hopen : (s.txn r).st ≠ .open_ := by rcases ht with h | h <;> simp [h]
  have hfail : (s.txn r).st ≠ .failed := by rcases ht with h | h <;> simp [h]
  have hbad : s.refusedAlone r a row v = false := by
    rcases hok with h | h <;> simp [State.refusedAlone, h]
  simp [State.plainWrite_eq, State.beforeFields, State.nowMask, hbad, hopen, hfail]

/-- Outside a transaction a refused write is counted and reported, and sets no RWS field (R373). -/
theorem State.plainWrite_refused (s : State) {r : Requester} {a : Nat} {row : RegRow} {v : Word}
    (ht : (s.txn r).st = .none ∨ (s.txn r).st = .armed) (hrws : row.rws ≠ 0) (hbad : s.entriesOk [(a, v)] = false) :
    s.plainWrite r a row v =
      ((s.inc Reg.txnRefused).raise ⟨.cfg, 7⟩ uDevice []).setFields a row.half row.rw (row.w1c &&& v) v := by
  have hopen : (s.txn r).st ≠ .open_ := by rcases ht with h | h <;> simp [h]
  have hfail : (s.txn r).st ≠ .failed := by rcases ht with h | h <;> simp [h]
  have href : s.refusedAlone r a row v = true := by
    simpa [State.refusedAlone, hopen, hfail, hbad] using hrws
  simp [State.plainWrite_eq, State.beforeFields, href, hopen]

/-- In an open transaction a write of RWS fields becomes a shadow first (R369). -/
theorem State.plainWrite_open (s : State) {r : Requester} {a : Nat} {row : RegRow} {v : Word}
    (ht : (s.txn r).st = .open_) :
    s.plainWrite r a row v =
      (if row.rws ≠ 0 then s.shadow r a v else s).setFields a row.half row.rw (row.w1c &&& v) v := by
  simp [State.plainWrite_eq, State.beforeFields, State.nowMask, State.refusedAlone_of_open s r a row v ht, ht]

@[simp] theorem State.txn_setTxn_self (s : State) (r : Requester) (t : Txn) : (s.setTxn r t).txn r = t := by
  cases r <;> rfl

@[simp] theorem State.txn_setTxn_other (s : State) (r : Requester) (t : Txn) :
    (s.setTxn r t).txn (otherOf r) = s.txn (otherOf r) := by
  cases r <;> rfl

@[simp] theorem State.rg_setTxn (s : State) (r : Requester) (t : Txn) (a : Nat) : (s.setTxn r t).rg a = s.rg a := by
  cases r <;> rfl

@[simp] theorem State.since_setTxn (s : State) (r : Requester) (t : Txn) (a : Nat) :
    (s.setTxn r t).since a = s.since a := by
  cases r <;> rfl

/-- The first write of an address in a transaction that has room adds an entry (R370). -/
theorem State.shadow_new (s : State) {r : Requester} {a : Nat} (v : Word) (hroom : (s.txn r).entries.length < 4096)
    (hnew : ∀ e ∈ (s.txn r).entries, e.1 ≠ a) :
    s.shadow r a v = s.setTxn r { s.txn r with entries := (s.txn r).entries ++ [(a, v)] } := by
  have hany : (s.txn r).entries.any (fun e => decide (e.1 = a)) = false := by
    simpa [List.any_eq_false] using fun x y hxy => hnew (x, y) hxy
  simp [State.shadow, hany, hroom]

theorem State.txn_congr {s t : State} (hh : t.txnHost = s.txnHost) (hc : t.txnCur = s.txnCur) (r : Requester) :
    t.txn r = s.txn r := by
  cases r
  · exact hh
  · exact hc

theorem fieldsTaken.txn {a : Nat} {m c v : Word} {s t : State} (h : fieldsTaken a m c v s t) (r : Requester) :
    t.txn r = s.txn r := by
  obtain ⟨-, -, heq, -, -⟩ := h
  exact State.txn_congr (by rw [heq]) (by rw [heq]) r

/-! ### The write of one register -/

theorem isProg_of_not_inStn {a : Nat} (hs : inStn a = false) : isProg a = false := by simp [isProg, hs]

theorem State.unitHears_of_not_inStn (s : State) {a : Nat} (hs : inStn a = false) : s.unitHears a = s.unitUp a := by
  simp [State.unitHears, hs]

theorem State.writeReg_down (s : State) (r : Requester) {a : Nat} (v : Word) (hs : inStn a = false)
    (hd : s.unitUp a = false) : s.writeReg r a v = s := by
  simp [State.writeReg, State.unitHears_of_not_inStn s hs, hd]

/-- The write of a register outside stations and ports that answers and has no action. -/
theorem State.writeReg_plain (s : State) {r : Requester} {a : Nat} {v : Word} {row : RegRow} (hs : inStn a = false)
    (hp : inPrt a = false) (hrow : regRow a = some row) (hact : s.domainAction r a v = none) (hup : s.unitUp a = true) :
    s.writeReg r a v = (s.plainWrite r a row v).cleared a := by
  simp [State.writeReg, State.unitHears_of_not_inStn s hs, hup, isProg_of_not_inStn hs, State.action, hs, hp, hact, hrow]

theorem State.ifGood_good (s : State) (bar : Nat) (answers : Bool) (k : State) : s.ifGood .good bar answers k = k := by
  simp [State.ifGood]

theorem State.ifGood_holed (s : State) (bar : Nat) (answers : Bool) (k : State) : s.ifGood .holed bar answers k = k := by
  simp [State.ifGood]

/-- A whole TLP of 1 to 16 DW writes consecutive registers (R426). -/
theorem exec_registerWrite_good (s : State) (r : Requester) (a : Nat) {vs : List Word} (hn : vs.length ≤ 16) :
    exec (.registerWrite r a ⟨vs, .good⟩) s = .next (s.writeDws r a vs) := by
  have hbad : bar0Bad .good vs.length = false := by simp [bar0Bad, hn]
  simp [exec, execRegisterWrite, State.ifGood_good, hbad]

theorem exec_registerWrite_one (s : State) (r : Requester) {a : Nat} (v : Word) (ha : a % 4 = 0) (hlt : a < 2 ^ 26) :
    exec (.registerWrite r a ⟨[v], .good⟩) s = .next (s.writeReg r a v) := by
  have haddr : bar0Addr a = true := by simp only [bar0Addr, bar0Size, ha, hlt]; rfl
  rw [exec_registerWrite_good s r a (by simp)]
  simp [State.writeDws, State.writeDw, haddr]

/-- A TLP writes its first register, and then what the rest of it does (R426). -/
theorem exec_registerWrite_cons {s t : State} {r : Requester} {a : Nat} {v : Word} {vs : List Word}
    (hn : vs.length < 16) (h : exec (.registerWrite r a ⟨[v], .good⟩) s = .next t) :
    exec (.registerWrite r a ⟨v :: vs, .good⟩) s = exec (.registerWrite r (a + 4) ⟨vs, .good⟩) t := by
  rw [exec_registerWrite_good s r a (by simp)] at h
  have ht : s.writeDw r a v = t := Host.Outcome.next.inj h
  rw [exec_registerWrite_good s r a (by simpa using hn), exec_registerWrite_good t r (a + 4) hn.le, State.writeDws, ht]

/-- A write that answers and has no action, once its shadow or refusal is settled. -/
theorem exec_registerWrite_plain {s s1 : State} {r : Requester} {a : Nat} {v m : Word} {row : RegRow} (ha : a % 4 = 0)
    (hlt : a < 2 ^ 26) (hrow : regRow a = some row) (hhalf : row.half = .single) (hs : inStn a = false)
    (hp : inPrt a = false) (hf : a ∉ [Reg.htCtrl, Reg.htParent, Reg.htTsyncPeriod])
    (hact : s.domainAction r a v = none) (hup : s.unitUp a = true)
    (hw : s.plainWrite r a row v = s1.setFields a row.half m (row.w1c &&& v) v) :
    ∃ t, exec (.registerWrite r a ⟨[v], .good⟩) s = .next t ∧ fieldsTaken a m (row.w1c &&& v) v s1 t := by
  refine ⟨_, exec_registerWrite_one s r v ha hlt, ?_⟩
  rw [State.writeReg_plain s hs hp hrow hact hup, hw, hhalf]
  exact (State.setFields_taken s1 m _ v hs hp hf).cleared a

/-! ### A refused write -/

/-- An event posted between two states is posted between two that agree with them on what the posting names. -/
theorem posted_of_agree {c : Code} {u : UnitId} {s s' t t' : State} (h : posted c u s t) (hht : s.ht = s'.ht)
    (hstep : s.stepCur = s'.stepCur) (hcat : s.cat = s'.cat) (hlost : s.rg Reg.catLost = s'.rg Reg.catLost)
    (hq : t'.cat.queue = t.cat.queue) (hu : t'.cat.urgent = t.cat.urgent)
    (hlost' : t'.rg Reg.catLost = t.rg Reg.catLost) : posted c u s' t' := by
  obtain ⟨e, hcode, hcls, hunit, heht, hestep, hpost⟩ := h
  refine ⟨e, hcode, hcls, hunit, heht.trans hht, hestep.trans hstep, ?_⟩
  rw [hq, hu, hlost', ← hcat, ← hlost]
  exact hpost

theorem txnRefused_not_reportReg : ¬ reportReg Reg.txnRefused := by
  unfold reportReg intReg
  decide

/-- What a refusal (R373) and the rest of the write leave, at a register that no report touches. -/
theorem refused_effect {s t : State} {a : Nat} {m c v : Word} (hne : a ≠ Reg.txnRefused) (hrep : ¬ reportReg a)
    (h : fieldsTaken a m c v ((s.inc Reg.txnRefused).raise ⟨.cfg, 7⟩ uDevice []) t) :
    t.rg a = ((((s.rg a &&& ~~~m) ||| (v &&& m)) &&& ~~~c) ||| (s.since a &&& c)) ∧
    (t.rg Reg.txnRefused).toNat = min 0xFFFFFFFF ((s.rg Reg.txnRefused).toNat + 1) ∧ posted ⟨.cfg, 7⟩ uDevice s t ∧
    regsButReports [a, Reg.txnRefused] s t ∧ t = { s with regs := t.regs, evts := t.evts, cat := t.cat } := by
  have hmild : (⟨.cfg, 7⟩ : Code).cls ≠ .fatal := by decide
  have ⟨_, hregs, heq, hq, hu⟩ := h
  have hraise := State.raise_mild_eq (s.inc Reg.txnRefused) uDevice [] hmild
  have hlost : t.rg Reg.catLost = ((s.inc Reg.txnRefused).raise ⟨.cfg, 7⟩ uDevice []).rg Reg.catLost :=
    hregs _ (by simpa using fun e : Reg.catLost = a => hrep (e ▸ Or.inr (Or.inl rfl)))
  refine ⟨h.of_agree ?_ ?_, ?_, ?_, ?_, ?_⟩
  · rw [State.rg_raise _ _ _ _ hrep, State.rg_inc_ne s hne]
  · rw [State.since_raise _ _ _ hmild hrep, State.since_inc_ne s hne]
  · rw [hregs _ (by simpa using hne.symm), State.rg_raise _ _ _ _ txnRefused_not_reportReg, State.rg_inc_self]
  · exact posted_of_agree (State.raise_posted (s.inc Reg.txnRefused) ⟨.cfg, 7⟩ uDevice []) (by simp)
      (State.rg_inc_ne s (by decide)) (by simp) (State.rg_inc_ne s (by decide)) hq hu hlost
  · intro b hb hbr
    simp only [List.mem_cons, List.not_mem_nil, or_false, not_or] at hb
    rw [hregs b (by simpa using hb.1), State.rg_raise _ _ _ _ hbr, State.rg_inc_ne s hb.2]
  · rw [heq, hraise]; rfl

/-! ### A write in an open transaction -/

/-- What a shadow (R369) and the rest of the write leave: RW and W1C fields taken, an entry for RWS fields. -/
theorem open_effect {s t : State} {r : Requester} {a : Nat} {row : RegRow} {m c v : Word} (ht : (s.txn r).st = .open_)
    (hroom : (s.txn r).entries.length < 4096) (hnew : ∀ e ∈ (s.txn r).entries, e.1 ≠ a)
    (h : fieldsTaken a m c v (if row.rws ≠ 0 then s.shadow r a v else s) t) :
    t.rg a = ((((s.rg a &&& ~~~m) ||| (v &&& m)) &&& ~~~c) ||| (s.since a &&& c)) ∧
    (t.txn r).entries = (if row.rws ≠ 0 then (s.txn r).entries ++ [(a, v)] else (s.txn r).entries) ∧
    (t.txn r).st = .open_ ∧ t.txn (otherOf r) = s.txn (otherOf r) ∧ regsBut [a] s t := by
  rw [State.shadow_new s v hroom hnew] at h
  have ⟨_, hregs, _⟩ := h
  by_cases hrws : row.rws ≠ 0
  · rw [if_pos hrws] at h hregs ⊢
    refine ⟨h.of_agree (by simp) (by simp), ?_, ?_, ?_, fun b hb => (hregs b hb).trans (by simp)⟩
    · rw [h.txn, State.txn_setTxn_self]
    · rw [h.txn, State.txn_setTxn_self]; exact ht
    · rw [h.txn, State.txn_setTxn_other]
  · rw [if_neg hrws] at h hregs ⊢
    exact ⟨h.of_agree rfl rfl, by rw [h.txn], by rw [h.txn]; exact ht, h.txn _, hregs⟩

/-! ### TLPs that no register takes -/

/-- A TLP with a byte enable clear or of more than 16 DW is discarded and noted (R426). -/
theorem exec_registerWrite_malformed (s : State) (r : Requester) (a : Nat) {vs : List Word} {tlp : Tlp}
    (haux : s.cur.aux = true) (h : tlp = .holed ∨ (tlp = .good ∧ 16 < vs.length)) :
    exec (.registerWrite r a ⟨vs, tlp⟩) s = .next (s.setBitEvt Reg.glbStatus 7) := by
  have hbad : bar0Bad tlp vs.length = true := by
    rcases h with rfl | ⟨rfl, hlen⟩
    · simp [bar0Bad]
    · simp [bar0Bad, hlen]
  have hkeep (k : State) : s.ifGood tlp 0 false k = k := by
    rcases h with rfl | ⟨rfl, -⟩
    · exact State.ifGood_holed s 0 false k
    · exact State.ifGood_good s 0 false k
  simp [exec, execRegisterWrite, hkeep, hbad, haux]

theorem exec_registerWrite_poisoned (s : State) (r : Requester) (a : Nat) (vs : List Word) (haux : s.cur.aux = true) :
    exec (.registerWrite r a ⟨vs, .poisoned⟩) s = .next s.poisoned := by
  simp [exec, execRegisterWrite, State.ifGood, haux]

/-- A count of GLB_PCIE_ERR, as its field reads. -/
theorem State.rf_pcieErr_self (s : State) {lo : Nat} (h : lo + 16 ≤ 32) :
    (s.pcieErr lo).rf Reg.glbPcieErr lo 16 = min 0xFFFF (s.rf Reg.glbPcieErr lo 16 + 1) := by
  rw [State.rf, State.pcieErr, State.rg_event, if_pos rfl, fld_setFld_self _ _ _ _ h, State.rf]
  exact Nat.mod_eq_of_lt (by omega)

/-- A poisoned TLP (R430) is the count, the status bit, and the report where it is not masked. -/
theorem State.poisoned_eq (s : State) :
    s.poisoned = { (s.pcieErr 0) with
      pcie := { s.pcie with aer := setBit s.pcie.aer 12 true }
      out := if bitOf s.pcie.amask 12 then s.out else .poisonedTlp :: s.out } := by
  unfold State.poisoned
  simp only [State.aerBit, State.pcieErr, State.event_frame]
  split <;> simp [State.emit]

/-- A poisoned TLP is counted and reported, and nothing else of it remains. -/
theorem State.poisoned_effect (s : State) :
    s.poisoned.rf Reg.glbPcieErr 0 16 = min 0xFFFF (s.rf Reg.glbPcieErr 0 16 + 1) ∧
    bitOf s.poisoned.pcie.aer 12 = true ∧
    s.poisoned.out = (if bitOf s.pcie.amask 12 then s.out else .poisonedTlp :: s.out) ∧
    regsBut [Reg.glbPcieErr] s s.poisoned ∧
    s.poisoned = { s with regs := s.poisoned.regs, evts := s.poisoned.evts, out := s.poisoned.out, pcie := s.poisoned.pcie } := by
  rw [State.poisoned_eq]
  refine ⟨State.rf_pcieErr_self s (by omega), bitOf_set_self _ _ (by omega), rfl, fun b hb => ?_, rfl⟩
  exact State.rg_setRg_ne s _ (by simpa using hb)

/-- Settles O30: a direct write is its shadow or its refusal and then its fields (`State.plainWrite_eq`), and each of the
statement's cases says which of these applies. -/
theorem registerWrite : Obligations.RegisterWrite := by
  unfold Obligations.RegisterWrite
  intro s r a v row ha hlt hrow hhalf hs hp hf hact
  refine ⟨fun hd => ?_, fun hup ht hok => ?_, fun hup ht hrws hbad hne hrep => ?_, fun hup ht hroom hnew => ?_,
    fun vs t _ hlen h => exec_registerWrite_cons hlen h, fun vs tlp haux h => ?_, fun vs haux => ?_⟩
  · rw [exec_registerWrite_one s r v ha hlt, State.writeReg_down s r v hs hd]
  · obtain ⟨t, hexec, hrg, hregs, heq, -, -⟩ := exec_registerWrite_plain ha hlt hrow hhalf hs hp hf hact hup
      (State.plainWrite_accepted s ht hok)
    exact ⟨t, hexec, hrg, hregs, by rw [heq]⟩
  · obtain ⟨t, hexec, htaken⟩ := exec_registerWrite_plain ha hlt hrow hhalf hs hp hf hact hup
      (State.plainWrite_refused s ht hrws hbad)
    exact ⟨t, hexec, refused_effect hne hrep htaken⟩
  · obtain ⟨t, hexec, htaken⟩ := exec_registerWrite_plain ha hlt hrow hhalf hs hp hf hact hup (State.plainWrite_open s ht)
    exact ⟨t, hexec, open_effect ht hroom hnew htaken⟩
  · refine ⟨_, exec_registerWrite_malformed s r a haux h, ?_, fun b hb => ?_, rfl⟩
    · rw [State.rbit, State.rg_setBitEvt_self]
      exact bitOf_set_self _ _ (by omega)
    · exact State.rg_setBitEvt_ne s 7 (by simpa using hb)
  · exact ⟨_, exec_registerWrite_poisoned s r a vs haux, State.poisoned_effect s⟩

end Sys2Proof.Machine
end

section
/-! SUPPORT. A tick with no command waiting (O3). -/

namespace Sys2Proof.Machine

open Sys2Proof

-- Elaborated in turn, as above: the joined text's check has a memory limit.
set_option Elab.async false

/-! ### A request that ends with its streams (R73, R298) -/

/-- A station whose access stream waits for a tile block, all of which are used, in the last cycle of a c.idle at whose end
a stop takes effect (R73). -/
def stoppingStn : Stn :=
  { Stn.reset with
    powered := true, st := .running, released := true, lay := ⟨1, [4, 4, 4, 1, 1]⟩, used := [[], [], [0, 1, 2, 3], [], []],
    as := { AsState.reset with wait := .tileBlock }, xs := { XsState.reset with stop := true }, reqs := [⟨2, .as, 0, 0, 0⟩] }

/-- The device in which station 0 is that one. -/
def stoppingDev : State := { State.reset with stn := State.reset.stn.set 0 stoppingStn }

/-- The request waits as the tick begins. -/
theorem stoppingDev_request_live :
    (stoppingDev.st 0).reqs.any ((stoppingDev.st 0).reqLive stoppingDev.ht) = true := by decide +kernel

/-- The tick stops the streams before it counts what waits. -/
theorem stoppingDev_tick_not_counted : stoppingDev.tick.rg (Reg.stnClkWait 0) = 0 := by decide +kernel

/-- Refutes O3: in `stoppingDev` a request waits for a tile block as the tick begins, the tick first stops the station's
streams (R73) and so withdraws the request, and STN_CLK_WAIT stays 0. -/
theorem not_emptyQueueTicks : ¬ Obligations.EmptyQueueTicks := by
  unfold Obligations.EmptyQueueTicks
  intro h
  obtain ⟨t, ht, _, _, _, _, _, _, _, _, _, _, hcount⟩ := h stoppingDev rfl
  have htick : step stoppingDev = .next stoppingDev.tick := rfl
  obtain rfl : stoppingDev.tick = t := by injection htick.symm.trans ht
  have hwait := hcount 0 rfl (by decide +kernel)
  rw [if_pos stoppingDev_request_live] at hwait
  have hreg : stoppingDev.rg (Reg.stnClkWait 0) = 0 := by decide +kernel
  exact absurd hwait (by
    change ¬ (stoppingDev.tick.rg (Reg.stnClkWait 0)).toNat = min 0xFFFFFFFF ((stoppingDev.rg (Reg.stnClkWait 0)).toNat + 1)
    rw [stoppingDev_tick_not_counted, hreg]
    decide)

end Sys2Proof.Machine
end

section
/-! SUPPORT. Hall time (R21 to R30, R313): single bits of HT_STATUS, ALIGNED and HOLDOVER, the parents, reports of the device. -/

namespace Sys2Proof.Machine

open Sys2Proof

-- Elaborated in turn, as above: the joined text's check has a memory limit.
set_option Elab.async false

/-! ### Single bits of a register -/

theorem fld_bit (w : Word) (i : Nat) : fld w i 1 = b2n (bitOf w i) := by
  rw [fld_eq, bitOf_eq, Nat.testBit_eq_decide_div_mod_eq, b2n]
  rcases Nat.mod_two_eq_zero_or_one (w.toNat / 2 ^ i) with h | h <;> simp [h]

/-- A bit set to what it is. -/
theorem setFld_bit_same {w : Word} {i : Nat} {b : Bool} (h : bitOf w i = b) : setFld w i 1 (b2n b) = w := by
  rw [← h, ← fld_bit, setFld_same]

/-- A bit that takes a value has it. -/
theorem bitOf_setFld_b2n (w : Word) {i : Nat} (b : Bool) (h : i < 32) : bitOf (setFld w i 1 (b2n b)) i = b := by
  cases b
  · exact bitOf_clear_self w i h
  · exact bitOf_set_self w i h

/-! ### The registers of hall time and the step -/

/-- No report touches a register of hall time or of a transaction. -/
theorem hallReg_not_reportReg {a : Nat} (h : 0x10000 ≤ a) (h' : a < 0x30000) : ¬ reportReg a := by
  unfold reportReg intReg
  simp only [Reg.glbIrqPend, Reg.glbPba, Reg.catLost, Reg.catStatus, Reg.catCondStn, Reg.catCondOpt, Reg.curEvent, Reg.accEvent,
    Reg.prtStatus]
  omega

theorem catLost_not_intReg : ¬ intReg Reg.catLost := not_intReg (by decide)

/-! ### ALIGNED and HOLDOVER -/

/-- A bit of HT_STATUS takes a value; a change raises vector 70 (Table 17.3). -/
def State.htBit (s : State) (i : Nat) (b : Bool) : State :=
  if s.rbit Reg.htStatus i = b then s else (s.setRf Reg.htStatus i 1 (b2n b)).vector 70

theorem State.rg_htBit_status (s : State) (i : Nat) (b : Bool) :
    (s.htBit i b).rg Reg.htStatus = setFld (s.rg Reg.htStatus) i 1 (b2n b) := by
  unfold State.htBit
  split
  · next h => exact (setFld_bit_same h).symm
  · rw [State.rg_vector _ (by omega) (not_intReg (by decide)), State.rg_setRf_self]

theorem State.rg_htBit (s : State) (i : Nat) (b : Bool) {a : Nat} (ha : a ≠ Reg.htStatus) (hi : ¬ intReg a) :
    (s.htBit i b).rg a = s.rg a := by
  unfold State.htBit
  split
  · rfl
  · rw [State.rg_vector _ (by omega) hi, State.rg_setRf_ne _ _ _ _ ha]

theorem State.htBit_frame (s : State) (i : Nat) (b : Bool) :
    s.htBit i b = { s with regs := (s.htBit i b).regs, evts := (s.htBit i b).evts, out := (s.htBit i b).out } := by
  unfold State.htBit
  split
  · rfl
  · apply State.eq_of <;> simp

theorem State.setAligned_false (s : State) : s.setAligned false = s.htBit 0 false := rfl

/-- HT_STATUS once ALIGNED has taken a value. -/
theorem State.rg_setAligned_status (s : State) (b : Bool) :
    (s.setAligned b).rg Reg.htStatus = setFld (s.rg Reg.htStatus) 0 1 (b2n b) := by
  cases b <;> exact s.rg_htBit_status 0 _

/-- ALIGNED leaves every register but HT_STATUS and those of pending interrupts alone. -/
theorem State.rg_setAligned (s : State) (b : Bool) {a : Nat} (ha : a ≠ Reg.htStatus) (hi : ¬ intReg a) :
    (s.setAligned b).rg a = s.rg a := by
  cases b <;> exact s.rg_htBit 0 _ ha hi

theorem State.setAligned_frame (s : State) (b : Bool) :
    s.setAligned b = { s with
      regs := (s.setAligned b).regs, evts := (s.setAligned b).evts, out := (s.setAligned b).out,
      clk := { s.clk with alignedYet := (s.setAligned b).clk.alignedYet, alignedAt := (s.setAligned b).clk.alignedAt },
      cat := { s.cat with windows := (s.setAligned b).cat.windows } } := by
  have h := s.htBit_frame 0 b
  cases b
  · rw [State.setAligned_false, h]
  · unfold State.setAligned
    rw [if_pos rfl, ← State.htBit, h]
    rfl

/-- HOLDOVER takes its value as a bit of HT_STATUS does; a change starts or ends the time of a holdover. -/
theorem State.setHoldover_eq (s : State) (b : Bool) :
    s.setHoldover b = { s.htBit 1 b with clk := (s.setHoldover b).clk } ∧
      (s.setHoldover b).clk =
        { s.clk with holdSince := (s.setHoldover b).clk.holdSince, holdDone := (s.setHoldover b).clk.holdDone } := by
  unfold State.setHoldover State.htBit
  split
  · exact ⟨rfl, rfl⟩
  · exact ⟨rfl, by simp⟩

theorem State.rg_setHoldover_status (s : State) (b : Bool) :
    (s.setHoldover b).rg Reg.htStatus = setFld (s.rg Reg.htStatus) 1 1 (b2n b) := by
  rw [(s.setHoldover_eq b).1]
  exact s.rg_htBit_status 1 b

theorem State.rg_setHoldover (s : State) (b : Bool) {a : Nat} (ha : a ≠ Reg.htStatus) (hi : ¬ intReg a) :
    (s.setHoldover b).rg a = s.rg a := by
  rw [(s.setHoldover_eq b).1]
  exact s.rg_htBit 1 b ha hi

theorem State.setHoldover_frame (s : State) (b : Bool) :
    s.setHoldover b = { s with
      regs := (s.setHoldover b).regs, evts := (s.setHoldover b).evts, out := (s.setHoldover b).out,
      clk := { s.clk with holdSince := (s.setHoldover b).clk.holdSince, holdDone := (s.setHoldover b).clk.holdDone } } := by
  obtain ⟨h, hclk⟩ := s.setHoldover_eq b
  rw [← hclk, h, s.htBit_frame 1 b]

/-! ### The parents -/

/-- A follower takes time from its standby parent (R28). -/
def State.standbyUsed (s : State) : Bool :=
  !s.isRoot && (s.parentUp s.standby && (s.rbit Reg.htCtrl 2 || !s.parentUp s.primary))

/-- A follower has no parent (R28). -/
def State.parentless (s : State) : Bool := !s.isRoot && (!s.parentUp s.primary && !s.parentUp s.standby)

/-- The parents that are available, as the clock remembers them. -/
def State.withParents (s : State) : State :=
  { s with clk := { s.clk with hasPrimary := s.parentUp s.primary, hasStandby := s.parentUp s.standby } }

theorem State.parents_eq (s : State) :
    s.parents = (s.withParents.setRf Reg.htStatus 3 1 (b2n s.standbyUsed)).setHoldover s.parentless := by
  unfold State.parents State.standbyUsed State.parentless
  by_cases h : s.isRoot = true
  · simp only [h, if_true]; rfl
  · simp only [Bool.not_eq_true] at h
    simp only [h]; rfl

theorem State.rg_parents_status (s : State) :
    s.parents.rg Reg.htStatus = setFld (setFld (s.rg Reg.htStatus) 3 1 (b2n s.standbyUsed)) 1 1 (b2n s.parentless) := by
  rw [State.parents_eq, State.rg_setHoldover_status, State.rg_setRf_self]; rfl

theorem State.rg_parents (s : State) {a : Nat} (ha : a ≠ Reg.htStatus) (hi : ¬ intReg a) : s.parents.rg a = s.rg a := by
  rw [State.parents_eq, State.rg_setHoldover _ _ ha hi, State.rg_setRf_ne _ _ _ _ ha]; rfl

theorem State.parents_frame (s : State) :
    s.parents = { s with
      regs := s.parents.regs, evts := s.parents.evts, out := s.parents.out,
      clk := { s.clk with
        hasPrimary := s.parentUp s.primary, hasStandby := s.parentUp s.standby,
        holdSince := s.parents.clk.holdSince, holdDone := s.parents.clk.holdDone } } := by
  rw [State.parents_eq, State.setHoldover_frame]; rfl

/-! ### Reports of the device -/

/-- A code that is not Fatal, posted by a state that agrees with `s` on what the posting names. -/
theorem posted_raise {s s' : State} (c : Code) (u : UnitId) (x : List Word) (hht : s'.ht = s.ht)
    (hstep : s'.rg Reg.htStepCur = s.rg Reg.htStepCur) (hcat : s'.cat = s.cat) (hlost : s'.rg Reg.catLost = s.rg Reg.catLost) :
    posted c u s (s'.raise c u x) :=
  posted_of_agree (State.raise_posted s' c u x) hht hstep hcat hlost rfl rfl rfl

end Sys2Proof.Machine
end

section
/-! SUPPORT. Time parents, holdover and the conflict of two roots (O22). -/

namespace Sys2Proof.Machine

open Sys2Proof

-- Elaborated in turn, as above: the joined text's check has a memory limit.
set_option Elab.async false

/-! ### Parents, holdover and the root (R28, R29) -/

/-- A look at the parents leaves ON_STANDBY and HOLDOVER as the parents that are available say (R28). -/
theorem State.parents_follow (s : State) :
    s.parents.rbit Reg.htStatus 3 = s.standbyUsed ∧ s.parents.rbit Reg.htStatus 1 = s.parentless ∧
    ∀ i, i < 32 → i ≠ 1 → i ≠ 3 → s.parents.rbit Reg.htStatus i = s.rbit Reg.htStatus i := by
  simp only [State.rbit, State.rg_parents_status]
  refine ⟨?_, bitOf_setFld_b2n _ _ (by omega), fun i _ h1 h3 => ?_⟩
  · rw [bitOf_setFld_ne _ _ _ _ (by omega) (by omega), bitOf_setFld_b2n _ _ (by omega)]
  · rw [bitOf_setFld_ne _ _ _ _ (by omega) h1, bitOf_setFld_ne _ _ _ _ (by omega) h3]

/-- A timed holdover is past its limit: ALIGNED ends and TIM-03 is raised (R28). -/
def State.holdoverOver (s : State) : State :=
  (({ s with clk := { s.clk with holdDone := true } } : State).setAligned false).raise ⟨.tim, 3⟩ uDevice []

theorem exec_holdoverLimitExpire {s : State} {t0 : DWord} (hold : s.clk.holdSince = some t0)
    (hbit : s.rbit Reg.htStatus 1 = true) (hdone : s.clk.holdDone = false)
    (hlim : (s.rg Reg.htHoldover).toNat < s.ht.toNat - t0.toNat) :
    exec .holdoverLimitExpire s = .next (
      if s.holdoverOver.stepState = 0 then s.holdoverOver.setStep 3
      else if s.holdoverOver.stepState = 3 then s.holdoverOver
      else { s.holdoverOver with clk := { s.holdoverOver.clk with stopWanted := true } }) := by
  simp only [exec, execHoldoverLimitExpire, hold, hbit, hdone, hlim, Bool.not_false, Bool.true_and, decide_true, if_true,
    State.holdoverOver, State.setStep]

theorem State.holdoverOver_frame (s : State) :
    s.holdoverOver = { s with
      regs := s.holdoverOver.regs, evts := s.holdoverOver.evts, out := s.holdoverOver.out,
      clk := { s.clk with holdDone := true }, cat := s.holdoverOver.cat } := by
  unfold State.holdoverOver
  rw [State.raise_mild_eq _ _ _ (by decide), State.setAligned_false, State.htBit_frame]

theorem State.rg_holdoverOver_status (s : State) :
    s.holdoverOver.rg Reg.htStatus = setFld (s.rg Reg.htStatus) 0 1 0 := by
  unfold State.holdoverOver
  rw [State.rg_raise _ _ _ _ (hallReg_not_reportReg (by decide) (by decide)), State.rg_setAligned_status]
  rfl

theorem State.rg_holdoverOver (s : State) {a : Nat} (ha : a ≠ Reg.htStatus) (hr : ¬ reportReg a) :
    s.holdoverOver.rg a = s.rg a := by
  unfold State.holdoverOver
  rw [State.rg_raise _ _ _ _ hr, State.rg_setAligned _ _ ha (fun h => hr (Or.inl h))]
  rfl

theorem State.stepState_holdoverOver (s : State) : s.holdoverOver.stepState = s.stepState := by
  rw [State.stepState, State.rf, State.rg_holdoverOver_status, fld_setFld_ne _ _ _ _ _ _ (by omega) (by omega)]
  rfl

theorem State.holdoverOver_posted (s : State) : posted ⟨.tim, 3⟩ uDevice s s.holdoverOver := by
  refine posted_raise _ _ _ ?_ ?_ ?_ ?_
  · rw [State.setAligned_frame]
  · rw [State.rg_setAligned _ _ (by decide) (not_intReg (by decide))]; rfl
  · rw [State.setAligned_false, State.htBit_frame]
  · rw [State.rg_setAligned _ _ (by decide) catLost_not_intReg]; rfl

/-- What a holdover past its limit leaves, whatever becomes of the step (R28): ALIGNED is 0, TIM-03 is posted, and only
HT_STATUS, reports and the clock have changed. -/
def holdoverEnded (s t : State) : Prop :=
  t.rbit Reg.htStatus 0 = false ∧ posted ⟨.tim, 3⟩ uDevice s t ∧ t.clk.holdDone = true ∧
  regsButReports [Reg.htStatus] s t ∧
  t = { s with regs := t.regs, evts := t.evts, out := t.out, clk := t.clk, cat := t.cat }

theorem State.holdoverOver_ended (s : State) : holdoverEnded s s.holdoverOver := by
  refine ⟨?_, s.holdoverOver_posted, by rw [s.holdoverOver_frame], fun a ha hr => ?_, ?_⟩
  · rw [State.rbit, State.rg_holdoverOver_status]
    exact bitOf_clear_self _ _ (by omega)
  · exact s.rg_holdoverOver (by simpa using ha) hr
  · rw [s.holdoverOver_frame]

/-- STEP_STATE may take a value besides. -/
theorem holdoverEnded.setStep {s t : State} (h : holdoverEnded s t) (v : Nat) : holdoverEnded s (t.setStep v) := by
  obtain ⟨hbit, hpost, hdone, hregs, hframe⟩ := h
  refine ⟨?_, ?_, hdone, fun a ha hr => ?_, ?_⟩
  · rw [State.setStep, State.rbit, State.rg_setRf_self, bitOf_setFld _ _ _ _ _ (by omega), if_neg (by omega)]
    exact hbit
  · exact posted_of_agree hpost rfl rfl rfl rfl rfl rfl (State.rg_setRf_ne _ _ _ _ (by decide))
  · rw [State.setStep, State.rg_setRf_ne _ _ _ _ (by simpa using ha), hregs a ha hr]
  · rw [State.setStep, State.setRf, hframe]; rfl

/-- The stop may be wanted besides. -/
theorem holdoverEnded.stopWanted {s t : State} (h : holdoverEnded s t) (b : Bool) :
    holdoverEnded s { t with clk := { t.clk with stopWanted := b } } := by
  obtain ⟨hbit, hpost, hdone, hregs, hframe⟩ := h
  refine ⟨hbit, hpost, hdone, hregs, ?_⟩
  rw [hframe]

theorem State.stepState_setStep (s : State) {v : Nat} (h : v < 4) : (s.setStep v).stepState = v := by
  rw [State.setStep, State.stepState, State.rf, State.rg_setRf_self, fld_setFld_self _ _ _ _ (by omega)]
  exact Nat.mod_eq_of_lt h

/-- Another root of a lower hall rank has been met: the role is given up for its link (R29). -/
def State.rootYields (s : State) (p : PortId) : State :=
  ((s.setRf Reg.htCtrl 0 1 0).setRf Reg.htParent 0 7 p.val).raise ⟨.tim, 2⟩ uDevice []

theorem State.rootYields_frame (s : State) (p : PortId) :
    s.rootYields p = { s with regs := (s.rootYields p).regs, evts := (s.rootYields p).evts, cat := (s.rootYields p).cat } := by
  unfold State.rootYields
  rw [State.raise_mild_eq _ _ _ (by decide)]
  rfl

theorem State.rg_rootYields (s : State) (p : PortId) {a : Nat} (h : ¬ reportReg a) :
    (s.rootYields p).rg a = ((s.setRf Reg.htCtrl 0 1 0).setRf Reg.htParent 0 7 p.val).rg a :=
  State.rg_raise _ _ _ _ h

theorem exec_rootConflict (s : State) (p : PortId) (rank : Fin 512) (hroot : s.isRoot = true) :
    exec (.rootConflict p rank) s = .next (if rank.val < s.rank then (s.rootYields p).parents else s) := by
  simp only [exec, execRootConflict, hroot, Bool.true_and, decide_eq_true_eq]
  rfl

theorem State.rootYields_posted (s : State) (p : PortId) : posted ⟨.tim, 2⟩ uDevice s (s.rootYields p).parents := by
  have h : posted ⟨.tim, 2⟩ uDevice s (s.rootYields p) := by
    refine posted_raise _ _ _ rfl ?_ rfl ?_ <;> rw [State.rg_setRf_ne _ _ _ _ (by decide), State.rg_setRf_ne _ _ _ _ (by decide)]
  have hcat : (s.rootYields p).parents.cat = (s.rootYields p).cat := by rw [State.parents_frame]
  exact posted_of_agree h rfl rfl rfl rfl (by rw [hcat]) (by rw [hcat]) (State.rg_parents _ (by decide) catLost_not_intReg)

/-- Settles O22: each command is a chain of operations whose effect on HT_STATUS and on the clock is known
(`State.parents_follow`, `State.rg_holdoverOver_status`, `State.rg_rootYields`). -/
theorem parentsHoldoverAndRoot : Obligations.ParentsHoldoverAndRoot := by
  unfold Obligations.ParentsHoldoverAndRoot
  refine ⟨fun s => ?_, fun s t0 hold hbit hdone hlim => ?_, fun s p rank hroot => ⟨fun hlow => ?_, fun hhigh => ?_⟩⟩
  · obtain ⟨h3, h1, hother⟩ := s.parents_follow
    refine ⟨s.parents, rfl, h3, h1, by rw [State.parents_frame], by rw [State.parents_frame], hother,
      fun a ha hi => s.rg_parents (by simpa using ha) hi, ?_⟩
    rw [State.parents_frame]
  · have hended := s.holdoverOver_ended
    have hstop : s.holdoverOver.clk.stopWanted = s.clk.stopWanted := by rw [s.holdoverOver_frame]
    rw [exec_holdoverLimitExpire hold hbit hdone hlim, State.stepState_holdoverOver]
    by_cases h0 : s.stepState = 0
    · rw [if_pos h0]
      obtain ⟨hal, hpost, hdone', hregs, hframe⟩ := hended.setStep 3
      exact ⟨_, rfl, hal, hpost, hdone', fun _ => ⟨State.stepState_setStep _ (by omega), hstop⟩, fun h => by omega,
        hregs, hframe⟩
    · rw [if_neg h0]
      by_cases h3 : s.stepState = 3
      · rw [if_pos h3]
        obtain ⟨hal, hpost, hdone', hregs, hframe⟩ := hended
        exact ⟨_, rfl, hal, hpost, hdone', fun h => absurd h h0, fun h => by omega, hregs, hframe⟩
      · rw [if_neg h3]
        obtain ⟨hal, hpost, hdone', hregs, hframe⟩ := hended.stopWanted true
        exact ⟨_, rfl, hal, hpost, hdone', fun h => absurd h h0, fun _ => ⟨s.stepState_holdoverOver, rfl⟩, hregs, hframe⟩
  · obtain ⟨h3, h1, hother⟩ := (s.rootYields p).parents_follow
    have hctrl (a : Nat) (ha : a ≠ Reg.htStatus) (hr : ¬ reportReg a) : (s.rootYields p).parents.rg a =
        ((s.setRf Reg.htCtrl 0 1 0).setRf Reg.htParent 0 7 p.val).rg a := by
      rw [State.rg_parents _ ha (fun h => hr (Or.inl h)), State.rg_rootYields _ _ hr]
    rw [exec_rootConflict s p rank hroot, if_pos hlow]
    refine ⟨_, rfl, ?_, ?_, s.rootYields_posted p, fun a ha hr => ?_, ?_⟩
    · rw [State.rbit, hctrl _ (by decide) (hallReg_not_reportReg (by decide) (by decide)),
        State.rg_setRf_ne _ _ _ _ (by decide), State.rg_setRf_self]
      exact bitOf_clear_self _ _ (by omega)
    · rw [State.rf, hctrl _ (by decide) (hallReg_not_reportReg (by decide) (by decide)), State.rg_setRf_self,
        fld_setFld_self _ _ _ _ (by omega)]
      exact Nat.mod_eq_of_lt p.isLt
    · simp only [List.mem_cons, List.not_mem_nil, or_false, not_or] at ha
      obtain ⟨hc, hp, hs⟩ := ha
      rw [hctrl a hs hr, State.rg_setRf_ne _ _ _ _ hp, State.rg_setRf_ne _ _ _ _ hc]
    · rw [State.parents_frame, State.rootYields_frame]
  · rw [exec_rootConflict s p rank hroot, if_neg (by omega)]

end Sys2Proof.Machine
end

section
/-! SUPPORT. TSYNC edges and pulses, TSTAMP records (O21). -/

namespace Sys2Proof.Machine

open Sys2Proof

-- Elaborated in turn, as above: the joined text's check has a memory limit.
set_option Elab.async false

/-! ### TSYNC (R21 to R23) -/

/-- An edge of TSYNC becomes the reference, while there is a period. -/
def State.withRef (s : State) (at_ : DWord) : State :=
  { s with clk := { s.clk with tsyncRef := if (s.rg Reg.htTsyncPeriod).toNat = 0 then none else some at_ } }

/-- An edge that gives the next tick the value HT_EPOCH (R21). -/
def State.edgeLoads (s : State) : State :=
  { s.setRf Reg.htCtrl 1 1 0 with clk := { s.clk with
      load := some (s.rg64 Reg.htEpochLo)
      tsyncRef := if (s.rg Reg.htTsyncPeriod).toNat = 0 then none else some (s.rg64 Reg.htEpochLo - 1) } }

/-- An edge that is reported with TIM-01 (R21, R22), once HT_CTRL is as in `u`. -/
def State.edgeReported (s u : State) : State :=
  { u.raise ⟨.tim, 1⟩ uDevice [] with clk := (s.withRef s.ht).clk }

theorem exec_tsyncEdge_armed {s : State} (hroot : s.isRoot = true) (harm : s.rbit Reg.htCtrl 1 = true) :
    exec .tsyncEdge s = .next (if s.ht.toNat + 1 ≤ (s.rg64 Reg.htEpochLo).toNat then s.edgeLoads
      else s.edgeReported (s.setRf Reg.htCtrl 1 1 0)) := by
  have hclk : ((s.setRf Reg.htCtrl 1 1 0).raise ⟨.tim, 1⟩ uDevice []).clk = s.clk := by simp
  simp only [exec, execTsyncEdge, hroot, harm, Bool.not_true, Bool.false_eq_true, if_false, if_true, hclk]
  split <;> rfl

theorem exec_tsyncEdge_checked {s : State} {r : DWord} (hroot : s.isRoot = true) (harm : ¬ s.rbit Reg.htCtrl 1 = true)
    (hper : (s.rg Reg.htTsyncPeriod).toNat ≠ 0) (href : s.clk.tsyncRef = some r) :
    exec .tsyncEdge s = .next (
      if r.toNat + (s.rg Reg.htTsyncPeriod).toNat ≤ s.ht.toNat + 1 ∧
        s.ht.toNat ≤ r.toNat + (s.rg Reg.htTsyncPeriod).toNat + 1
      then s.withRef s.ht else s.edgeReported s) := by
  have hclk : (s.raise ⟨.tim, 1⟩ uDevice []).clk = s.clk := by simp
  simp only [exec, execTsyncEdge, hroot, harm, hper, href, Bool.not_true, Bool.false_eq_true, if_false, hclk]
  by_cases hin : r.toNat + (s.rg Reg.htTsyncPeriod).toNat ≤ s.ht.toNat + 1 ∧
      s.ht.toNat ≤ r.toNat + (s.rg Reg.htTsyncPeriod).toNat + 1
  · rw [if_pos hin, if_neg (by omega), State.withRef, if_neg hper]
  · rw [if_neg hin, if_pos (by omega), State.edgeReported, State.withRef, if_neg hper]

/-- What a reported edge leaves, where HT_CTRL alone may have changed before. -/
theorem State.edgeReported_effect {s u : State} (hu : u = { s with regs := u.regs })
    (hregs : ∀ a, a ≠ Reg.htCtrl → u.rg a = s.rg a) :
    posted ⟨.tim, 1⟩ uDevice s (s.edgeReported u) ∧ (s.edgeReported u).clk = (s.withRef s.ht).clk ∧
    (∀ a, ¬ reportReg a → (s.edgeReported u).rg a = u.rg a) ∧
    s.edgeReported u = { s with
      regs := (s.edgeReported u).regs, evts := (s.edgeReported u).evts, cat := (s.edgeReported u).cat,
      clk := (s.edgeReported u).clk } := by
  refine ⟨?_, rfl, fun a ha => State.rg_raise u _ _ _ ha, ?_⟩
  · exact posted_of_agree (State.raise_posted u _ _ _) (by rw [hu]) (hregs _ (by decide)) (by rw [hu]) (hregs _ (by decide))
      rfl rfl rfl
  · unfold State.edgeReported
    rw [State.raise_mild_eq _ _ _ (by decide), hu]

/-- HT_CTRL once ARM is cleared: every other register is as it was. -/
theorem State.rg_disarmed (s : State) {a : Nat} (h : a ≠ Reg.htCtrl) : (s.setRf Reg.htCtrl 1 1 0).rg a = s.rg a :=
  State.rg_setRf_ne s _ _ _ h

theorem State.rbit_disarmed (s : State) : (s.setRf Reg.htCtrl 1 1 0).rbit Reg.htCtrl 1 = false := by
  rw [State.rbit, State.rg_setRf_self]
  exact bitOf_clear_self _ _ (by omega)

/-- A driven device at a multiple of the period sends a pulse of 8 tk (R23). -/
theorem exec_tsyncPulse {s : State} (hdrv : s.plt.driven = true) (hper : s.rg Reg.htTsyncPeriod ≠ 0)
    (hat : s.atMultiple (s.rg Reg.htTsyncPeriod).toNat = true) :
    exec .tsyncPulse s = .next { s with out := .tsync :: s.out, plt := { s.plt with syncTil := s.ht + 8 } } := by
  have hne : ((s.rg Reg.htTsyncPeriod).toNat != 0) = true := by
    simpa [bne_iff_ne] using fun h => hper (BitVec.eq_of_toNat_eq h)
  simp only [exec, execTsyncPulse, hdrv, hne, hat, Bool.and_self, if_true]
  rfl

/-! ### TSTAMP records (R313, R25, R27) -/

/-- The record that a port sends. -/
def State.stampOf (s : State) (p : PortId) : Out := .tstamp p (s.ht * 16) (s.pt p).stT3 (s.pt p).stT4

/-- Sending one port after the other. -/
theorem State.foldl_stamps (s : State) (l : List PortId) (o : List Out) :
    l.foldl (fun (t : State) (p : PortId) =>
      if t.isFabric p && (t.pt p).locked then t.emit (.tstamp p (t.ht * 16) (t.pt p).stT3 (t.pt p).stT4) else t)
      { s with out := o } =
    { s with out := ((l.filter (fun p => s.isFabric p && (s.pt p).locked)).map s.stampOf).reverse ++ o } := by
  induction l generalizing o with
  | nil => rfl
  | cons p l ih =>
    rw [List.foldl_cons]
    change l.foldl _ (if s.isFabric p && (s.pt p).locked then { s with out := s.stampOf p :: o } else { s with out := o }) = _
    by_cases h : (s.isFabric p && (s.pt p).locked) = true
    · rw [if_pos h, ih]
      simp [h]
    · rw [if_neg h, ih]
      simp [h]

theorem exec_tstampSend {s : State} (h : s.atMultiple 4096 = true) :
    exec .tstampSend s = .next { s with
      out := ((allPorts.filter (fun p => s.isFabric p && (s.pt p).locked)).map s.stampOf).reverse ++ s.out } := by
  simp only [exec, execTstampSend, h, if_true]
  rw [← s.foldl_stamps allPorts s.out]

/-- HT_OFFSET and the slew of a measured offset, before ALIGNED (R25). -/
def State.withOffset (s : State) (off : Int) : State :=
  { s.setRg Reg.htOffset (BitVec.ofInt 32 (off / 16)) with clk := { s.clk with slewBy := off / 16 } }

theorem State.offsetMeasured_eq (s : State) (off : Int) :
    s.offsetMeasured off =
      if off.natAbs ≤ 16 then (s.withOffset off).setAligned true
      else if s.rbit Reg.htStatus 0 then ((s.withOffset off).setAligned false).raise ⟨.tim, 8⟩ uDevice []
      else s.withOffset off := by
  have hbit : (s.withOffset off).rbit Reg.htStatus 0 = s.rbit Reg.htStatus 0 := by
    unfold State.rbit; rw [State.withOffset]; exact congrArg (bitOf · 0) (State.rg_setRg_ne s _ (by decide))
  rw [← hbit]; rfl

theorem State.rg_withOffset (s : State) (off : Int) {a : Nat} (h : a ≠ Reg.htOffset) : (s.withOffset off).rg a = s.rg a :=
  State.rg_setRg_ne s _ h

/-- A measured offset, an ALIGNED that follows it and the report of its end. -/
theorem State.rg_offsetMeasured (s : State) (off : Int) {a : Nat} (ha : a ≠ Reg.htStatus) (hr : ¬ reportReg a) :
    (s.offsetMeasured off).rg a = (s.withOffset off).rg a := by
  have hi : ¬ intReg a := fun h => hr (Or.inl h)
  rw [State.offsetMeasured_eq]
  split
  · exact State.rg_setAligned _ _ ha hi
  · split
    · rw [State.rg_raise _ _ _ _ hr, State.rg_setAligned _ _ ha hi]
    · rfl

theorem State.offsetMeasured_frame (s : State) (off : Int) :
    s.offsetMeasured off = { s with
      regs := (s.offsetMeasured off).regs, evts := (s.offsetMeasured off).evts, out := (s.offsetMeasured off).out,
      clk := (s.offsetMeasured off).clk, cat := (s.offsetMeasured off).cat } ∧
    (s.offsetMeasured off).clk.slewBy = off / 16 := by
  rw [State.offsetMeasured_eq]
  split
  · rw [State.setAligned_frame]; exact ⟨rfl, rfl⟩
  · split
    · rw [State.raise_mild_eq _ _ _ (by decide), State.setAligned_frame]; exact ⟨rfl, rfl⟩
    · exact ⟨rfl, rfl⟩

/-- ALIGNED follows a measured offset (R27). -/
theorem State.offsetMeasured_aligned (s : State) (off : Int) :
    (s.offsetMeasured off).rbit Reg.htStatus 0 = decide (off.natAbs ≤ 16) := by
  have hst : (s.withOffset off).rg Reg.htStatus = s.rg Reg.htStatus := s.rg_withOffset off (by decide)
  rw [State.offsetMeasured_eq, State.rbit]
  split
  · next h => rw [State.rg_setAligned_status, bitOf_setFld_b2n _ _ (by omega)]; simp [h]
  · next h =>
    split
    · rw [State.rg_raise _ _ _ _ (hallReg_not_reportReg (by decide) (by decide)), State.rg_setAligned_status,
        bitOf_setFld_b2n _ _ (by omega)]
      simp [h]
    · next hb => rw [hst, ← State.rbit]; simp [h, hb]

/-- ALIGNED that ends is reported (R27). -/
theorem State.offsetMeasured_posted (s : State) {off : Int} (hoff : 16 < off.natAbs) (hbit : s.rbit Reg.htStatus 0 = true) :
    posted ⟨.tim, 8⟩ uDevice s (s.offsetMeasured off) := by
  rw [State.offsetMeasured_eq, if_neg (by omega), if_pos hbit]
  refine posted_raise _ _ _ ?_ ?_ ?_ ?_
  · rw [State.setAligned_frame]; rfl
  · rw [State.rg_setAligned _ _ (by decide) (not_intReg (by decide)), State.rg_withOffset _ _ (by decide)]
  · rw [State.setAligned_false, State.htBit_frame]; rfl
  · rw [State.rg_setAligned _ _ (by decide) catLost_not_intReg, State.rg_withOffset _ _ (by decide)]

/-- A port once it has taken a TSTAMP record: the round trip, and what its next record echoes. -/
def State.stamped (s : State) (p : PortId) (t3 t1 t2 t4 : DWord) : State :=
  s.modPt p (fun x => { x with stT3 := t3, stT4 := t4, rtt := (t4 - t1) - (t3 - t2) })

/-- The offset from the partner in 1/16 tk that a TSTAMP record gives (R313). -/
def State.stampOffset (s : State) (p : PortId) (t3 t1 t2 t4 : DWord) : Int :=
  (((t2 - t1) - (t4 - t3)).toInt - signed 16 (s.rf (Reg.prtAsym p.val) 0 16)) / 2

theorem exec_tstampRecord {s : State} {p : PortId} (t3 t1 t2 t4 : DWord) (hfab : s.isFabric p = true)
    (hlock : (s.pt p).locked = true) :
    exec (.tstampRecord p t3 t1 t2 t4) s = .next (if s.parentPort = some p ∧ s.parentUp p = true then
      (s.stamped p t3 t1 t2 t4).offsetMeasured (s.stampOffset p t3 t1 t2 t4) else s.stamped p t3 t1 t2 t4) := by
  simp only [exec, execTstampRecord, State.tstampRec, hfab, hlock, Bool.and_self, Bool.not_true, Bool.false_eq_true, if_false]
  rfl

/-- Settles O21: an edge loads, is reported or becomes the reference (`exec_tsyncEdge_armed`, `exec_tsyncEdge_checked`); a
record at the parent in use is a measured offset (`State.offsetMeasured_eq`). -/
theorem timeSignals : Obligations.TimeSignals := by
  unfold Obligations.TimeSignals
  refine ⟨fun s hroot => ⟨fun harm hle => ?_, fun harm hlt => ?_, fun harm hper r href => ?_⟩,
    fun s => ⟨exec_tsyncPulse, fun hat => ⟨_, exec_tstampSend hat, rfl, rfl⟩⟩,
    fun s p t3 t1 t2 t4 hfab hlock => ?_⟩
  · rw [exec_tsyncEdge_armed hroot harm, if_pos hle]
    exact ⟨_, rfl, rfl, s.rbit_disarmed, fun a ha => s.rg_disarmed (by simpa using ha), rfl⟩
  · obtain ⟨hpost, hclk, hregs, hframe⟩ :=
      State.edgeReported_effect (u := s.setRf Reg.htCtrl 1 1 0) rfl (fun _ => s.rg_disarmed)
    rw [exec_tsyncEdge_armed hroot harm, if_neg (by omega)]
    refine ⟨_, rfl, ?_, hpost, hclk, fun a ha hr => ?_, hframe⟩
    · rw [State.rbit, hregs _ (hallReg_not_reportReg (by decide) (by decide))]
      exact s.rbit_disarmed
    · rw [hregs a hr, s.rg_disarmed (by simpa using ha)]
  · obtain ⟨hpost, hclk, hregs, hframe⟩ := State.edgeReported_effect (s := s) (u := s) rfl (fun _ _ => rfl)
    rw [exec_tsyncEdge_checked hroot harm hper href]
    by_cases hin : r.toNat + (s.rg Reg.htTsyncPeriod).toNat ≤ s.ht.toNat + 1 ∧
        s.ht.toNat ≤ r.toNat + (s.rg Reg.htTsyncPeriod).toNat + 1
    · rw [if_pos hin]
      exact ⟨_, rfl, rfl, rfl, fun _ => ⟨rfl, rfl⟩, fun hout => absurd hin hout⟩
    · rw [if_neg hin]
      exact ⟨_, rfl, hclk, hframe, fun hin' => absurd hin' hin, fun _ => ⟨hpost, fun a _ hr => hregs a hr⟩⟩
  · have hpt : (s.stamped p t3 t1 t2 t4).pt p = { s.pt p with stT3 := t3, stT4 := t4, rtt := (t4 - t1) - (t3 - t2) } :=
      s.pt_modPt_self p _
    have hports : portsBut p s (s.stamped p t3 t1 t2 t4) := fun q hq => s.pt_modPt_ne _ hq
    rw [exec_tstampRecord t3 t1 t2 t4 hfab hlock]
    split
    · next hpar =>
      obtain ⟨hframe, hslew⟩ := (s.stamped p t3 t1 t2 t4).offsetMeasured_frame (s.stampOffset p t3 t1 t2 t4)
      have hprt : ((s.stamped p t3 t1 t2 t4).offsetMeasured (s.stampOffset p t3 t1 t2 t4)).prt =
          (s.stamped p t3 t1 t2 t4).prt := by rw [hframe]
      refine ⟨_, rfl, ?_, fun q hq => ?_, ?_, fun a ha hr => ?_, fun hnot => absurd hpar hnot, fun _ => ⟨?_, hslew,
        State.offsetMeasured_aligned _ _, fun hoff hbit => ?_⟩⟩
      · rw [State.pt, hprt]; exact hpt
      · rw [State.pt, hprt]; exact hports q hq
      · rw [hframe]; rfl
      · simp only [List.mem_cons, List.not_mem_nil, or_false, not_or] at ha
        rw [State.rg_offsetMeasured _ _ ha.2 hr, State.rg_withOffset _ _ ha.1]; rfl
      · rw [State.rg_offsetMeasured _ _ (by decide) (hallReg_not_reportReg (by decide) (by decide))]
        exact State.rg_setRg_self _ _ _
      · exact posted_of_agree (State.offsetMeasured_posted (s.stamped p t3 t1 t2 t4) hoff hbit) rfl rfl rfl rfl rfl rfl rfl
    · next hnot =>
      exact ⟨_, rfl, hpt, hports, rfl, fun _ _ _ => rfl, fun _ => rfl, fun hpar => absurd hpar hnot⟩

end Sys2Proof.Machine
end

section
/-! SUPPORT. The Closing, its drain and its overrun (O23). -/

namespace Sys2Proof.Machine

open Sys2Proof

-- Elaborated in turn, as above: the joined text's check has a memory limit.
set_option Elab.async false

/-! ### The membership tick (R159, R160) -/

/-- What fixing the membership of buckets leaves alone: stations, ports, DRAM and the clock, and every register but
CRS_RED_LATE, the EXCL flag of CRS_RED_STATUS, DEADLINE_EXCL and what is pending. -/
structure State.membersFixed (s t : State) : Prop where
  stn : t.stn = s.stn
  prt : t.prt = s.prt
  dram : t.dram = s.dram
  ht : t.ht = s.ht
  clk : t.clk = s.clk
  plt : t.plt = s.plt
  regs : ∀ a, a ∉ [Reg.crsRedLate, Reg.crsRedStatus, Reg.htStepFlags] → ¬ intReg a → t.rg a = s.rg a

theorem State.membersFixed.refl (s : State) : s.membersFixed s := ⟨rfl, rfl, rfl, rfl, rfl, rfl, fun _ _ _ => rfl⟩

theorem State.membersFixed.trans {s t u : State} (h : s.membersFixed t) (k : t.membersFixed u) : s.membersFixed u :=
  ⟨k.stn.trans h.stn, k.prt.trans h.prt, k.dram.trans h.dram, k.ht.trans h.ht, k.clk.trans h.clk, k.plt.trans h.plt,
    fun a ha hi => (k.regs a ha hi).trans (h.regs a ha hi)⟩

theorem State.membersFixed_setBkt (s : State) (b : Bucket) : s.membersFixed (s.setBkt b) :=
  ⟨rfl, rfl, rfl, rfl, rfl, rfl, fun _ _ _ => rfl⟩

theorem State.membersFixed_addSat (s : State) (n : Nat) : s.membersFixed (s.addSat Reg.crsRedLate n) := by
  refine ⟨by simp, by simp, by simp, by simp, by simp, by simp, fun a ha _ => State.rg_addSat_ne _ _ ?_⟩
  exact fun e => ha (by simp [e])

theorem State.membersFixed_exclFlags (s : State) : s.membersFixed s.exclFlags := by
  unfold State.exclFlags State.redStatus
  refine ⟨by simp, by simp, by simp, by simp, by simp, by simp, fun a ha hi => ?_⟩
  rw [State.rg_setStatus _ (by omega) hi (fun e => ha (by simp [e])), State.stepFlag,
    State.rg_setStatus _ (by omega) hi (fun e => ha (by simp [e]))]

theorem State.membersFixed_fixM (s : State) (b : Bucket) : s.membersFixed (s.fixM b) := by
  unfold State.fixM
  dsimp only
  split
  · exact s.membersFixed_setBkt _
  · exact ((s.membersFixed_setBkt _).trans (State.membersFixed_addSat _ _)).trans (State.membersFixed_exclFlags _)

/-! ### Step state and period -/

/-- HT_STATUS once STEP_STATE has taken a value: the other fields stand. -/
theorem State.rbit_setStep (s : State) (v : Nat) {i : Nat} (h : i < 4) :
    (s.setStep v).rbit Reg.htStatus i = s.rbit Reg.htStatus i := by
  rw [State.setStep, State.rbit, State.rg_setRf_self, bitOf_setFld _ _ _ _ _ (by omega), if_neg (by omega)]
  rfl

theorem State.rg_setStep_ne (s : State) (v : Nat) {a : Nat} (h : a ≠ Reg.htStatus) : (s.setStep v).rg a = s.rg a :=
  State.rg_setRf_ne s _ _ _ h

/-- A register pair advances by the period, when there is one (R40). -/
theorem State.addPeriod_eq (s : State) (a : Nat) :
    s.addPeriod a = if (s.rg Reg.htStepPeriod).toNat = 0 then s
      else s.setRg64 a (s.rg64 a + dword (s.rg Reg.htStepPeriod).toNat) := rfl

theorem add_dword_zero (x : DWord) : x + dword 0 = x := BitVec.add_zero x

theorem State.rg64_addPeriod_self (s : State) (a : Nat) :
    (s.addPeriod a).rg64 a = s.rg64 a + dword (s.rg Reg.htStepPeriod).toNat := by
  rw [State.addPeriod_eq]
  split
  · next h => rw [h, add_dword_zero]
  · exact State.rg64_setRg64_self _ _ _

theorem State.rg_addPeriod_ne (s : State) {a b : Nat} (h : b ≠ a) (h' : b ≠ a + 4) : (s.addPeriod a).rg b = s.rg b := by
  rw [State.addPeriod_eq]
  split
  · rfl
  · exact State.rg_setRg64_ne _ _ h h'

theorem State.addPeriod_frame (s : State) (a : Nat) :
    s.addPeriod a = { s with regs := (s.addPeriod a).regs, evts := (s.addPeriod a).evts } := by
  rw [State.addPeriod_eq]
  split
  · rfl
  · apply State.eq_of <;> simp

/-- A register pair of which neither half has changed. -/
theorem State.rg64_of_rg {s t : State} {a : Nat} (hlo : t.rg a = s.rg a) (hhi : t.rg (a + 4) = s.rg (a + 4)) :
    t.rg64 a = s.rg64 a := by
  rw [State.rg64, State.rg64, hlo, hhi]

/-! ### Closing begins -/

/-- An open step once it begins to close, before the memberships that the close tick fixes (R34, R40). -/
def State.closing (s : State) : State :=
  { (s.setStep 2).addPeriod Reg.htStepCloseLo with clk := { s.clk with closeAt := some s.ht, overrun := false } }

theorem State.rg_closing_status (s : State) : s.closing.rg Reg.htStatus = (s.setStep 2).rg Reg.htStatus :=
  State.rg_addPeriod_ne _ (by decide) (by decide)

theorem State.rg_closing (s : State) {a : Nat} (hs : a ≠ Reg.htStatus) (hlo : a ≠ Reg.htStepCloseLo)
    (hhi : a ≠ Reg.htStepCloseHi) : s.closing.rg a = s.rg a :=
  (State.rg_addPeriod_ne _ hlo hhi).trans (s.rg_setStep_ne 2 hs)

theorem State.rg64_closing (s : State) :
    s.closing.rg64 Reg.htStepCloseLo = s.rg64 Reg.htStepCloseLo + dword (s.rg Reg.htStepPeriod).toNat := by
  have h := (s.setStep 2).rg64_addPeriod_self Reg.htStepCloseLo
  rwa [State.rg64_of_rg (s.rg_setStep_ne 2 (by decide)) (s.rg_setStep_ne 2 (by decide)), s.rg_setStep_ne 2 (by decide)] at h

theorem State.closing_frame (s : State) :
    s.closing = { s with regs := s.closing.regs, evts := s.closing.evts, clk := s.closing.clk } := by
  unfold State.closing
  rw [State.addPeriod_frame]
  rfl

/-- The membership of a bucket that the close tick fixes, if it is open yet. -/
def State.fixOpen (t : State) (e : Nat × Bucket) : State :=
  match t.bkt e.1 with
  | some b => if b.st = .open_ && b.m.isNone then t.fixM b else t
  | none => t

theorem exec_closingBegin {s : State} (hopen : s.stepState = 1) (hat : (s.rg64 Reg.htStepCloseLo).toNat ≤ s.ht.toNat) :
    ∃ t, exec .closingBegin s = .next t ∧ s.closing.membersFixed t := by
  have hclk : ((s.setStep 2).addPeriod Reg.htStepCloseLo).clk = s.clk := by rw [State.addPeriod_frame]; rfl
  refine ⟨s.closing.buckets.foldl State.fixOpen s.closing, ?_, ?_⟩
  · simp only [exec, execClosingBegin, hopen, hat, and_self, if_true, hclk]
    rfl
  refine foldl_inv s.closing.membersFixed _ (fun t e h => ?_) _ _ (State.membersFixed.refl _)
  unfold State.fixOpen
  split
  · split
    · exact h.trans (t.membersFixed_fixM _)
    · exact h
  · exact h

/-! ### Its end -/

/-- A drained Closing once it ends, before STEP_STATE takes its value (R36, R194). -/
def State.closed (s : State) : State :=
  { s with
    clk := { s.clk with closeAt := none, stopWanted := false }
    cur := { s.cur with
      optDue := s.cur.optDue ++ [s.stepCur], moeDue := s.cur.moeDue ++ [s.stepCur], closed := some s.stepCur } }

theorem exec_drainComplete {s : State} (hclosing : s.stepState = 2) (hdrained : s.drained = true) :
    exec .drainComplete s = .next (s.closed.setStep (if s.clk.stopWanted = true ∨ s.holding = true then 3 else 0)) := by
  simp only [exec, execDrainComplete, hclosing, hdrained, and_self, if_true, Bool.or_eq_true]
  split <;> rfl

/-- CLOSE_OVERRUN is set and TIM-04 raised (R37). -/
def State.overran (s : State) : State :=
  (({ s with clk := { s.clk with overrun := true } } : State).stepFlag 2).raise ⟨.tim, 4⟩ uDevice []

theorem exec_closeOverrun {s : State} {c : DWord} (hclose : s.clk.closeAt = some c) (hclosing : s.stepState = 2)
    (hdrained : s.drained = false) (hlimit : c.toNat + (s.rg Reg.htCloseLimit).toNat ≤ s.ht.toNat) :
    exec .closeOverrun s = .next (if s.clk.overrun = true then s else s.overran) := by
  simp only [exec, execCloseOverrun, hclose, hclosing, hdrained, hlimit, Bool.not_false, and_true, true_and,
    Bool.not_eq_true', State.overran]
  cases s.clk.overrun <;> simp only [if_true, if_false, Bool.false_eq_true, Bool.true_eq_false]

theorem State.overran_frame (s : State) :
    s.overran = { s with
      regs := s.overran.regs, evts := s.overran.evts, out := s.overran.out, clk := { s.clk with overrun := true },
      cat := s.overran.cat } := by
  unfold State.overran
  rw [State.raise_mild_eq _ _ _ (by decide)]
  apply State.eq_of <;> simp

/-- Settles O23: the close tick changes STEP_STATE and the close tick's pair, then only what a fixed membership may
(`State.membersFixed`); a drained Closing and an overrun change what their equations say. -/
theorem closingDrainAndOverrun : Obligations.ClosingDrainAndOverrun := by
  unfold Obligations.ClosingDrainAndOverrun
  refine ⟨fun s hopen hat => ?_, fun s hclosing hdrained => ?_,
    fun s c hclose hclosing hdrained hlimit => ⟨fun hover => ?_, fun hover => ?_⟩⟩
  · obtain ⟨t, ht, h⟩ := exec_closingBegin hopen hat
    have hframe := s.closing_frame
    refine ⟨t, ht, ?_, by rw [h.clk]; rfl, ?_, fun a ha hr => ?_, ?_, ?_, ?_, ?_⟩
    · rw [State.stepState, State.rf, h.regs _ (by decide) (not_intReg (by decide)), State.rg_closing_status]
      exact s.stepState_setStep (by omega)
    · rw [← s.rg64_closing]
      exact State.rg64_of_rg (h.regs _ (by decide) (not_intReg (by decide))) (h.regs _ (by decide) (not_intReg (by decide)))
    · simp only [List.mem_cons, List.not_mem_nil, or_false, not_or] at ha
      obtain ⟨hs, hlo, hhi, hlate, hred, hflags⟩ := ha
      rw [h.regs a (by simp [hlate, hred, hflags]) (fun hi => hr (Or.inl hi)), s.rg_closing hs hlo hhi]
    · rw [h.stn, hframe]
    · rw [h.prt, hframe]
    · rw [h.dram, hframe]
    · rw [h.ht, hframe]
  · rw [exec_drainComplete hclosing hdrained]
    exact ⟨_, rfl, State.stepState_setStep _ (by split <;> omega), rfl,
      fun a ha => State.rg_setStep_ne _ _ (by simpa using ha), rfl, fun i hi => State.rbit_setStep _ _ hi, rfl⟩
  · rw [exec_closeOverrun hclose hclosing hdrained hlimit, if_neg (by simp [hover])]
    refine ⟨s.overran, rfl, ?_, ?_, ?_, fun a ha hr => ?_, ?_⟩
    · rw [State.rbit, State.overran, State.rg_raise _ _ _ _ (hallReg_not_reportReg (by decide) (by decide)), State.stepFlag,
        State.rg_setStatus_self _ (by omega) (not_intReg (by decide))]
      exact bitOf_set_self _ _ (by omega)
    · rw [s.overran_frame]
    · refine posted_raise _ _ _ (by simp) ?_ (by simp) ?_
      · exact State.rg_setStatus _ (by omega) (not_intReg (by decide)) (by decide)
      · exact State.rg_setStatus _ (by omega) catLost_not_intReg (by decide)
    · rw [State.overran, State.rg_raise _ _ _ _ hr, State.stepFlag,
        State.rg_setStatus _ (by omega) (fun hi => hr (Or.inl hi)) (by simpa using ha)]
      rfl
    · rw [s.overran_frame]
  · rw [exec_closeOverrun hclose hclosing hdrained hlimit, if_pos hover]

end Sys2Proof.Machine
end

section
/-! SUPPORT. What reports, stations and reductions leave alone of hall time. -/

namespace Sys2Proof.Machine

open Sys2Proof

-- Elaborated in turn, as above: the joined text's check has a memory limit.
set_option Elab.async false

/-! ### What the stations, the reports and the reductions leave alone of hall time

A frame of a bucket that is tried again may halt a station, fence it, take its ports down and raise codes. None of this
changes HT, the Plinth or a register of the device below the Crossing's, but for what a report touches and HT_STEP_FLAGS. -/

/-- A register that only hall time, the Plinth, a transaction or the host writes. -/
def hallReg (a : Nat) : Prop := a < 0x100000 ∧ a ≠ Reg.htStepFlags ∧ ¬ reportReg a

theorem hallReg.not_intReg {a : Nat} (h : hallReg a) : ¬ intReg a := fun hi => h.2.2 (Or.inl hi)

theorem hallReg.ne_of_le {a b : Nat} (h : hallReg a) (hb : 0x100000 ≤ b) : a ≠ b := by
  have := h.1
  omega

theorem hallReg_of_hall {a : Nat} (h : 0x10000 ≤ a) (h' : a < 0x30000) (hf : a ≠ Reg.htStepFlags) : hallReg a :=
  ⟨by omega, hf, hallReg_not_reportReg h h'⟩

/-- No register of a station is one of them. -/
theorem stnReg_high (n off : Nat) : 0x100000 ≤ 0x1000000 + 0x40000 * n + off := by omega

/-- HT, the Plinth and the registers of hall time are as they were. -/
structure hallKept (s t : State) : Prop where
  ht : t.ht = s.ht
  plt : t.plt = s.plt
  regs : ∀ a, hallReg a → t.rg a = s.rg a

section
variable {s t u : State}

theorem hallKept.refl (s : State) : hallKept s s := ⟨rfl, rfl, fun _ _ => rfl⟩

theorem hallKept.trans (h : hallKept s t) (k : hallKept t u) : hallKept s u :=
  ⟨k.ht.trans h.ht, k.plt.trans h.plt, fun a ha => (k.regs a ha).trans (h.regs a ha)⟩

/-- A change outside HT, the Plinth and the registers. -/
theorem hallKept.same (h : hallKept s t) (hht : u.ht = t.ht) (hplt : u.plt = t.plt) (hregs : u.regs = t.regs) :
    hallKept s u :=
  h.trans ⟨hht, hplt, fun a _ => State.rg_congr hregs a⟩

theorem hallKept.foldl {β : Type} (f : State → β → State) (hf : ∀ t b, hallKept s t → hallKept s (f t b)) (l : List β)
    (h : hallKept s t) : hallKept s (l.foldl f t) := foldl_inv (hallKept s) f hf l t h

/-! #### Registers, stations, ports -/

theorem hallKept.setRg (h : hallKept s t) {a : Nat} (ha : 0x100000 ≤ a) (v : Word) : hallKept s (t.setRg a v) :=
  h.trans ⟨rfl, rfl, fun _ hb => State.rg_setRg_ne t v (hb.ne_of_le ha)⟩

theorem hallKept.setRf (h : hallKept s t) {a : Nat} (ha : 0x100000 ≤ a) (lo n v : Nat) : hallKept s (t.setRf a lo n v) :=
  h.setRg ha _

theorem hallKept.addSat (h : hallKept s t) {a : Nat} (ha : 0x100000 ≤ a) (n : Nat) : hallKept s (t.addSat a n) :=
  h.trans ⟨rfl, rfl, fun _ hb => State.rg_addSat_ne t n (hb.ne_of_le ha)⟩

theorem hallKept.inc (h : hallKept s t) {a : Nat} (ha : 0x100000 ≤ a) : hallKept s (t.inc a) := h.addSat ha 1

theorem hallKept.setStatus (h : hallKept s t) {a v : Nat} (ha : 0x100000 ≤ a) (i : Nat) (hv : v < 256) :
    hallKept s (t.setStatus a i v) :=
  h.trans ⟨by simp, by simp, fun _ hb => State.rg_setStatus t hv hb.not_intReg (hb.ne_of_le ha)⟩

theorem hallKept.vector (h : hallKept s t) {v : Nat} (hv : v < 256) : hallKept s (t.vector v) :=
  h.trans ⟨by simp, by simp, fun _ hb => State.rg_vector t hv hb.not_intReg⟩

theorem hallKept.modSt (h : hallKept s t) (n : StnId) (f : Stn → Stn) : hallKept s (t.modSt n f) := h.same rfl rfl rfl

theorem hallKept.raise (h : hallKept s t) (c : Code) (u : UnitId) (x : List Word) : hallKept s (t.raise c u x) :=
  h.trans ⟨by simp, by simp, fun _ hb => State.rg_raise t c u x hb.2.2⟩

theorem hallKept.raiseOnce (h : hallKept s t) (c : Code) (u : UnitId) (k : Nat) (x : List Word) :
    hallKept s (t.raiseOnce c u k x) :=
  h.trans ⟨by simp, by simp, fun _ hb => State.rg_raiseOnce t c u k x hb.2.2⟩

theorem scoreReg_uStn (n : StnId) : reportReg (scoreReg (uStn n)) := by
  right; right; right; left
  have := n.isLt
  simp only [scoreReg, uStn, Reg.catCondStn, Reg.catCondOpt]
  omega

theorem hallReg.ne_scoreReg {a : Nat} (h : hallReg a) (n : StnId) : a ≠ scoreReg (uStn n) :=
  fun e => h.2.2 (e ▸ scoreReg_uStn n)

theorem hallKept.scoreRise (h : hallKept s t) (n : StnId) (bit thr level : Nat) :
    hallKept s (t.scoreRise (uStn n) bit thr level) := by
  refine h.trans ⟨by simp, by simp, fun a ha => ?_⟩
  unfold State.scoreRise
  dsimp only
  split
  · rw [State.rg_curEvent _ (by omega) ha.2.2, State.rg_raise _ _ _ _ ha.2.2, State.rg_setRf_ne _ _ _ _ (ha.ne_scoreReg n)]
  · rfl

theorem hallKept.addScore (h : hallKept s t) (n : StnId) (w : Nat) : hallKept s (t.addScore (uStn n) w) := by
  have hset (v : Nat) : hallKept s (t.setRf (scoreReg (uStn n)) 0 16 v) :=
    h.trans ⟨rfl, rfl, fun _ ha => State.rg_setRf_ne _ _ _ _ (ha.ne_scoreReg n)⟩
  exact ((hset _).scoreRise n _ _ _).scoreRise n _ _ _

theorem hallKept.closeWindows (h : hallKept s t) (u : UnitId) (p : Code → Bool) : hallKept s (t.closeWindows u p) :=
  h.trans ⟨by simp, by simp, fun _ _ => State.rg_closeWindows t u p _⟩

theorem hallKept.portDown (h : hallKept s t) (p : PortId) : hallKept s (t.portDown p) :=
  h.trans ⟨by simp, by simp, fun _ hb => State.rg_portDown t p hb.2.2⟩

theorem hallKept.of_dropsOnly (h : hallKept s t) (k : dropsOnly t u) : hallKept s u :=
  h.trans ⟨by rw [k.1], by rw [k.1], fun a _ => k.rg a⟩

theorem hallKept.landAll (h : hallKept s t) (n : StnId) : hallKept s (t.landAll n) := by
  obtain ⟨hframe, _, hregs, _⟩ := landsOnly.landAll t n
  refine h.trans ⟨by rw [hframe], by rw [hframe], fun a ha => hregs a ha.2.2 ?_⟩
  simp only [List.mem_cons, List.not_mem_nil, or_false, not_or]
  exact ⟨ha.ne_of_le (stnReg_high _ _), ha.ne_of_le (stnReg_high _ _), ha.ne_of_le (stnReg_high _ _)⟩

/-! #### A station that halts -/

theorem hallKept.fence (h : hallKept s t) (n : StnId) : hallKept s (t.fence n) := by
  have hn := n.isLt
  have hdropped (l : List VoqFrame) (k : Nat) :
      hallKept s (l.foldl (fun u f => u.dropFrame n f) ((t.landAll n).addSat (Reg.stnDiscarded n.val) k)) :=
    ((h.landAll n).addSat (stnReg_high _ _) k).foldl _ (fun u f hu => hu.of_dropsOnly (dropsOnly.dropFrame u n f)) l
  have hcleared {v : State} (hv : hallKept s v) (f : Stn → Stn) :
      hallKept s (((((v.dropLupin n).modSt n f).portDown (portId (2 * n.val))).portDown (portId (2 * n.val + 1))).closeWindows
        (uStn n) (fun _ => true)) :=
    (((((hv.addSat (stnReg_high _ _) _).modSt n _).modSt n f).portDown _).portDown _).closeWindows _ _
  exact (hcleared (hdropped _ _) _).vector (by omega)

theorem hallKept.escalate (h : hallKept s t) (n : StnId) (c : Code) : hallKept s (t.escalate n c) := by
  unfold State.escalate
  dsimp only
  split
  · exact (h.fence n).raise _ _ _
  · exact h

theorem hallKept.freezeFault (h : hallKept s t) (n : StnId) : hallKept s (t.freezeFault n) := by
  refine h.trans ⟨?_, ?_, fun a ha => State.rg_freezeFault t n ?_⟩
  · unfold State.freezeFault; split <;> simp
  · unfold State.freezeFault; split <;> simp
  · simp only [freezeRegs, List.mem_cons, List.not_mem_nil, or_false, not_or]
    exact ⟨ha.ne_of_le (stnReg_high _ _), ha.ne_of_le (stnReg_high _ _),
      ha.ne_of_le (Nat.le_add_right_of_le (stnReg_high _ _)), ha.ne_of_le (stnReg_high _ _), ha.ne_of_le (stnReg_high _ _),
      ha.ne_of_le (stnReg_high _ _), ha.ne_of_le (stnReg_high _ _)⟩

theorem hallKept.openWindow (h : hallKept s t) (u : UnitId) (e : Nat) (c : Code) : hallKept s (t.openWindow u e c) :=
  h.trans ⟨by simp, by simp, fun _ _ => State.rg_openWindow t u e c _⟩

theorem hallKept.haltBy (h : hallKept s t) (n : StnId) (c : Code) (th : Option TH) (x : List Word) :
    hallKept s (t.haltBy n c th x) := by
  have hn := n.isLt
  have key : ∀ v : State, hallKept s v → hallKept s (if (t.st n).st = .halted then
        (if v.rbit (Reg.stnCutStat n.val) 0 then v.setRf (Reg.stnCutStat n.val) 2 1 1 else v).raise c (uStn n) x
      else if (t.st n).st = .fenced then v.raise c (uStn n) x
      else ((((((v.freezeFault n).landAll n).modSt n Stn.fall).raise c (uStn n) x).openWindow (uStn n) v.cat.eid c).vector
        n.val).escalate n c) := by
    intro v hv
    split
    · refine hallKept.raise ?_ _ _ _
      split
      · exact hv.setRf (stnReg_high _ _) _ _ _
      · exact hv
    · split
      · exact hv.raise _ _ _
      · exact ((((((hv.freezeFault n).landAll n).modSt n _).raise _ _ _).openWindow _ _ _).vector (by omega)).escalate n c
  unfold State.haltBy
  cases th with
  | none => exact key t h
  | some w => exact key _ (h.setRg (stnReg_high _ _) _)

theorem hallKept.halt (h : hallKept s t) (n : StnId) (c : Code) (th : Option TH) : hallKept s (t.halt n c th) :=
  h.haltBy n c th []

/-! #### Blocks and words -/

theorem hallKept.vitCe (h : hallKept s t) (n : StnId) : hallKept s (t.vitCe n) :=
  ((h.inc (stnReg_high _ _)).raiseOnce _ _ _ _).addScore n _

theorem hallKept.vitUe (h : hallKept s t) (n : StnId) (off mem : Nat) : hallKept s (t.vitUe n off mem) :=
  ((h.inc (stnReg_high _ _)).setRg (stnReg_high _ _) _).addScore n _

theorem hallKept.bufCheck (h : hallKept s t) (n : StnId) (mem off len : Nat) : hallKept s (t.bufCheck n mem off len).1 := by
  unfold State.bufCheck
  refine foldl_inv (fun p : State × Bool => hallKept s p.1) _ (fun p w hp => ?_) _ _ h
  dsimp only
  split
  · exact hp
  · split
    · exact hp.vitCe n
    · exact hp.vitUe n _ _

theorem hallKept.readHold (h : hallKept s t) (n : StnId) (x : Hold) (len : Nat) : hallKept s (t.readHold n x len).1 := by
  unfold State.readHold
  split
  · exact h.bufCheck _ _ _ _
  · exact h

theorem hallKept.releaseHold (h : hallKept s t) (n : StnId) (x : Hold) : hallKept s (t.releaseHold n x) :=
  h.of_dropsOnly (dropsOnly.releaseHold t n x)

theorem hallKept.clkLow (h : hallKept s t) (n : StnId) (i : Nat) : hallKept s (t.clkLow n i) := by
  unfold State.clkLow
  dsimp only
  split
  · exact h.setRf (Nat.le_add_right_of_le (stnReg_high _ _)) _ _ _
  · exact h

theorem hallKept.allocTile (h : hallKept s t) {n : StnId} {who : Asker} {key b : Nat}
    (ha : t.allocTile n who key = some (b, u)) : hallKept s u := by
  unfold State.allocTile at ha
  split at ha
  · next b' s1 halloc =>
    obtain ⟨rfl, rfl⟩ : b' = b ∧ s1 = u := by simpa using ha
    unfold State.alloc at halloc
    split at halloc
    · simp at halloc
    · split at halloc
      · simp at halloc
      · split at halloc
        · simp at halloc
        · obtain ⟨_, _, rfl⟩ : _ ∧ _ ∧ _ := by simpa using halloc
          exact (h.modSt n _).clkLow n _
  · simp at ha

theorem hallKept.freeTile (h : hallKept s t) (n : StnId) (b : Option Nat) : hallKept s (t.freeTile n b) := h.modSt n _

theorem hallKept.clkWait (h : hallKept s t) (n : StnId) (who : Asker) (key size : Nat) :
    hallKept s (t.clkWait n who key size) := by
  unfold State.clkWait
  split
  · exact h
  · exact h.modSt n _

theorem hallKept.dramWriteWords (h : hallKept s t) (o : Nat) (bs : List Byte) (u : MemUser) :
    hallKept s (t.dramWriteWords o bs u) := by
  have hrequest : hallKept s (t.request o bs.length u) := by
    refine h.foldl _ (fun v a hv => ?_) _
    exact hv.same rfl rfl rfl
  have hput : hallKept s ((t.request o bs.length u).dramPut o bs) := hrequest.same rfl rfl rfl
  refine hput.foldl _ (fun t w ht => ?_) _
  split
  · exact ht
  · exact ht.same rfl rfl rfl

/-! #### The bucket table -/

theorem hallKept.setBkt (h : hallKept s t) (b : Bucket) : hallKept s (t.setBkt b) := h.same rfl rfl rfl

theorem hallKept.fixM (h : hallKept s t) (b : Bucket) : hallKept s (t.fixM b) := by
  have hfixed := t.membersFixed_fixM b
  refine h.trans ⟨hfixed.ht, hfixed.plt, fun a ha => hfixed.regs a ?_ ha.not_intReg⟩
  simp only [List.mem_cons, List.not_mem_nil, or_false, not_or]
  exact ⟨ha.ne_of_le (by decide), ha.ne_of_le (by decide), ha.2.1⟩

theorem hallKept.checkM (h : hallKept s t) (i : Nat) : hallKept s (t.checkM i) := by
  unfold State.checkM
  split
  · split
    · exact h.fixM _
    · exact h
  · exact h

theorem hallKept.freeB (h : hallKept s t) (k : Nat) (x : BTile) : hallKept s (t.freeB k x) := by
  unfold State.freeB
  dsimp only
  split
  · split
    · next i _ _ _ b n _ _ => exact (h.freeTile n (some b)).same rfl rfl rfl
    · exact h.same rfl rfl rfl
  · split
    · exact h.freeTile _ _
    · exact h

theorem hallKept.freeBs (h : hallKept s t) (l : Cells BTile) : hallKept s (t.freeBs l) :=
  hallKept.foldl _ (fun _ e ht => ht.freeB e.1 e.2) l h

theorem hallKept.waitB (h : hallKept s t) (bucket k who : Nat) : hallKept s (t.waitB bucket k who) := by
  unfold State.waitB
  split
  · exact h.clkWait _ _ _ _
  · exact h

theorem hallKept.takeB (h : hallKept s t) {bucket k who : Nat} {bytes : List Byte} {nf fz : Bool} {x : BTile}
    (ht : t.takeB bucket k who bytes nf fz = some (x, u)) : hallKept s u := by
  unfold State.takeB at ht
  split at ht
  · simp at ht
  · split at ht
    · simp at ht
    · next halloc =>
      obtain ⟨_, rfl⟩ : _ ∧ _ := by simpa using ht
      exact (h.allocTile halloc).modSt _ _

theorem hallKept.stageB (h : hallKept s t) {k : Nat} {bytes : List Byte} {nf fz : Bool} {x : BTile}
    (ht : t.stageB k bytes nf fz = some (x, u)) : hallKept s u := by
  unfold State.stageB at ht
  split at ht
  · obtain ⟨_, rfl⟩ : _ ∧ _ := by simpa using ht
    refine hallKept.dramWriteWords ?_ _ _ _
    exact h.same rfl rfl rfl
  · simp at ht

/-! #### Bucket headers and tiles -/

theorem hallKept.noteRed (h : hallKept s t) (p : PortId) (step : Word) (bucket : Nat) (bad : Bool) :
    hallKept s (t.noteRed p step bucket bad) := by
  unfold State.noteRed
  split
  · exact h
  · exact h.same rfl rfl rfl

theorem hallKept.raiseRed (h : hallKept s t) (n bucket sender : Nat) (remote : Bool) :
    hallKept s (t.raiseRed n bucket sender remote) := h.raise _ _ _

theorem hallKept.redStatus (h : hallKept s t) (i : Nat) : hallKept s (t.redStatus i) := h.setStatus (by decide) i (by omega)

theorem hallKept.strayHead (h : hallKept s t) (p : PortId) (bh : List Word) (remote : Bool) :
    hallKept s (t.strayHead p bh remote) := by
  have hnoted := ((h.inc (a := Reg.crsRedStray) (by decide)).raiseRed 2 (bhBucket bh) (bhSender bh) remote).noteRed p (bhStep bh)
    (bhBucket bh) false
  unfold State.strayHead
  dsimp only
  split
  · exact hnoted.same rfl rfl rfl
  · exact hnoted

theorem hallKept.strayTile (h : hallKept s t) (p : PortId) (step : Word) (bucket sender : Nat) (remote : Bool) :
    hallKept s (t.strayTile p step bucket sender remote) := by
  have hinc := h.inc (a := Reg.crsRedStray) (by decide)
  unfold State.strayTile
  dsimp only
  split
  · exact hinc
  · exact (hinc.raiseRed _ _ _ _).noteRed _ _ _ _

theorem hallKept.lastStray (h : hallKept s t) (th : TH) : hallKept s (t.lastStray th) := by
  unfold State.lastStray
  split
  · exact h
  · exact h.same rfl rfl rfl

theorem hallKept.badStream (h : hallKept s t) (p : PortId) (bucket sender code : Nat) (step : Word) :
    hallKept s (t.badStream p bucket sender code step) := by
  have hraised := (h.inc (a := Reg.crsRedBad) (by decide)).raiseRed code bucket sender false
  have hnoted := hraised.noteRed p step bucket true
  unfold State.badStream
  dsimp only
  split
  · split
    · exact hnoted
    · split
      · exact hraised
      · split
        · exact hnoted
        · exact (hnoted.setBkt _).checkM _
  · exact hnoted

/-- The state that the table's answer leaves. -/
def Found.hallKept (s : State) : Found → Prop
  | .entry _ u => Machine.hallKept s u
  | .waits u => Machine.hallKept s u
  | .stray => True

theorem hallKept.findEntry (h : hallKept s t) (bh : List Word) : (t.findEntry bh).hallKept s := by
  unfold State.findEntry
  dsimp only
  split
  · exact h.setBkt _
  · split
    · split
      · exact h
      · split
        · exact h
        · exact ((h.setBkt _).redStatus 4).raiseRed _ _ _ _
    · split
      · trivial
      · exact h.setBkt _

theorem hallKept.afterClose (h : hallKept s t) (i : Nat) : hallKept s (t.afterClose i) := by
  unfold State.afterClose
  split
  · exact h.checkM i
  · split
    · split
      · exact h.fixM _
      · exact h
    · exact h

theorem hallKept.secondHead (h : hallKept s t) (p : PortId) (e : Nat) (b : Bucket) (bh : List Word) :
    hallKept s (t.secondHead p e b bh) := by
  unfold State.secondHead
  refine hallKept.raiseRed ?_ _ _ _ _
  split
  · exact h.strayHead _ _ _
  · exact h

theorem hallKept.joinEntry (h : hallKept s t) (p : PortId) (e : Nat) (b : Bucket) (bh : List Word) :
    hallKept s (t.joinEntry p e b bh) := by
  unfold State.joinEntry
  split
  · exact h.secondHead _ _ _ _
  · split
    · exact (h.redStatus 3).badStream _ _ _ _ _
    · split
      · exact h.secondHead _ _ _ _
      · split
        · exact h.strayHead _ _ _
        · exact h.setBkt _

theorem hallKept.endpointBh (h : hallKept s t) (p : PortId) (bh : List Word) : hallKept s (t.endpointBh p bh).1 := by
  have hfound := h.findEntry bh
  unfold State.endpointBh
  dsimp only
  split
  · exact h.badStream _ _ _ _ _
  · split
    · exact h.strayHead p bh false
    · split
      · exact h.strayHead p bh false
      · next hwaits => rw [hwaits] at hfound; exact hfound
      · next hentry =>
        rw [hentry] at hfound
        exact hallKept.afterClose (hallKept.joinEntry hfound _ _ _ _) _

theorem hallKept.deviceBh (h : hallKept s t) (p : PortId) (bh : List Word) : hallKept s (t.deviceBh p bh).1 := by
  have hfound := h.findEntry bh
  unfold State.deviceBh
  extract_lets r i
  split
  · exact h.strayHead p bh true
  · split
    · exact h.strayHead p bh true
    · next hwaits => rw [hwaits] at hfound; exact hfound
    · next b v hentry =>
      rw [hentry] at hfound
      have hv : hallKept s v := hfound
      extract_lets dup b0 b1 b2 b3 b4
      split
      · exact (hv.raiseRed _ _ _ _).afterClose i
      · split
        · exact (((hv.setBkt b1).redStatus 3).raiseRed _ _ _ _).afterClose i
        · exact (hv.setBkt b4).afterClose i

theorem hallKept.noItin (h : hallKept s t) (n : StnId) : hallKept s (t.noItin n) := (h.inc (stnReg_high _ _)).raise _ _ _

theorem hallKept.arrive (h : hallKept s t) (n : StnId) (th : TH) (data : List Byte) (x : Hold) :
    hallKept s (t.arrive n th data x) := by
  have hlost := (h.releaseHold n x).noItin n
  unfold State.arrive
  dsimp only
  split
  · exact hlost
  · split
    · exact hlost
    · exact h.same rfl rfl rfl

theorem hallKept.relayNotice (h : hallKept s t) (bh : List Word) : hallKept s (t.relayNotice bh) := by
  refine hallKept.arrive ?_ _ _ _ _
  exact h.same rfl rfl rfl

theorem hallKept.badTile (h : hallKept s t) (p : PortId) (b : Bucket) (c : Contr) (sender : Nat) :
    hallKept s (t.badTile p b c sender) := ((h.freeBs _).setBkt _).badStream _ _ _ _ _

theorem hallKept.holdTile (h : hallKept s t) (b : Bucket) (c : Contr) (th : TH) (data : List Byte) (sender : Nat) :
    hallKept s (t.holdTile b c th data sender).1 := by
  unfold State.holdTile
  dsimp only
  split
  · dsimp only
    split
    · exact h
    · exact h.waitB _ _ _
  · next x u htaken =>
    have hu : hallKept s u := by
      split at htaken
      · exact h.stageB htaken
      · exact h.takeB htaken
    dsimp only
    have hcounted : ∀ (q : Bool) (v : Bucket),
        hallKept s (if q = true then (u.setBkt v).addSat Reg.crsRedNfCnt 1 else u.setBkt v) := fun q v => by
      split
      · exact (hu.setBkt v).addSat (by decide) 1
      · exact hu.setBkt v
    split
    · exact (hcounted _ _).raiseRed _ _ _ _
    · exact hcounted _ _

theorem hallKept.endpointTile (h : hallKept s t) (p : PortId) (th : TH) (data : List Byte) :
    hallKept s (t.endpointTile p th data).1 := by
  have hstray := fun step bucket sender => h.strayTile p step bucket sender false
  unfold State.endpointTile
  dsimp only
  split
  · split
    · split
      · exact h
      · exact hstray _ _ _
    · split
      · exact hstray _ _ _
      · split
        · split
          · exact hstray _ _ _
          · exact h
        · split
          · exact hstray _ _ _
          · split
            · exact hstray _ _ _
            · split
              · exact h.badTile _ _ _ _
              · split
                · exact hstray _ _ _
                · split
                  · exact h.raiseRed 8 _ _ false
                  · exact h.holdTile _ _ _ _ _
  · split
    · exact h
    · exact hstray _ _ _

theorem hallKept.deviceTile (h : hallKept s t) (b : Bucket) (f : FabStream) (th : TH) (data : List Byte) :
    hallKept s (t.deviceTile b f th data).1 := by
  unfold State.deviceTile
  dsimp only
  split
  · exact h
  · split
    · exact h.raiseRed 8 _ _ true
    · split
      · exact h.waitB _ _ _
      · next htaken =>
        have hu := h.takeB htaken
        have hnf : ∀ q, hallKept s (State.fabNf _ q).2 := fun q => by
          unfold State.fabNf
          split
          · exact hu.same rfl rfl rfl
          · exact hu
        dsimp only
        split
        · exact ((hnf _).setBkt _).raiseRed _ _ _ _
        · exact (hnf _).setBkt _

/-- The header of a bucket frame is taken; whether the frame still waits. -/
def State.redHead (s : State) (p : PortId) (w : Wire) : State × Bool :=
  match w.xh with
  | .bh h =>
    if s.isEndpoint p then s.endpointBh p h
    else if bhStage h = 10 then (s.relayNotice h, false) else s.deviceBh p h
  | _ => (s, false)

/-- The tile of a bucket frame is taken, from an endpoint or a device; whether it still waits. -/
def State.redBody (s : State) (p : PortId) (endpoint : Bool) (t : TH) (data : List Byte) : State × Bool :=
  if endpoint then s.endpointTile p t data
  else match s.whose t with
    | .part b f => s.deviceTile b f t data
    | _ => ((s.strayTile p t.step (t.tag.toNat % 2 ^ 20) t.origin true).lastStray t, false)

theorem State.redFrame_eq (s : State) (p : PortId) (w : Wire) :
    s.redFrame p w =
      if (s.redHead p w).2 then ((s.redHead p w).1, some w)
      else match w.th with
        | none => ((s.redHead p w).1, none)
        | some t => (((s.redHead p w).1.redBody p (s.isEndpoint p) t w.data).1,
          if ((s.redHead p w).1.redBody p (s.isEndpoint p) t w.data).2 then some { w with xh := .none } else none) := rfl

theorem hallKept.redHead (h : hallKept s t) (p : PortId) (w : Wire) : hallKept s (t.redHead p w).1 := by
  unfold State.redHead
  split
  · split
    · exact h.endpointBh _ _
    · split
      · exact h.relayNotice _
      · exact h.deviceBh _ _
  · exact h

theorem hallKept.redBody (h : hallKept s t) (p : PortId) (e : Bool) (th : TH) (data : List Byte) :
    hallKept s (t.redBody p e th data).1 := by
  unfold State.redBody
  split
  · exact h.endpointTile _ _ _
  · split
    · exact h.deviceTile _ _ _ _
    · exact (h.strayTile _ _ _ _ _).lastStray _

theorem hallKept.redFrame (h : hallKept s t) (p : PortId) (w : Wire) : hallKept s (t.redFrame p w).1 := by
  have hhead := h.redHead p w
  rw [State.redFrame_eq]
  split
  · exact hhead
  · split
    · exact hhead
    · exact hhead.redBody _ _ _ _

theorem hallKept.redTake (h : hallKept s t) (x : RedIn) : hallKept s (t.redTake x).1 := by
  have hread := h.readHold x.stn x.hold (32 + x.wire.data.length)
  unfold State.redTake
  extract_lets len r
  split
  · exact h.redFrame _ _
  · split
    · exact (hread.redFrame x.port x.wire).releaseHold x.stn x.hold
    · split
      · exact h
      · exact hread.halt x.stn ⟨.mem, 2⟩ none

theorem hallKept.redArrive (h : hallKept s t) (x : RedIn) : hallKept s (t.redArrive x) := by
  have htake := h.redTake x
  unfold State.redArrive
  dsimp only
  split
  · exact h.same rfl rfl rfl
  · split
    · exact htake.same rfl rfl rfl
    · exact htake

theorem hallKept.retryRed (h : hallKept s t) : hallKept s t.retryRed :=
  hallKept.foldl _ (fun _ x ht => ht.redArrive x) _ (h.same rfl rfl rfl)

/-- A step that opens has emptied what the step before left (R167, R402, R409), but for the blocks of its tiles. -/
def State.stepReset (s : State) : State :=
  { s with buckets := [], redDisc := [], expDisc := [], sit := Sittings.zero, notices := [], stgUsed := [],
           cat := { s.cat with raised := [] },
           stn := s.stn.map (fun (x : Stn) => { x with numDone := 0, halts := 0 }) }

/-- The blocks of the tiles of buckets are freed. -/
def State.bucketsFreed (s : State) (l : Cells Bucket) : State :=
  l.foldl (fun t e => e.2.fabs.foldl (fun u f => u.freeBs f.data) (t.freeBs e.2.own))
    (l.foldl (fun t e => e.2.contrs.foldl (fun u c => u.freeBs c.data) t) s)

theorem State.freshStep_eq (s : State) :
    s.freshStep = { s.stepReset.bucketsFreed s.buckets with prt := s.freshStep.prt } := rfl

/-- What a step resets as it opens is no register, nor HT. -/
theorem hallKept.freshStep (h : hallKept s t) : hallKept s t.freshStep := by
  have hreset : hallKept s t.stepReset := h.same rfl rfl rfl
  have hcontrs := hreset.foldl _ (fun _ e hu => hu.foldl _ (fun _ c hw => hw.freeBs c.data) e.2.contrs) t.buckets
  have hfreed : hallKept s (t.stepReset.bucketsFreed t.buckets) :=
    hcontrs.foldl _ (fun _ e hu => (hu.freeBs e.2.own).foldl _ (fun _ f hw => hw.freeBs f.data) e.2.fabs) t.buckets
  rw [State.freshStep_eq]
  exact hfreed.same rfl rfl rfl

end

end Sys2Proof.Machine
end

section
/-! SUPPORT. The opening of a step, the end of Stopped, released streams, the parade (O24). -/

namespace Sys2Proof.Machine

open Sys2Proof

-- Elaborated in turn, as above: the joined text's check has a memory limit.
set_option Elab.async false

/-! ### A pending vector stays pending while the device only reports -/

/-- A code that is not Fatal touches no register but CAT_LOST and CAT_STATUS. -/
theorem State.rg_raise_mild (s : State) {c : Code} (u : UnitId) (x : List Word) (h : c.cls ≠ .fatal) {b : Nat}
    (hlost : b ≠ Reg.catLost) (hstatus : b ≠ Reg.catStatus) : (s.raise c u x).rg b = s.rg b := by
  have hwindow : ∀ (v : State) (e : Nat), v.rg b = s.rg b → (if c.opens u then v.openWindow u e c else v).rg b = s.rg b := by
    intro v e hv
    split
    · rw [State.rg_openWindow, hv]
    · exact hv
  unfold State.raise State.raiseAt
  simp only [h, if_false]
  apply hwindow
  split
  · rfl
  · split
    · rfl
    · rw [State.rg_setBitEvt_ne _ _ hstatus, State.rg_inc_ne _ hlost]; rfl

/-- A bit of a register that another bit's event leaves alone. -/
theorem State.rbit_setBitEvt (s : State) {a b i j : Nat} (hi : i < 32) (h : s.rbit b j = true) :
    (s.setBitEvt a i).rbit b j = true := by
  by_cases hab : b = a
  · subst hab
    rw [State.rbit, State.rg_setBitEvt_self]
    by_cases hij : j = i
    · rw [hij]; exact bitOf_set_self _ _ hi
    · rw [bitOf_setFld_ne _ _ _ _ hi hij]; exact h
  · rw [State.rbit, State.rg_setBitEvt_ne _ _ hab]; exact h

/-- What is pending stays pending when another vector comes. -/
theorem State.pending_vector (s : State) (v : Nat) {i j : Nat} (hi : i < 8)
    (h : s.rbit (Reg.glbIrqPend i) j = true) : (s.vector v).rbit (Reg.glbIrqPend i) j = true := by
  have hset := s.rbit_setBitEvt (a := Reg.glbIrqPend (v / 32)) (i := v % 32) (by omega) h
  unfold State.vector
  dsimp only
  split
  · unfold State.sendMsi
    split
    · rw [State.rbit, State.rg_setRf_ne _ _ _ _ (by simp only [Reg.glbIrqPend, Reg.glbPba]; omega)]; exact hset
    · exact hset
  · exact hset

theorem State.pending_setStatus (s : State) {a i : Nat} (v : Nat) (ha : i < 32) {w j : Nat} (hw : w < 8)
    (h : s.rbit (Reg.glbIrqPend w) j = true) : (s.setStatus a i v).rbit (Reg.glbIrqPend w) j = true := by
  unfold State.setStatus
  split
  · exact s.rbit_setBitEvt ha h
  · exact State.pending_vector _ _ hw (s.rbit_setBitEvt ha h)

/-! ### A step opens (R38, R40) -/

/-- A closed device once its step opens, before what the step resets. -/
def State.opened (s : State) : State :=
  ((((s.setStep 1).setRg Reg.htStepCur (s.rg Reg.htStepNum)).setRg Reg.htStepNum (s.rg Reg.htStepNum + 1)).setRg64
    Reg.htOpenActualLo s.ht).addPeriod Reg.htStepOpenLo

/-- BEAT is driven where BEAT_EN is 1. -/
def State.withBeat (s : State) : State :=
  if s.plt.driven && s.rbit Reg.pltCtrl 0 then { (s.emit .beat) with plt := { s.plt with beatTil := s.ht + 8 } } else s

/-- A late opening is flagged and reported with TIM-05. -/
def State.openedLate (s : State) : State := (s.stepFlag 3).raise ⟨.tim, 5⟩ uDevice []

theorem exec_stepOpen {s : State} (hclosed : s.stepState = 0) (hat : (s.rg64 Reg.htStepOpenLo).toNat ≤ s.ht.toNat) :
    exec .stepOpen s = .next (
      if (s.rg64 Reg.htStepOpenLo).toNat < s.ht.toNat then (s.opened.freshStep.retryRed.vector 68).withBeat.openedLate
      else (s.opened.freshStep.retryRed.vector 68).withBeat) := by
  simp only [exec, execStepOpen, hclosed, hat, and_self, if_true, decide_eq_true_eq]
  rfl

/-- A register that opening sets, or one that it leaves alone, before the open tick advances. -/
theorem State.rg_opened (s : State) {a : Nat} (hlo : a ≠ Reg.htStepOpenLo) (hhi : a ≠ Reg.htStepOpenLo + 4) :
    s.opened.rg a = ((((s.setStep 1).setRg Reg.htStepCur (s.rg Reg.htStepNum)).setRg Reg.htStepNum
      (s.rg Reg.htStepNum + 1)).setRg64 Reg.htOpenActualLo s.ht).rg a := State.rg_addPeriod_ne _ hlo hhi

theorem State.rg_opened_ne (s : State) {a : Nat} (h : a ∉ [Reg.htStatus, Reg.htStepCur, Reg.htStepNum, Reg.htOpenActualLo,
    Reg.htOpenActualLo + 4, Reg.htStepOpenLo, Reg.htStepOpenLo + 4]) : s.opened.rg a = s.rg a := by
  simp only [List.mem_cons, List.not_mem_nil, or_false, not_or] at h
  obtain ⟨hstatus, hcur, hnum, hactual, hactual', hopen, hopen'⟩ := h
  rw [s.rg_opened hopen hopen', State.rg_setRg64_ne _ _ hactual hactual', State.rg_setRg_ne _ _ hnum, State.rg_setRg_ne _ _ hcur,
    s.rg_setStep_ne 1 hstatus]

theorem State.rg_opened_status (s : State) : s.opened.rg Reg.htStatus = (s.setStep 1).rg Reg.htStatus := by
  rw [s.rg_opened (by decide) (by decide), State.rg_setRg64_ne _ _ (by decide) (by decide), State.rg_setRg_ne _ _ (by decide),
    State.rg_setRg_ne _ _ (by decide)]

theorem State.rg_opened_stepCur (s : State) : s.opened.rg Reg.htStepCur = s.rg Reg.htStepNum := by
  rw [s.rg_opened (by decide) (by decide), State.rg_setRg64_ne _ _ (by decide) (by decide), State.rg_setRg_ne _ _ (by decide),
    State.rg_setRg_self]

theorem State.rg_opened_stepNum (s : State) : s.opened.rg Reg.htStepNum = s.rg Reg.htStepNum + 1 := by
  rw [s.rg_opened (by decide) (by decide), State.rg_setRg64_ne _ _ (by decide) (by decide), State.rg_setRg_self]

theorem State.rg64_opened_actual (s : State) : s.opened.rg64 Reg.htOpenActualLo = s.ht :=
  (State.rg64_of_rg (s.rg_opened (by decide) (by decide)) (s.rg_opened (by decide) (by decide))).trans
    (State.rg64_setRg64_self _ _ _)

theorem State.rg64_opened_next (s : State) :
    s.opened.rg64 Reg.htStepOpenLo = s.rg64 Reg.htStepOpenLo + dword (s.rg Reg.htStepPeriod).toNat := by
  have hkeep (a : Nat) (h : a ∉ [Reg.htStatus, Reg.htStepCur, Reg.htStepNum, Reg.htOpenActualLo, Reg.htOpenActualLo + 4]) :
      ((((s.setStep 1).setRg Reg.htStepCur (s.rg Reg.htStepNum)).setRg Reg.htStepNum (s.rg Reg.htStepNum + 1)).setRg64
        Reg.htOpenActualLo s.ht).rg a = s.rg a := by
    simp only [List.mem_cons, List.not_mem_nil, or_false, not_or] at h
    obtain ⟨hstatus, hcur, hnum, hactual, hactual'⟩ := h
    rw [State.rg_setRg64_ne _ _ hactual hactual', State.rg_setRg_ne _ _ hnum, State.rg_setRg_ne _ _ hcur,
      s.rg_setStep_ne 1 hstatus]
  rw [State.opened, State.rg64_addPeriod_self, State.rg64_of_rg (hkeep _ (by decide)) (hkeep _ (by decide)), hkeep _ (by decide)]

theorem State.opened_ht (s : State) : s.opened.ht = s.ht ∧ s.opened.plt = s.plt := by
  rw [State.opened, State.addPeriod_frame]
  exact ⟨rfl, rfl⟩

theorem State.withBeat_rg (s : State) (a : Nat) : s.withBeat.rg a = s.rg a := by
  unfold State.withBeat
  split <;> rfl

/-- What a late opening records touches no register of hall time but HT_STEP_FLAGS. -/
theorem hallKept.openedLate {s t : State} (h : hallKept s t) : hallKept s t.openedLate := by
  refine hallKept.raise (h.trans ⟨by simp, by simp, fun a ha => ?_⟩) _ _ _
  exact State.rg_setStatus _ (by omega) ha.not_intReg ha.2.1

/-- A late opening sets its flag. -/
theorem State.openedLate_flag (s : State) : s.openedLate.rbit Reg.htStepFlags 3 = true := by
  rw [State.rbit, State.openedLate, State.rg_raise _ _ _ _ (hallReg_not_reportReg (by decide) (by decide)), State.stepFlag,
    State.rg_setStatus_self _ (by omega) (not_intReg (by decide))]
  exact bitOf_set_self _ _ (by omega)

theorem State.openedLate_pending {s : State} (h : s.rbit (Reg.glbIrqPend 2) 4 = true) :
    s.openedLate.rbit (Reg.glbIrqPend 2) 4 = true := by
  rw [State.rbit, State.openedLate, State.rg_raise_mild _ _ _ (by decide) (by decide) (by decide)]
  exact State.pending_setStatus s 69 (by omega) (by omega) h

/-- What a device reads once its step has opened: the registers of hall time as `State.opened` left them, the vector
pending, BEAT driven. -/
structure stepOpened (s t : State) : Prop where
  regs : ∀ a, hallReg a → t.rg a = s.opened.rg a
  pending : t.rbit (Reg.glbIrqPend 2) 4 = true
  beat : s.plt.driven = true → s.rbit Reg.pltCtrl 0 = true → t.plt.beatTil = s.ht + 8

theorem pltCtrl_hallReg : hallReg Reg.pltCtrl := by
  refine ⟨by decide, by decide, ?_⟩
  unfold reportReg intReg
  simp only [Reg.pltCtrl, Reg.glbIrqPend, Reg.glbPba, Reg.catLost, Reg.catStatus, Reg.catCondStn, Reg.catCondOpt, Reg.curEvent,
    Reg.accEvent, Reg.prtStatus]
  omega

theorem State.stepOpened_inTime (s : State) : stepOpened s (s.opened.freshStep.retryRed.vector 68).withBeat := by
  have hkept : hallKept s.opened (s.opened.freshStep.retryRed.vector 68) :=
    (hallKept.refl s.opened).freshStep.retryRed.vector (by omega)
  obtain ⟨hht, hplt⟩ := s.opened_ht
  refine ⟨fun a ha => (State.withBeat_rg _ a).trans (hkept.regs a ha), ?_, fun hdriven hbeat => ?_⟩
  · rw [State.rbit, State.withBeat_rg]
    exact State.vector_pending _ 68
  · have hdriven' : (s.opened.freshStep.retryRed.vector 68).plt.driven = true := by rw [hkept.plt, hplt]; exact hdriven
    have hbeat' : (s.opened.freshStep.retryRed.vector 68).rbit Reg.pltCtrl 0 = true := by
      rw [State.rbit, hkept.regs _ pltCtrl_hallReg, s.rg_opened_ne (by decide)]
      exact hbeat
    rw [State.withBeat, if_pos (by rw [hdriven', hbeat']; rfl)]
    exact congrArg (· + 8) (hkept.ht.trans hht)

theorem stepOpened.openedLate {s t : State} (h : stepOpened s t) : stepOpened s t.openedLate := by
  have hlate := (hallKept.refl t).openedLate
  refine ⟨fun a ha => (hlate.regs a ha).trans (h.regs a ha), State.openedLate_pending h.pending, fun hdriven hbeat => ?_⟩
  rw [hlate.plt]
  exact h.beat hdriven hbeat

/-! ### The end of Stopped, released streams, the parade -/

theorem exec_stoppedToClosed {s : State} (hstopped : s.stepState = 3) :
    exec .stoppedToClosed s = .next (
      if s.rbit Reg.htStatus 0 = true ∧ s.rbit Reg.htStatus 2 = true ∧ s.stage = 6 ∧ s.holding = false then s.setStep 0
      else s) := by
  simp only [exec, execStoppedToClosed, hstopped, true_and, Bool.not_eq_true']

theorem exec_stepEndRelease_access (s : State) (n : StnId) :
    exec (.stepEndRelease n .access) s = .next (
      if (s.st n).as.wait = .stepEnd ∧ (s.st n).as.stepRec ≠ some s.stepCur then s.asIssue n 0x04 (fun _ t => t.asRetire n)
      else s) := by
  simp only [exec, execStepEndRelease, Bool.and_eq_true, decide_eq_true_eq, bne_iff_ne]

theorem exec_stepEndRelease_execute (s : State) (n : StnId) :
    exec (.stepEndRelease n .execute) s = .next (
      if (s.st n).xs.wait = .stepEnd ∧ (s.st n).xs.stepRec ≠ some s.stepCur then s.xsIssue n else s) := by
  simp only [exec, execStepEndRelease, Bool.and_eq_true, decide_eq_true_eq, bne_iff_ne]

theorem exec_parade {s : State} (h : s.paradeDue = true) :
    exec .parade s = .next
      { ((s.setRg64 Reg.htParadeLo s.ht).setRf Reg.htStatus 2 1 1) with clk := { s.clk with parade := true } } := by
  simp only [exec, execParade, h, if_true]

/-- What an instruction of the access stream leaves that only retires. -/
theorem State.asRetire_plain (s : State) (n : StnId) : asPlain n ((s.st n).as.pc + 1) s ((s.act n .as).asRetire n) := by
  have hself : ((s.act n .as).asRetire n).st n = (asTurn s n).asGo ((asTurn s n).as.pc + 1) := State.st_modSt_self _ _ _
  have hother : ∀ m, m ≠ n → ((s.act n .as).asRetire n).st m = s.st m := fun m hm =>
    (State.st_modSt_ne _ _ hm).trans (State.st_modSt_ne _ _ hm)
  have has : (asTurn s n).as = (s.st n).as := by
    rw [asTurn, State.act, State.st_modSt_self]
    unfold Stn.act
    dsimp only
    split <;> rfl
  refine ⟨⟨rfl, hother, ?_⟩, ?_⟩
  · rw [hself, Stn.asGo, has]
  · rw [hself, Stn.asGo, has]

/-- Settles O24: an opening sets its registers (`State.opened`), what the step then resets and tries again leaves them
alone (`hallKept.freshStep`, `hallKept.retryRed`), and so does the record of a late one. -/
theorem stepsOpenAndParade : Obligations.StepsOpenAndParade := by
  unfold Obligations.StepsOpenAndParade
  refine ⟨fun s hclosed hat => ?_, fun s hstopped => ?_, fun s n w => ⟨?_, ?_, ?_, ?_⟩, fun s hdue => ?_⟩
  · have hreads : ∀ t, stepOpened s t → t.stepState = 1 ∧ t.rg Reg.htStepCur = s.rg Reg.htStepNum ∧
        t.rg Reg.htStepNum = s.rg Reg.htStepNum + 1 ∧ t.rg64 Reg.htOpenActualLo = s.ht ∧
        t.rg64 Reg.htStepOpenLo = s.rg64 Reg.htStepOpenLo + dword (s.rg Reg.htStepPeriod).toNat := by
      intro t ht
      have hreg (a : Nat) (h : 0x10000 ≤ a) (h' : a < 0x30000) (hf : a ≠ Reg.htStepFlags) : t.rg a = s.opened.rg a :=
        ht.regs a (hallReg_of_hall h h' hf)
      refine ⟨?_, ?_, ?_, ?_, ?_⟩
      · rw [State.stepState, State.rf, hreg _ (by decide) (by decide) (by decide), s.rg_opened_status]
        exact s.stepState_setStep (by omega)
      · rw [hreg _ (by decide) (by decide) (by decide), s.rg_opened_stepCur]
      · rw [hreg _ (by decide) (by decide) (by decide), s.rg_opened_stepNum]
      · rw [← s.rg64_opened_actual]
        exact State.rg64_of_rg (hreg _ (by decide) (by decide) (by decide)) (hreg _ (by decide) (by decide) (by decide))
      · rw [← s.rg64_opened_next]
        exact State.rg64_of_rg (hreg _ (by decide) (by decide) (by decide)) (hreg _ (by decide) (by decide) (by decide))
    have hopen := s.stepOpened_inTime
    rw [exec_stepOpen hclosed hat]
    by_cases hlate : (s.rg64 Reg.htStepOpenLo).toNat < s.ht.toNat
    · obtain ⟨hstep, hcur, hnum, hactual, hnext⟩ := hreads _ hopen.openedLate
      rw [if_pos hlate]
      exact ⟨_, rfl, hstep, hcur, hnum, hactual, hnext, hopen.openedLate.pending, fun _ => State.openedLate_flag _,
        hopen.openedLate.beat⟩
    · obtain ⟨hstep, hcur, hnum, hactual, hnext⟩ := hreads _ hopen
      rw [if_neg hlate]
      exact ⟨_, rfl, hstep, hcur, hnum, hactual, hnext, hopen.pending, fun h => absurd h hlate, hopen.beat⟩
  · rw [exec_stoppedToClosed hstopped]
    refine ⟨fun hal hpar hstage hhold => ?_, fun hnot => ?_⟩
    · rw [if_pos ⟨hal, hpar, hstage, hhold⟩]
      exact ⟨_, rfl, s.stepState_setStep (by omega), fun a ha => s.rg_setStep_ne 0 (by simpa using ha), rfl⟩
    · rw [if_neg ?_]
      rintro ⟨hal, hpar, hstage, hhold⟩
      rcases hnot with h | h | h | h
      · rw [hal] at h; simp at h
      · rw [hpar] at h; simp at h
      · exact h hstage
      · rw [hhold] at h; simp at h
  · intro hat hwait hrec
    rw [exec_stepEndRelease_access, if_pos ⟨hwait, hrec⟩, State.asIssue_at hat]
    exact ⟨_, rfl, State.asRetire_plain s n⟩
  · intro hrec
    rw [exec_stepEndRelease_access, if_neg (fun h => h.2 hrec)]
  · intro hwait hrec
    rw [exec_stepEndRelease_execute, if_pos ⟨hwait, hrec⟩]
    rfl
  · intro hrec
    rw [exec_stepEndRelease_execute, if_neg (fun h => h.2 hrec)]
  · refine ⟨_, exec_parade hdue, ?_, ?_, rfl, fun a ha => ?_, rfl⟩
    · refine (State.rg64_of_rg (s := s.setRg64 Reg.htParadeLo s.ht) ?_ ?_).trans (State.rg64_setRg64_self _ _ _)
      · exact State.rg_setRf_ne _ _ _ _ (by decide)
      · exact State.rg_setRf_ne _ _ _ _ (by decide)
    · exact (congrArg (bitOf · 2) (State.rg_setRf_self _ _ _ _ _)).trans (bitOf_set_self _ _ (by omega))
    · simp only [List.mem_cons, List.not_mem_nil, or_false, not_or] at ha
      obtain ⟨hlo, hhi, hstatus⟩ := ha
      exact (State.rg_setRf_ne _ _ _ _ hstatus).trans (State.rg_setRg64_ne _ _ hlo hhi)

end Sys2Proof.Machine
end

section
/-! SUPPORT. The bucket table and the SIZE exchange (R171). -/

namespace Sys2Proof.Machine

open Sys2Proof

-- Elaborated in turn, as above: the joined text's check has a memory limit.
set_option Elab.async false

/-! ### The bucket table -/

theorem Cells.look_put_self {α : Type} (m : Cells α) {k : Nat} (v : α) (h : Cells.look m k = none) :
    Cells.look (Cells.put m k v) k = some v := by
  induction m with
  | nil => simp [Cells.put, Cells.look]
  | cons e r ih =>
    obtain ⟨a, w⟩ := e
    have hak : a ≠ k := fun e => by simp [Cells.look, e] at h
    by_cases hlt : k < a
    · simp [Cells.put, hlt, Cells.look]
    · simp only [Cells.look, hak, if_false] at h
      simp [Cells.put, hlt, Cells.look, hak, ih h]

theorem Cells.look_ins_self {α : Type} (m : Cells α) (k : Nat) (v : α) : Cells.look (Cells.ins m k v) k = some v :=
  Cells.look_put_self _ v (Cells.erase_look m k)

theorem State.bkt_setBkt_self (s : State) (b : Bucket) {i : Nat} (h : b.bucket % 4096 = i) : (s.setBkt b).bkt i = some b := by
  rw [← h]
  exact Cells.look_ins_self _ _ _

theorem State.bkt_setBkt_ne (s : State) (b : Bucket) {i j : Nat} (h : b.bucket % 4096 = i) (hj : j ≠ i) :
    (s.setBkt b).bkt j = s.bkt j :=
  Cells.look_ins_ne _ _ (by omega)

/-! ### The SIZE exchange (R171) -/

/-- The entry once its SIZE header has gone. -/
def Bucket.sizeGone (e : Bucket) (r : Nat) : Bucket := { e with sizeSent := r :: e.sizeSent }

/-- The SIZE header of an entry on its way to the partner of a round. -/
def State.sizeWire (s : State) (e : Bucket) (r : Nat) : Wire :=
  Wire.ofXh 3 (s.partner r) (.bh (e.header 2 e.excl e.sizeCnt 0 s.rank (r + 1) e.hmax))

/-- The entry once the partner's count and size are added. -/
def Bucket.sizeTaken (e : Bucket) (r c h : Nat) : Bucket :=
  { e with sizeCnt := e.sizeCnt + c, hmax := max e.hmax h, sizeNext := r + 1 }

/-- An entry whose turn in a round of the SIZE exchange has come. -/
structure State.sizeTurn (s : State) (i : Fin 4096) (r : Fin 9) (e : Bucket) : Prop where
  entry : s.bkt i.val = some e
  dyn : e.dyn = true
  settled : e.settled = true
  running : e.running = true
  round : r.val ∈ s.rounds
  next : e.sizeNext ≤ r.val
  before : ∀ q ∈ s.rounds, q < r.val → q < e.sizeNext

/-- The condition of the round, as the command asks for it. -/
theorem State.sizeTurn.met {s : State} {i : Fin 4096} {r : Fin 9} {e : Bucket} (h : s.sizeTurn i r e) :
    (!(e.dyn && e.settled && e.running && s.rounds.contains r.val && decide (e.sizeNext ≤ r.val) &&
      (s.before r.val).all (fun q => decide (q < e.sizeNext)))) = false := by
  have hbefore : (s.before r.val).all (fun q => decide (q < e.sizeNext)) = true := by
    simp only [State.before, List.all_eq_true, List.mem_filter, decide_eq_true_eq]
    exact fun q hq => h.before q hq.1 hq.2
  simp [h.dyn, h.settled, h.running, h.round, h.next, hbefore]

theorem State.sendToDevice_eq {s : State} {w : Wire} {key : Nat} {q : PortId} {c : TClass} {x : Nat}
    (h : s.routeOut w.dst key w.tc w.esc = some (q, c, x)) :
    s.sendToDevice w key = s.toEgress q { w with tc := c, esc := x } false (x != w.esc) := by
  rw [State.sendToDevice, h]

theorem exec_sizeExchangeRound_sends {s : State} {i : Fin 4096} {r : Fin 9} {e : Bucket} (h : s.sizeTurn i r e)
    (hi : e.bucket % 4096 = i.val) (hsent : r.val ∉ e.sizeSent) (hnone : e.sizes.find? (fun y => y.1 = r.val) = none) :
    exec (.sizeExchangeRound i r) s =
      .next ((s.setBkt (e.sizeGone r.val)).sendToDevice (s.sizeWire e r.val) (s.rank + e.bucket)) := by
  have hbkt : ((s.setBkt (e.sizeGone r.val)).sendToDevice (s.sizeWire e r.val) (s.rank + e.bucket)).bkt i.val =
      some (e.sizeGone r.val) := by
    have hkeep : ∀ (t : State) (w : Wire) (key : Nat), (t.sendToDevice w key).bkt i.val = t.bkt i.val := fun t w key => by
      unfold State.sendToDevice
      split <;> rfl
    rw [hkeep]
    exact State.bkt_setBkt_self s (e.sizeGone r.val) hi
  have hcontains : e.sizeSent.contains r.val = false := by simpa using hsent
  have hnone' : (e.sizeGone r.val).sizes.find? (fun y => y.1 = r.val) = none := hnone
  simp only [exec, execSizeExchangeRound, h.entry, h.met, hcontains, Bool.false_eq_true, if_false]
  simp only [Bucket.sizeGone, State.sizeWire] at hbkt hnone' ⊢
  simp only [hbkt, hnone']

theorem exec_sizeExchangeRound_adds {s : State} {i : Fin 4096} {r : Fin 9} {e : Bucket} {q c x : Nat} (h : s.sizeTurn i r e)
    (hsent : r.val ∈ e.sizeSent) (hsome : e.sizes.find? (fun y => y.1 = r.val) = some (q, c, x)) :
    exec (.sizeExchangeRound i r) s = .next (s.setBkt (e.sizeTaken r.val c x)) := by
  have hcontains : e.sizeSent.contains r.val = true := by simpa using hsent
  simp only [exec, execSizeExchangeRound, h.entry, h.met, hcontains, hsome, Bool.false_eq_true, if_false, if_true]
  rfl

/-- The header goes out at its port, by the route and the credit of the state before. -/
theorem State.sizeHeader_sent {s : State} {e : Bucket} {r : Nat} {q : PortId} {c : TClass} {x : Nat}
    (h : s.routeOut (s.rank ^^^ 2 ^ r) (s.rank + e.bucket) 3 0 = some (q, c, x)) :
    (s.setBkt (e.sizeGone r)).sendToDevice (s.sizeWire e r) (s.rank + e.bucket) =
      (s.setBkt (e.sizeGone r)).toEgress q { s.sizeWire e r with tc := c, esc := x } false (x != 0) :=
  State.sendToDevice_eq (s := s.setBkt (e.sizeGone r)) (w := s.sizeWire e r) h

end Sys2Proof.Machine
end

section
/-! SUPPORT. The entry stage of a reduction (R135, R152, R157): bytes and blocks, the tree over the slots, what the stage leaves
alone, the reading of its tiles. -/

namespace Sys2Proof.Machine

open Sys2Proof

-- Elaborated in turn, as above: the joined text's check has a memory limit.
set_option Elab.async false

/-! ### Bytes and blocks -/

theorem Cells.read_congr {α : Type} (d : Nat → α) {m m' : Cells α} {k n : Nat}
    (h : ∀ j, k ≤ j → j < k + n → Cells.get d m' j = Cells.get d m j) : Cells.read d m' k n = Cells.read d m k n := by
  induction n generalizing k with
  | zero => rfl
  | succ n ih =>
    rw [Cells.read, Cells.read, h k (by omega) (by omega), ih (fun j hj hj' => h j (by omega) (by omega))]

/-- A write apart from a run of addresses leaves the run alone. -/
theorem Cells.read_write_apart {α : Type} [DecidableEq α] (d : Nat → α) (vs : List α) (m : Cells α) {k a n : Nat}
    (h : a + n ≤ k ∨ k + vs.length ≤ a) : Cells.read d (Cells.write d m k vs) a n = Cells.read d m a n :=
  Cells.read_congr d (fun _ _ _ => Cells.get_write_outside d vs m k _ (by omega))

theorem payloadOf_length (c : Nat) (l : List Nat) : (payloadOf c l).length = 4096 := by
  rw [payloadOf, fit, zeros, List.length_append, List.length_take, List.length_replicate]
  omega

/-- A block that serves tiles holds more than a payload. -/
theorem Layout.tilePool_size {l : Layout} {i : Nat} (h : l.tilePool = some i) : 4352 ≤ poolSize i := by
  have hfit := List.find?_some h
  exact (of_decide_eq_true hfit).2

/-- Two tile blocks of a station lie apart. -/
theorem Layout.blkAddr_apart {l : Layout} {b b' : Nat} (hp : l.tilePool ≠ none) (hb : b ≠ b') :
    l.blkAddr b + 4096 ≤ l.blkAddr b' ∨ l.blkAddr b' + 4096 ≤ l.blkAddr b := by
  obtain ⟨i, hi⟩ := Option.ne_none_iff_exists'.mp hp
  have hsize := Layout.tilePool_size hi
  simp only [Layout.blkAddr, hi]
  rcases Nat.lt_or_gt_of_ne hb with h | h
  · have hmul := Nat.mul_le_mul_right (poolSize i) (show b + 1 ≤ b' from h)
    rw [Nat.add_mul, Nat.one_mul] at hmul
    omega
  · have hmul := Nat.mul_le_mul_right (poolSize i) (show b' + 1 ≤ b from h)
    rw [Nat.add_mul, Nat.one_mul] at hmul
    omega

/-- A write clears bad bits and sets none. -/
theorem clearBad_zero (ws : List Nat) (m : Cells Nat) {k : Nat} (h : Cells.get zeroNat m k = 0) :
    Cells.get zeroNat (clearBad ws m) k = 0 := by
  refine foldl_inv (fun m => Cells.get zeroNat m k = 0) _ (fun m w hm => ?_) ws m h
  split
  · exact hm
  · by_cases hk : k = w / 8
    · rw [hk, Cells.get_set_self]
    · rw [Cells.get_set_ne _ _ _ hk, hm]

/-! ### The tree of R135 -/

/-- A round of the tree halves the terms, and leaves one where there was one. -/
theorem treeRound_some (c : Nat) (ftz : Bool) (l : List (Option Term2)) :
    ∀ n, l.length = 2 * n → (treeRound c ftz l).1.length = n ∧
      ((∃ x ∈ l, x.isSome = true) → ∃ x ∈ (treeRound c ftz l).1, x.isSome = true) := by
  induction l using treeRound.induct (c := c) (ftz := ftz) with
  | case1 a b r ih =>
    intro n hn
    simp only [List.length_cons] at hn
    obtain ⟨hlen, _⟩ := ih (n - 1) (by omega)
    rw [treeRound]
    exact ⟨by simp only [List.length_cons, hlen]; omega, fun _ => ⟨_, List.mem_cons_self, rfl⟩⟩
  | case2 a r ih =>
    intro n hn
    simp only [List.length_cons] at hn
    obtain ⟨hlen, _⟩ := ih (n - 1) (by omega)
    rw [treeRound]
    exact ⟨by simp only [List.length_cons, hlen]; omega, fun _ => ⟨_, List.mem_cons_self, rfl⟩⟩
  | case3 b r ih =>
    intro n hn
    simp only [List.length_cons] at hn
    obtain ⟨hlen, hsome⟩ := ih (n - 1) (by omega)
    rw [treeRound]
    refine ⟨by simp only [List.length_cons, hlen]; omega, ?_⟩
    rintro ⟨x, hx, hx'⟩
    simp only [List.mem_cons] at hx
    rcases hx with rfl | rfl | hx
    · simp at hx'
    · exact ⟨x, List.mem_cons_self, hx'⟩
    · obtain ⟨y, hy, hy'⟩ := hsome ⟨x, hx, hx'⟩
      exact ⟨y, List.mem_cons_of_mem _ hy, hy'⟩
  | case4 l h1 h2 h3 =>
    intro n hn
    match l, hn with
    | [], hn => exact ⟨by simp only [treeRound, List.length_nil] at hn ⊢; omega, fun h => by simp at h⟩
    | [a], hn => simp at hn; omega
    | some a :: some b :: r, _ => exact absurd rfl (h1 a b r)
    | some a :: none :: r, _ => exact absurd rfl (h2 a r)
    | none :: b :: r, _ => exact absurd rfl (h3 b r)

/-- The tree over 2^n terms of which there is one has a sum. -/
theorem treeSum_some (c : Nat) (ftz : Bool) (n : Nat) (l : List (Option Term2)) (hl : l.length = 2 ^ n)
    (h : ∃ x ∈ l, x.isSome = true) : ∃ t, (treeSum c ftz n l).1 = some t := by
  induction n generalizing l with
  | zero =>
    obtain ⟨x, hx, hx'⟩ := h
    obtain ⟨y, rfl⟩ := List.length_eq_one_iff.mp hl
    obtain rfl := List.mem_singleton.mp hx
    obtain ⟨t, rfl⟩ := Option.isSome_iff_exists.mp hx'
    exact ⟨t, rfl⟩
  | succ n ih =>
    obtain ⟨hlen, hsome⟩ := treeRound_some c ftz l (2 ^ n) (by rw [hl, pow_succ]; omega)
    exact ih _ hlen (hsome h)

/-! ### What the entry stage leaves alone

Reading a tile's words, freeing blocks, writing a sum and reporting the flags of an addition leave the settings of the
reduction, DRAM and the ports alone, and no word turns bad. -/

structure entryKept (s t : State) : Prop where
  frame : t = { s with
    regs := t.regs, evts := t.evts, stn := t.stn, stk := t.stk, buckets := t.buckets, stgUsed := t.stgUsed, cat := t.cat }
  regs : ∀ a, ¬ reportReg a → (∀ n : StnId, a ≠ Reg.stnNumFlags n.val) → t.rg a = s.rg a
  lay : ∀ n, (t.st n).lay = (s.st n).lay
  clean : ∀ n w, (s.st n).vitBadAt w = 0 → (t.st n).vitBadAt w = 0

/-- And no byte of Vitrine has changed. -/
structure entryQuiet (s t : State) : Prop extends entryKept s t where
  vit : ∀ n, (t.st n).vit = (s.st n).vit

theorem entryKept.refl (s : State) : entryKept s s := ⟨rfl, fun _ _ _ => rfl, fun _ => rfl, fun _ _ h => h⟩

theorem entryKept.trans {s t u : State} (h : entryKept s t) (k : entryKept t u) : entryKept s u := by
  refine ⟨?_, fun a ha hn => (k.regs a ha hn).trans (h.regs a ha hn), fun n => (k.lay n).trans (h.lay n),
    fun n w hw => k.clean n w (h.clean n w hw)⟩
  rw [k.frame, h.frame]

theorem entryQuiet.refl (s : State) : entryQuiet s s := ⟨entryKept.refl s, fun _ => rfl⟩

theorem entryQuiet.trans {s t u : State} (h : entryQuiet s t) (k : entryQuiet t u) : entryQuiet s u :=
  ⟨h.toentryKept.trans k.toentryKept, fun n => (k.vit n).trans (h.vit n)⟩

/-- A change of a station that its Vitrine and its layout do not see. -/
theorem entryQuiet.modSt (s : State) (n : StnId) (f : Stn → Stn) (hlay : (f (s.st n)).lay = (s.st n).lay)
    (hvit : (f (s.st n)).vit = (s.st n).vit) (hbad : (f (s.st n)).vitBad = (s.st n).vitBad) :
    entryQuiet s (s.modSt n f) := by
  have hst : ∀ m, ((s.modSt n f).st m).lay = (s.st m).lay ∧ ((s.modSt n f).st m).vit = (s.st m).vit ∧
      ((s.modSt n f).st m).vitBad = (s.st m).vitBad := fun m => by
    by_cases hm : m = n
    · rw [hm, State.st_modSt_self]
      exact ⟨hlay, hvit, hbad⟩
    · rw [State.st_modSt_ne s f hm]
      exact ⟨rfl, rfl, rfl⟩
  refine ⟨⟨rfl, fun _ _ _ => rfl, fun m => (hst m).1, fun m w hw => ?_⟩, fun m => (hst m).2.1⟩
  unfold Stn.vitBadAt Stn.badIn at hw ⊢
  rw [if_pos rfl] at hw ⊢
  rw [(hst m).2.2, hw]

theorem entryQuiet.freeB (s : State) (k : Nat) (x : BTile) : entryQuiet s (s.freeB k x) := by
  have hfree : ∀ (n : StnId) (b : Nat), entryQuiet s (s.freeTile n (some b)) := fun n b => by
    refine entryQuiet.modSt s n _ ?_ ?_ ?_ <;> rw [Stn.freeTile_shape]
  have hstage : ∀ (t : State) (l : List Nat), entryQuiet s t → entryQuiet s { t with stgUsed := l } := fun t l ht =>
    ht.trans ⟨⟨rfl, fun _ _ _ => rfl, fun _ => rfl, fun _ _ h => h⟩, fun _ => rfl⟩
  unfold State.freeB
  dsimp only
  split
  · next i _ =>
    split
    · exact hstage _ _ (hfree _ _)
    · exact hstage _ _ (entryQuiet.refl s)
  · split
    · exact hfree _ _
    · exact entryQuiet.refl s

theorem entryQuiet.numFlags (s : State) (n : StnId) (fl : Flags) (th : TH) : entryQuiet s (s.numFlags n fl th) := by
  unfold State.numFlags
  refine foldl_inv (entryQuiet s) _ (fun t i ht => ?_) _ _ (entryQuiet.refl s)
  dsimp only
  have hbit : entryQuiet t (t.setBitEvt (Reg.stnNumFlags n.val) i) :=
    ⟨⟨rfl, fun a _ ha => State.rg_setBitEvt_ne t i (ha n), fun _ => rfl, fun _ _ h => h⟩, fun _ => rfl⟩
  have hraise : ∀ (v : State) (x : List Word), entryQuiet v (v.raise ⟨.num, 1⟩ (uStn n) x) := fun v x => by
    have heq := State.raise_mild_eq v (c := ⟨.num, 1⟩) (uStn n) x (by decide)
    have hst : ∀ m, (v.raise ⟨.num, 1⟩ (uStn n) x).st m = v.st m := fun m => by rw [heq]; rfl
    refine ⟨⟨?_, fun a ha _ => State.rg_raise v _ _ _ ha, fun m => by rw [hst], fun m w hw => by rw [hst]; exact hw⟩,
      fun m => by rw [hst]⟩
    rw [heq]
  split
  · split
    · exact ((ht.trans hbit).trans (entryQuiet.modSt _ n _ rfl rfl rfl)).trans (hraise _ _)
    · exact ht.trans hbit
  · exact ht

theorem entryQuiet.setBkt (s : State) (b : Bucket) : entryQuiet s (s.setBkt b) :=
  ⟨⟨rfl, fun _ _ _ => rfl, fun _ => rfl, fun _ _ h => h⟩, fun _ => rfl⟩

theorem entryKept.putBlk (s : State) (n : StnId) (b : Nat) (bs : List Byte) : entryKept s (s.putBlk n b bs) := by
  refine ⟨rfl, fun _ _ _ => rfl, fun m => ?_, fun m w hw => ?_⟩
  · by_cases hm : m = n
    · subst hm; rw [State.putBlk, State.st_modSt_self]; rfl
    · rw [State.putBlk, State.st_modSt_ne _ _ hm]
  · by_cases hm : m = n
    · subst hm
      rw [State.putBlk, State.st_modSt_self]
      exact clearBad_zero _ _ hw
    · rw [State.putBlk, State.st_modSt_ne _ _ hm]; exact hw

/-! #### What follows for the reduction -/

section
variable {s t : State}

theorem entryKept.redReg (h : entryKept s t) {a : Nat} (ha : 0x100000 ≤ a) (ha' : a < 0x1000000) : t.rg a = s.rg a := by
  refine h.regs a (not_reportReg (by omega) (by omega)) (fun n => ?_)
  simp only [Reg.stnNumFlags]
  omega

theorem entryKept.redStn (h : entryKept s t) (k : Nat) : t.redStn k = s.redStn k := by
  have hred : t.redStns = s.redStns := by
    unfold State.redStns State.rbit
    rw [h.redReg (by decide) (by decide), h.redReg (by decide) (by decide)]
  rw [State.redStn, State.redStn, hred]

theorem entryKept.stageAt (h : entryKept s t) (i : Nat) : t.stageAt i = s.stageAt i := by
  rw [State.stageAt, State.stageAt, State.rg64_of_rg (h.redReg (by decide) (by decide)) (h.redReg (by decide) (by decide))]

theorem entryKept.ftz (h : entryKept s t) (n : StnId) : t.ftz n = s.ftz n := by
  have hn := n.isLt
  rw [State.ftz, State.ftz, State.rbit, State.rbit, h.regs]
  · exact not_reportReg (by simp only [Reg.stnNumCtrl]; omega) (by simp only [Reg.stnNumCtrl]; omega)
  · intro m
    simp only [Reg.stnNumCtrl, Reg.stnNumFlags]
    omega

theorem entryKept.badAt (h : entryKept s t) (o : Nat) : t.badAt o = s.badAt o := by
  have hmap : t.rg (Reg.memMap 0) = s.rg (Reg.memMap 0) := h.redReg (by decide) (by decide)
  have hloc : t.loc o = s.loc o := by rw [State.loc, State.loc, State.rf, State.rf, hmap]
  have hbad : t.dramBad = s.dramBad := by rw [h.frame]
  rw [State.badAt, State.badAt, hloc, hbad]

theorem entryKept.tileClean (h : entryKept s t) {k : Nat} {x : BTile} (hx : tileClean s k x) : tileClean t k x := by
  obtain ⟨hblk, hstg⟩ := hx
  refine ⟨fun n b hn hb w hw => ?_, fun i hb hi w hw => ?_⟩
  · rw [h.lay] at hw
    exact h.clean n w (hblk n b (h.redStn k ▸ hn) hb w hw)
  · rw [h.stageAt] at hw
    rw [h.badAt]
    exact hstg i hb hi w hw

/-- A tile whose block is as it was has its bytes. -/
theorem entryKept.tileBytes (h : entryKept s t) {k : Nat} {x : BTile}
    (hblk : ∀ n b, s.redStn k = some n → x.blk = some b →
      (t.st n).vitBytes ((s.st n).lay.blkAddr b) 4096 = (s.st n).vitBytes ((s.st n).lay.blkAddr b) 4096) :
    t.tileBytes k x = s.tileBytes k x := by
  have hdram : t.dram = s.dram := by rw [h.frame]
  unfold State.tileBytes
  rw [h.redStn]
  split
  · next b n hb hn => rw [h.lay]; exact hblk n b hn hb
  · rw [hdram, h.stageAt]
  · rfl

theorem entryQuiet.tileBytes (h : entryQuiet s t) (k : Nat) (x : BTile) : t.tileBytes k x = s.tileBytes k x :=
  h.toentryKept.tileBytes (fun n b _ _ => by rw [Stn.vitBytes, Stn.vitBytes, h.vit])

end

/-! ### Reading the tiles of a sum -/

/-- Good words of a Vitrine are read and nothing changes. -/
theorem State.vitCheck_clean {s : State} {n : StnId} {o len : Nat} (h : vitClean s n o len) :
    s.vitCheck n o len = (s, true) := by
  have hkeep : ∀ l : List Nat, (∀ w ∈ l, (s.st n).badIn 0 w = 0) →
      l.foldl (fun p w =>
        if (p.1.st n).badIn 0 w = 0 then p
        else if (p.1.st n).badIn 0 w ≤ 2 then (p.1.vitCe n, p.2) else (p.1.vitUe n w 0, false)) (s, true) = (s, true) := by
    intro l hl
    induction l with
    | nil => rfl
    | cons w l ih =>
      rw [List.foldl_cons, if_pos (hl w List.mem_cons_self)]
      exact ih (fun v hv => hl v (List.mem_cons_of_mem _ hv))
  exact hkeep _ h

/-- A request waits at a stack; nothing else changes. -/
theorem State.request_frame (s : State) (o len : Nat) (u : MemUser) :
    s.request o len u = { s with stk := (s.request o len u).stk } := by
  refine foldl_inv (fun t : State => t = { s with stk := t.stk }) _ (fun t a ht => ?_) _ _ rfl
  dsimp only
  rw [ht]
  rfl

/-- Good words of DRAM are read and nothing but the stacks' queues changes. -/
theorem State.dramRead_clean {s : State} {o len : Nat} {u : MemUser} (h : dramClean s o len) :
    (s.dramRead o len u).1 = { s with stk := (s.request o len u).stk } ∧ (s.dramRead o len u).2.isSome = true := by
  have hkeep : ∀ (v : State) (l : List Nat), (∀ w ∈ l, v.badAt w = 0) →
      l.foldl (fun p w =>
        if p.1.badAt w = 0 then p
        else if p.1.badAt w ≤ 2 then (p.1.stackCe (p.1.loc w).stack, p.2)
        else (p.1.stackUe (p.1.loc w).stack (p.1.loc w).addr u.index, false)) (v, true) = (v, true) := by
    intro v l hl
    induction l with
    | nil => rfl
    | cons w l ih =>
      rw [List.foldl_cons, if_pos (hl w List.mem_cons_self)]
      exact ih (fun v hv => hl v (List.mem_cons_of_mem _ hv))
  have hcheck : (s.request o len u).checkWords o len u = (s.request o len u, true) := by
    refine hkeep _ _ (fun w hw => ?_)
    rw [s.request_frame]
    exact h w hw
  rw [State.dramRead, hcheck]
  exact ⟨s.request_frame o len u, rfl⟩

end Sys2Proof.Machine
end

section
/-! SUPPORT. The entry stage of one tile. -/

namespace Sys2Proof.Machine

open Sys2Proof

-- Elaborated in turn, as above: the joined text's check has a memory limit.
set_option Elab.async false

/-! ### The members' tiles -/

/-- The present members' tiles of index `k`, in their order. -/
def Bucket.tilesAt (e : Bucket) (k : Nat) : List BTile := e.present.filterMap (fun m => Cells.look m.data k)

/-- The block that the sum of tile `k` takes: that of the first member's tile. -/
def Bucket.home (e : Bucket) (k : Nat) : Option Nat := (e.tilesAt k).findSome? (fun x => x.blk)

/-- A member's term of tile `k`: its elements, or zero where it sent none. -/
def State.memberTerm (s : State) (e : Bucket) (k : Nat) (m : Contr) : Term2 :=
  match Cells.look m.data k with
  | some x => s.term (wfmtCode e.wfmt) k x
  | none => (List.replicate (rowCap (wfmtCode e.wfmt) * 64) 0, false, false)

/-- The terms of tile `k` by slot. -/
def State.slotTerms (s : State) (e : Bucket) (k : Nat) : List (Option Term2) :=
  (List.range 16).map (fun f => (e.present.find? (fun m => m.slot = f)).map (s.memberTerm e k))

/-- The sum of tile `k` by the tree over the slots, with its flags (R135, R152). -/
def State.entrySum (s : State) (e : Bucket) (n : StnId) (k : Nat) : Option Term2 × Flags :=
  treeSum (wfmtCode e.wfmt) (s.ftz n) 4 (s.slotTerms e k)

theorem Bucket.mem_tilesAt {e : Bucket} {k : Nat} {x : BTile} :
    x ∈ e.tilesAt k ↔ ∃ m ∈ e.present, Cells.look m.data k = some x := List.mem_filterMap

/-- A member makes a term. -/
theorem State.entrySum_some {s : State} {e : Bucket} {n : StnId} {k : Nat} (hslots : ∀ m ∈ e.present, m.slot < 16)
    (hpresent : e.present ≠ []) : ∃ x, (s.entrySum e n k).1 = some x := by
  refine treeSum_some _ _ 4 _ (by rw [State.slotTerms, List.length_map, List.length_range]; rfl) ?_
  obtain ⟨m, hm⟩ := List.exists_mem_of_ne_nil _ hpresent
  refine ⟨_, List.mem_map_of_mem (List.mem_range.mpr (hslots m hm)), ?_⟩
  rw [Option.isSome_map, List.find?_isSome]
  exact ⟨m, hm, by simp⟩

/-! #### A bucket whose tiles have gone -/

theorem Cells.erase_eq_filter {α : Type} (m : Cells α) (k : Nat) : Cells.erase m k = m.filter (fun x => !(x.1 == k)) := by
  induction m with
  | nil => rfl
  | cons e r ih =>
    obtain ⟨a, v⟩ := e
    by_cases h : a = k <;> simp [Cells.erase, h, ih]

/-- The members' tiles of index `k` go. -/
def Contr.without (k : Nat) (c : Contr) : Contr := { c with data := Cells.erase c.data k }

theorem Bucket.entered_eq (b : Bucket) (k : Nat) (x : BTile) :
    b.entered k (some x) =
      { b with own := Cells.ins b.own k x, nf := b.nf || x.nf, contrs := b.contrs.map (Contr.without k) } := by
  simp only [Bucket.entered, Option.any_some]
  rfl

theorem Bucket.present_entered (b : Bucket) (k : Nat) (x : Option BTile) :
    (b.entered k x).present = b.present.map (Contr.without k) := by
  simp only [Bucket.present, Bucket.entered, List.filter_map]
  rfl

theorem Contr.look_without {c : Contr} {k j : Nat} (h : j ≠ k) : Cells.look (c.without k).data j = Cells.look c.data j :=
  Cells.look_erase_ne _ h

theorem Bucket.tilesAt_entered (b : Bucket) {k j : Nat} (x : Option BTile) (h : j ≠ k) :
    (b.entered k x).tilesAt j = b.tilesAt j := by
  rw [Bucket.tilesAt, Bucket.present_entered, List.filterMap_map, Bucket.tilesAt]
  exact List.filterMap_congr (fun m _ => Contr.look_without h)

theorem Bucket.wfmt_entered (b : Bucket) (k : Nat) (x : Option BTile) : (b.entered k x).wfmt = b.wfmt := rfl

theorem State.memberTerm_entered (s : State) (b : Bucket) {k j : Nat} (x : Option BTile) (h : j ≠ k) (m : Contr) :
    s.memberTerm (b.entered k x) j (m.without k) = s.memberTerm b j m := by
  rw [State.memberTerm, State.memberTerm, Contr.look_without h, Bucket.wfmt_entered]

theorem Contr.slot_without (k f : Nat) :
    (fun m : Contr => decide (m.slot = f)) ∘ Contr.without k = fun m : Contr => decide (m.slot = f) := rfl

theorem State.slotTerms_entered (s : State) (b : Bucket) {k j : Nat} (x : Option BTile) (h : j ≠ k) :
    s.slotTerms (b.entered k x) j = s.slotTerms b j := by
  have hterm : s.memberTerm (b.entered k x) j ∘ Contr.without k = s.memberTerm b j :=
    funext fun m => s.memberTerm_entered b x h m
  unfold State.slotTerms
  refine List.map_congr_left (fun f _ => ?_)
  rw [Bucket.present_entered, List.find?_map, Contr.slot_without, Option.map_map, hterm]

/-! ### What the entry stage of a tile asks for -/

/-- Tiles of an entry whose sums can be made: each has its station and a block among the members' tiles, whose words are
good, and shares no block with another. -/
structure State.entryReady (s : State) (e : Bucket) (ks : List Nat) : Prop where
  slots : ∀ m ∈ e.present, m.slot < 16
  station : ∀ k ∈ ks, ∃ n b, s.redStn k = some n ∧ e.home k = some b
  clean : ∀ k ∈ ks, ∀ x ∈ e.tilesAt k, tileClean s k x
  pool : ∀ k ∈ ks, ∀ n, s.redStn k = some n → (s.st n).lay.tilePool ≠ none
  apart : ∀ k ∈ ks, ∀ x ∈ e.tilesAt k, ∀ j ∈ ks, ∀ y ∈ e.tilesAt j, s.redStn k = s.redStn j → x.blk ≠ none →
    x.blk = y.blk → k = j

/-- Only the queues of the stacks differ. -/
def stkOnly (s t : State) : Prop := t = { s with stk := t.stk }

theorem stkOnly.withStk (s : State) (x : Vector Stk 8) : stkOnly s { s with stk := x } := rfl

theorem stkOnly.refl (s : State) : stkOnly s s := rfl

theorem stkOnly.trans {s t u : State} (h : stkOnly s t) (k : stkOnly t u) : stkOnly s u := by
  unfold stkOnly at *
  rw [k, h]

theorem stkOnly.quiet {s t : State} (h : stkOnly s t) : entryQuiet s t := by
  unfold stkOnly at h
  rw [h]
  exact ⟨⟨rfl, fun _ _ _ => rfl, fun _ => rfl, fun _ _ hw => hw⟩, fun _ => rfl⟩

/-- Good words of DRAM are read. -/
theorem State.dramRead_stkOnly {s : State} {o len : Nat} {u : MemUser} (h : dramClean s o len) :
    stkOnly s (s.dramRead o len u).1 := by
  rw [(State.dramRead_clean h).1]
  exact stkOnly.withStk s _

/-- A read answered as `State.readTile` answers. -/
theorem readAnswer_clean {s : State} {r : State × Option (List Byte)} (hgood : r.2.isSome = true) (hstk : stkOnly s r.1) :
    (r.1, r.2.isSome).2 = true ∧ stkOnly s (r.1, r.2.isSome).1 := ⟨hgood, hstk⟩

theorem State.readTile_block {s : State} {k b : Nat} {x : BTile} {n : StnId} (hb : x.blk = some b)
    (hn : s.redStn k = some n) : s.readTile k x = s.vitCheck n ((s.st n).lay.blkAddr b) 4096 := by
  simp only [State.readTile, hb, hn]

theorem State.readTile_staged {s : State} {k i : Nat} {x : BTile} {n : StnId} (hb : x.blk = none) (hi : x.stg = some i)
    (hn : s.redStn k = some n) :
    s.readTile k x = ((s.dramRead (s.stageAt i) 4096 (.station n)).1,
      (s.dramRead (s.stageAt i) 4096 (.station n)).2.isSome) := by
  simp only [State.readTile, hb, hi, hn]

/-- A tile that stands nowhere has no words. -/
theorem State.readTile_nowhere {s : State} {k : Nat} {x : BTile} (h : (x.blk = none ∧ x.stg = none) ∨ s.redStn k = none) :
    s.readTile k x = (s, true) := by
  unfold State.readTile
  rcases h with ⟨hb, hi⟩ | hn
  · simp only [hb, hi]
  · cases hb : x.blk <;> cases hi : x.stg <;> simp only [hn]

/-- The words of a clean tile are read and nothing but the stacks' queues changes. -/
theorem State.readTile_clean {s : State} {k : Nat} {x : BTile} (h : tileClean s k x) :
    (s.readTile k x).2 = true ∧ stkOnly s (s.readTile k x).1 := by
  obtain ⟨hblk, hstg⟩ := h
  cases hn : s.redStn k with
  | none =>
    rw [State.readTile_nowhere (Or.inr hn)]
    exact ⟨rfl, stkOnly.refl s⟩
  | some n =>
    cases hb : x.blk with
    | some b =>
      rw [State.readTile_block hb hn, State.vitCheck_clean (hblk n b hn hb)]
      exact ⟨rfl, stkOnly.refl s⟩
    | none =>
      cases hi : x.stg with
      | none =>
        rw [State.readTile_nowhere (Or.inl ⟨hb, hi⟩)]
        exact ⟨rfl, stkOnly.refl s⟩
      | some i =>
        rw [State.readTile_staged hb hi hn]
        exact readAnswer_clean (State.dramRead_clean (hstg i hb hi)).2 (State.dramRead_stkOnly (hstg i hb hi))

theorem State.readTiles_clean (s : State) (l : List (Nat × BTile)) (h : ∀ x ∈ l, tileClean s x.1 x.2) :
    (s.readTiles l).2 = true ∧ stkOnly s (s.readTiles l).1 := by
  induction l generalizing s with
  | nil => exact ⟨rfl, stkOnly.refl s⟩
  | cons e l ih =>
    obtain ⟨hgood, hframe⟩ := State.readTile_clean (h e List.mem_cons_self)
    obtain ⟨hall, hrest⟩ := ih (s.readTile e.1 e.2).1 (fun y hy =>
      hframe.quiet.toentryKept.tileClean (h y (List.mem_cons_of_mem _ hy)))
    rw [State.readTiles]
    simp only [hgood, if_true]
    exact ⟨hall, hframe.trans hrest⟩

/-- The tiles of index `k` as the entry stage reads them. -/
theorem Bucket.readList_eq (e : Bucket) (k : Nat) :
    e.present.filterMap (fun m => (Cells.look m.data k).map (fun x => (k, x))) = (e.tilesAt k).map (fun x => (k, x)) := by
  rw [Bucket.tilesAt, List.map_filterMap]

/-! ### The entry stage of one tile -/

/-- The members' blocks but the sum's are freed. -/
def State.entryFreed (s : State) (e : Bucket) (k : Nat) : State :=
  (e.tilesAt k).foldl (fun t x => if x.blk.isSome && x.blk == e.home k then t else t.freeB k x) s

theorem entryQuiet.entryFreed (s : State) (e : Bucket) (k : Nat) : entryQuiet s (s.entryFreed e k) := by
  refine foldl_inv (entryQuiet s) _ (fun t x ht => ?_) _ _ (entryQuiet.refl s)
  split
  · exact ht
  · exact ht.trans (entryQuiet.freeB t k x)

/-- The sum of a tile goes into its home, or into a block of its own while there is one (R157). -/
theorem State.entryTile_eq (s : State) (e : Bucket) (k : Nat) :
    s.entryTile e k = match s.redStn k with
      | none => none
      | some n => match (s.entrySum e n k).1 with
        | none => some (s.entryFreed e k, none)
        | some x =>
          match (match e.home k with
            | some b => some ((⟨some b, none, x.2.1, x.2.2⟩ : BTile),
              (s.entryFreed e k).putBlk n b (payloadOf (wfmtCode e.wfmt) x.1))
            | none => (s.entryFreed e k).takeB e.bucket k 31 (payloadOf (wfmtCode e.wfmt) x.1) x.2.1 x.2.2) with
          | none => none
          | some (y, t) =>
            some (t.numFlags n (s.entrySum e n k).2 (s.bucketTh e n k e.entryCnt x.2.1 x.2.2 false), some y) := rfl

theorem State.entryTile_home {s : State} {e : Bucket} {k b : Nat} {n : StnId} {x : Term2} (hn : s.redStn k = some n)
    (hb : e.home k = some b) (hsum : (s.entrySum e n k).1 = some x) :
    s.entryTile e k = some
      ((((s.entryFreed e k).putBlk n b (payloadOf (wfmtCode e.wfmt) x.1)).numFlags n (s.entrySum e n k).2
        (s.bucketTh e n k e.entryCnt x.2.1 x.2.2 false)), some ⟨some b, none, x.2.1, x.2.2⟩) := by
  rw [State.entryTile_eq]
  simp only [hn, hsum, hb]

/-- What the entry stage of tile `k` leaves: the sum in its block, the entry without the members' tiles, and every other
block of a station as it was. -/
structure State.entryStep (s : State) (e : Bucket) (i k : Nat) (t : State) (y : BTile) : Prop where
  kept : entryKept s t
  entry : t.bkt i = some (e.entered k (some y))
  others : ∀ j, j ≠ i → t.bkt j = s.bkt j
  home : y.blk = e.home k
  sum : ∀ n x, s.redStn k = some n → (s.entrySum e n k).1 = some x →
    t.tileBytes k y = payloadOf (wfmtCode e.wfmt) x.1 ∧ y.nf = x.2.1 ∧ y.fz = x.2.2
  blocks : ∀ n b, (s.redStn k = some n → (s.st n).lay.tilePool ≠ none ∧ e.home k ≠ some b) →
    (t.st n).vitBytes ((s.st n).lay.blkAddr b) 4096 = (s.st n).vitBytes ((s.st n).lay.blkAddr b) 4096

/-- A block written reads back, and every other block of the station stands. -/
theorem State.vitBytes_putBlk (s : State) (n : StnId) (b : Nat) {bs : List Byte} (hbs : bs.length = 4096) :
    ((s.putBlk n b bs).st n).vitBytes ((s.st n).lay.blkAddr b) 4096 = bs ∧
    ∀ m b', (m = n → (s.st n).lay.tilePool ≠ none ∧ b ≠ b') →
      ((s.putBlk n b bs).st m).vitBytes ((s.st m).lay.blkAddr b') 4096 = (s.st m).vitBytes ((s.st m).lay.blkAddr b') 4096 := by
  refine ⟨?_, fun m b' h => ?_⟩
  · rw [State.putBlk, State.st_modSt_self, ← hbs]
    exact Cells.read_write _ _ _ _
  · by_cases hm : m = n
    · subst hm
      obtain ⟨hpool, hb⟩ := h rfl
      have hapart := Layout.blkAddr_apart hpool hb
      rw [State.putBlk, State.st_modSt_self]
      exact Cells.read_write_apart _ _ _ (by omega)
    · rw [State.putBlk, State.st_modSt_ne _ _ hm]

theorem Stn.vitBytes_congr {x y : Stn} (h : x.vit = y.vit) (a len : Nat) : x.vitBytes a len = y.vitBytes a len := by
  rw [Stn.vitBytes, Stn.vitBytes, h]

/-- The table is as it was before the entry takes its sum. -/
theorem State.buckets_entryFreed (s : State) (e : Bucket) (k : Nat) : (s.entryFreed e k).buckets = s.buckets := by
  have hfree : ∀ (t : State) (x : BTile), (t.freeB k x).buckets = t.buckets := fun t x => by
    unfold State.freeB
    dsimp only
    split <;> split <;> rfl
  refine foldl_keep (fun t : State => t.buckets) _ (fun t x => ?_) _ _
  split
  · rfl
  · exact hfree t x

theorem State.buckets_numFlags (s : State) (n : StnId) (fl : Flags) (th : TH) : (s.numFlags n fl th).buckets = s.buckets := by
  rw [(landsOnly.numFlags s n fl th).1]

/-- The sum of tile `k` written into block `b`, and the flags of the addition reported. -/
def State.entrySummed (s : State) (e : Bucket) (n : StnId) (k b : Nat) (x : Term2) : State :=
  ((s.entryFreed e k).putBlk n b (payloadOf (wfmtCode e.wfmt) x.1)).numFlags n (s.entrySum e n k).2
    (s.bucketTh e n k e.entryCnt x.2.1 x.2.2 false)

theorem State.entrySummed_kept (s : State) (e : Bucket) (n : StnId) (k b : Nat) (x : Term2) :
    entryKept s (s.entrySummed e n k b x) :=
  ((entryQuiet.entryFreed s e k).toentryKept.trans (entryKept.putBlk _ n b _)).trans (entryQuiet.numFlags _ n _ _).toentryKept

theorem State.buckets_entrySummed (s : State) (e : Bucket) (n : StnId) (k b : Nat) (x : Term2) :
    (s.entrySummed e n k b x).buckets = s.buckets :=
  (State.buckets_numFlags _ n _ _).trans (s.buckets_entryFreed e k)

/-- The sum reads back from its block, and every other block stands. -/
theorem State.vitBytes_entrySummed (s : State) (e : Bucket) (n : StnId) (k b : Nat) (x : Term2) :
    ((s.entrySummed e n k b x).st n).vitBytes ((s.st n).lay.blkAddr b) 4096 = payloadOf (wfmtCode e.wfmt) x.1 ∧
    ∀ m b', (m = n → (s.st n).lay.tilePool ≠ none ∧ b ≠ b') →
      ((s.entrySummed e n k b x).st m).vitBytes ((s.st m).lay.blkAddr b') 4096 =
        (s.st m).vitBytes ((s.st m).lay.blkAddr b') 4096 := by
  have hfreed := entryQuiet.entryFreed s e k
  have hflags (m : StnId) := (entryQuiet.numFlags ((s.entryFreed e k).putBlk n b (payloadOf (wfmtCode e.wfmt) x.1)) n
    (s.entrySum e n k).2 (s.bucketTh e n k e.entryCnt x.2.1 x.2.2 false)).vit m
  obtain ⟨hself, hother⟩ := State.vitBytes_putBlk (s.entryFreed e k) n b (payloadOf_length (wfmtCode e.wfmt) x.1)
  rw [hfreed.lay] at hself
  refine ⟨(Stn.vitBytes_congr (hflags n) _ _).trans hself, fun m b' h => ?_⟩
  have hkept := hother m b' (by rw [hfreed.lay]; exact h)
  rw [hfreed.lay, Stn.vitBytes_congr (hfreed.vit m)] at hkept
  exact (Stn.vitBytes_congr (hflags m) _ _).trans hkept

theorem State.entryTiles_step {s : State} {e : Bucket} {i k : Nat} {ks : List Nat} (hi : e.bucket % 4096 = i)
    (hbkt : s.bkt i = some e) (hready : s.entryReady e (k :: ks)) :
    ∃ t y, State.entryTiles i (k :: ks) s = State.entryTiles i ks t ∧ s.entryStep e i k t y := by
  obtain ⟨n, b, hn, hb⟩ := hready.station k List.mem_cons_self
  obtain ⟨hgood, hstk⟩ := s.readTiles_clean ((e.tilesAt k).map (fun x => (k, x))) (fun x hx => by
    obtain ⟨y, hy, rfl⟩ := List.mem_map.mp hx
    exact hready.clean k List.mem_cons_self y hy)
  generalize hread : s.readTiles ((e.tilesAt k).map (fun x => (k, x))) = c at hgood hstk
  obtain ⟨u, good⟩ := c
  obtain rfl : good = true := hgood
  have hu : entryQuiet s u := hstk.quiet
  have hsame : u.entrySum e n k = s.entrySum e n k := by rw [show u = _ from hstk]; rfl
  have hubkt : u.buckets = s.buckets := by rw [show u = _ from hstk]
  have hpresent : e.present ≠ [] := by
    intro h
    simp [Bucket.home, Bucket.tilesAt, h] at hb
  obtain ⟨x, hx⟩ := State.entrySum_some (s := s) (n := n) (k := k) hready.slots hpresent
  have htile : u.entryTile e k = some (u.entrySummed e n k b x, some ⟨some b, none, x.2.1, x.2.2⟩) :=
    State.entryTile_home ((hu.redStn k).trans hn) hb (hsame ▸ hx)
  have hkept : entryKept s (u.entrySummed e n k b x) := hu.toentryKept.trans (u.entrySummed_kept e n k b x)
  have hbuckets : (u.entrySummed e n k b x).buckets = s.buckets := (u.buckets_entrySummed e n k b x).trans hubkt
  obtain ⟨hself, hother⟩ := u.vitBytes_entrySummed e n k b x
  refine ⟨(u.entrySummed e n k b x).setBkt (e.entered k (some ⟨some b, none, x.2.1, x.2.2⟩)),
    ⟨some b, none, x.2.1, x.2.2⟩, ?_, ?_⟩
  · rw [State.entryTiles, hbkt]
    simp only [Bucket.readList_eq, hread, htile, Bool.not_true, Bool.false_eq_true, if_false]
  · refine ⟨hkept.trans (entryQuiet.setBkt _ _).toentryKept, State.bkt_setBkt_self _ _ hi, fun j hj => ?_, hb.symm,
      fun n' x' hn' hx' => ?_, fun m b' h => ?_⟩
    · exact (State.bkt_setBkt_ne _ (e.entered k _) hi hj).trans (congrArg (Cells.look · j) hbuckets)
    · obtain rfl : n = n' := Option.some.inj (hn.symm.trans hn')
      obtain rfl : x = x' := Option.some.inj (hx.symm.trans hx')
      refine ⟨?_, rfl, rfl⟩
      have hstn : ((u.entrySummed e n k b x).setBkt (e.entered k (some ⟨some b, none, x.2.1, x.2.2⟩))).redStn k = some n :=
        ((entryQuiet.setBkt _ _).redStn k).trans ((hkept.redStn k).trans hn)
      simp only [State.tileBytes, hstn]
      refine Eq.trans ?_ hself
      rw [hu.lay, ← hkept.lay]
      rfl
    · have hblk := hother m b' (fun hm => by
        subst hm
        obtain ⟨hpool, hne⟩ := h hn
        rw [hu.lay]
        exact ⟨hpool, fun hbb => hne (hbb ▸ hb)⟩)
      rw [hu.lay, Stn.vitBytes_congr (hu.vit m)] at hblk
      exact hblk

end Sys2Proof.Machine
end

section
/-! SUPPORT. The entry stage over the tiles of a chunk. -/

namespace Sys2Proof.Machine

open Sys2Proof

-- Elaborated in turn, as above: the joined text's check has a memory limit.
set_option Elab.async false

/-! ### The entry stage over the tiles of a chunk -/

theorem Bucket.home_mem {e : Bucket} {k b : Nat} (h : e.home k = some b) : ∃ x ∈ e.tilesAt k, x.blk = some b :=
  List.exists_of_findSome?_eq_some h

theorem Bucket.home_entered (e : Bucket) {k j : Nat} (y : Option BTile) (h : j ≠ k) : (e.entered k y).home j = e.home j := by
  rw [Bucket.home, Bucket.home, Bucket.tilesAt_entered _ _ h]

theorem State.memberTerm_some {s : State} {e : Bucket} {k : Nat} {m : Contr} {x : BTile} (h : Cells.look m.data k = some x) :
    s.memberTerm e k m = s.term (wfmtCode e.wfmt) k x := by
  rw [State.memberTerm, h]

theorem State.memberTerm_none {s : State} {e : Bucket} {k : Nat} {m : Contr} (h : Cells.look m.data k = none) :
    s.memberTerm e k m = (List.replicate (rowCap (wfmtCode e.wfmt) * 64) 0, false, false) := by
  rw [State.memberTerm, h]

section
variable {s t : State} {e : Bucket} {i k : Nat} {ks : List Nat} {y : BTile}

/-- No tile of another index stands in the sum's block. -/
theorem State.entryReady.home_ne (h : s.entryReady e (k :: ks)) {j b : Nat} {x : BTile} (hj : j ∈ ks) (hjk : j ≠ k)
    (hx : x ∈ e.tilesAt j) (hstn : s.redStn k = s.redStn j) (hb : x.blk = some b) : e.home k ≠ some b := by
  intro hhome
  obtain ⟨z, hz, hzb⟩ := Bucket.home_mem hhome
  exact hjk (h.apart k List.mem_cons_self z hz j (List.mem_cons_of_mem _ hj) x hx hstn (by simp [hzb]) (hzb.trans hb.symm)).symm

/-- The tiles that are still to be added keep their bytes. -/
theorem State.entryStep.tileBytes (hstep : s.entryStep e i k t y) (h : s.entryReady e (k :: ks)) {j : Nat} {x : BTile}
    (hj : j ∈ ks) (hjk : j ≠ k) (hx : x ∈ e.tilesAt j) : t.tileBytes j x = s.tileBytes j x :=
  hstep.kept.tileBytes (fun n b hn hb => hstep.blocks n b (fun hkn =>
    ⟨h.pool k List.mem_cons_self n hkn, h.home_ne hj hjk hx (hkn.trans hn.symm) hb⟩))

/-- The sums that are still to be made are those of the state before. -/
theorem State.entryStep.entrySum (hstep : s.entryStep e i k t y) (h : s.entryReady e (k :: ks)) {j : Nat} (hj : j ∈ ks)
    (hjk : j ≠ k) (n : StnId) : t.entrySum (e.entered k (some y)) n j = s.entrySum e n j := by
  have hterm : ∀ m ∈ e.present, t.memberTerm e j m = s.memberTerm e j m := fun m hm => by
    cases hx : Cells.look m.data j with
    | none => rw [State.memberTerm_none hx, State.memberTerm_none hx]
    | some x =>
      rw [State.memberTerm_some hx, State.memberTerm_some hx, State.term, State.term,
        hstep.tileBytes h hj hjk (Bucket.mem_tilesAt.mpr ⟨m, hm, hx⟩)]
  have hterms : t.slotTerms e j = s.slotTerms e j := by
    unfold State.slotTerms
    exact List.map_congr_left (fun f _ => Option.map_congr (fun m hm => hterm m (List.mem_of_find?_eq_some hm)))
  rw [State.entrySum, State.entrySum, State.slotTerms_entered _ _ _ hjk, hterms, hstep.kept.ftz, Bucket.wfmt_entered]

theorem State.entryStep.ready (hstep : s.entryStep e i k t y) (h : s.entryReady e (k :: ks)) (hk : k ∉ ks) :
    t.entryReady (e.entered k (some y)) ks := by
  have hne : ∀ j ∈ ks, j ≠ k := fun j hj hjk => hk (hjk ▸ hj)
  have htiles : ∀ j ∈ ks, (e.entered k (some y)).tilesAt j = e.tilesAt j := fun j hj => e.tilesAt_entered _ (hne j hj)
  refine ⟨fun m hm => ?_, fun j hj => ?_, fun j hj x hx => ?_, fun j hj n hn => ?_, fun j hj x hx l hl z hz hstn hb hbz => ?_⟩
  · rw [Bucket.present_entered] at hm
    obtain ⟨m', hm', rfl⟩ := List.mem_map.mp hm
    exact h.slots m' hm'
  · rw [hstep.kept.redStn, Bucket.home_entered _ _ (hne j hj)]
    exact h.station j (List.mem_cons_of_mem _ hj)
  · rw [htiles j hj] at hx
    exact hstep.kept.tileClean (h.clean j (List.mem_cons_of_mem _ hj) x hx)
  · rw [hstep.kept.redStn] at hn
    rw [hstep.kept.lay]
    exact h.pool j (List.mem_cons_of_mem _ hj) n hn
  · rw [htiles j hj] at hx
    rw [htiles l hl] at hz
    rw [hstep.kept.redStn, hstep.kept.redStn] at hstn
    exact h.apart j (List.mem_cons_of_mem _ hj) x hx l (List.mem_cons_of_mem _ hl) z hz hstn hb hbz

end

/-- A member's tiles without those of some indices. -/
def Contr.withoutAll (ks : List Nat) (c : Contr) : Contr := { c with data := c.data.filter (fun x => !ks.contains x.1) }

theorem Contr.withoutAll_nil (c : Contr) : c.withoutAll [] = c := by
  simp [Contr.withoutAll]

theorem Contr.withoutAll_cons (c : Contr) (k : Nat) (ks : List Nat) : (c.without k).withoutAll ks = c.withoutAll (k :: ks) := by
  simp only [Contr.withoutAll, Contr.without, Cells.erase_eq_filter, List.filter_filter, List.contains_cons, Bool.not_or]
  congr 2
  funext x
  rw [Bool.and_comm]

/-- What the entry stage of a list of tiles leaves: each sum in its home, the members' tiles gone, everything else as it
was. -/
structure State.entryAll (s : State) (e : Bucket) (i : Nat) (ks : List Nat) (t : State) (b : Bucket) : Prop where
  kept : entryKept s t
  entry : t.bkt i = some b
  others : ∀ j, j ≠ i → t.bkt j = s.bkt j
  own : ∀ k ∈ ks, ∃ y, Cells.look b.own k = some y ∧ y.blk = e.home k ∧
    ∀ n x, s.redStn k = some n → (s.entrySum e n k).1 = some x →
      t.tileBytes k y = payloadOf (wfmtCode e.wfmt) x.1 ∧ y.nf = x.2.1 ∧ y.fz = x.2.2
  ownOther : ∀ k, k ∉ ks → Cells.look b.own k = Cells.look e.own k
  nf : b.nf = true ↔ e.nf = true ∨ ∃ k ∈ ks, ∃ y, Cells.look b.own k = some y ∧ y.nf = true
  contrs : b.contrs = e.contrs.map (Contr.withoutAll ks)
  shape : b = { e with own := b.own, nf := b.nf, contrs := b.contrs }
  blocks : ∀ n c, (∀ k ∈ ks, s.redStn k = some n → (s.st n).lay.tilePool ≠ none ∧ e.home k ≠ some c) →
    (t.st n).vitBytes ((s.st n).lay.blkAddr c) 4096 = (s.st n).vitBytes ((s.st n).lay.blkAddr c) 4096

/-- Nothing is to be added. -/
theorem State.entryAll.nil {s : State} {e : Bucket} {i : Nat} (h : s.bkt i = some e) : s.entryAll e i [] s e := by
  refine ⟨entryKept.refl s, h, fun _ _ => rfl, fun k hk => by simp at hk, fun _ _ => rfl, by simp, ?_, rfl, fun _ _ _ => rfl⟩
  exact (List.map_id'' Contr.withoutAll_nil _).symm

/-- One tile and then the rest. -/
theorem State.entryAll.cons {s t u : State} {e b : Bucket} {i k : Nat} {ks : List Nat} {y : BTile}
    (hready : s.entryReady e (k :: ks)) (hk : k ∉ ks) (hstep : s.entryStep e i k t y)
    (h : t.entryAll (e.entered k (some y)) i ks u b) : s.entryAll e i (k :: ks) u b := by
  have hne : ∀ j ∈ ks, j ≠ k := fun j hj hjk => hk (hjk ▸ hj)
  have hfirst : Cells.look b.own k = some y := by
    rw [h.ownOther k hk]
    exact Cells.look_ins_self _ _ _
  refine ⟨hstep.kept.trans h.kept, h.entry, fun j hj => (h.others j hj).trans (hstep.others j hj), fun j hj => ?_,
    fun j hj => ?_, ?_, ?_, ?_, fun n c hc => ?_⟩
  · rcases List.mem_cons.mp hj with rfl | hj
    · refine ⟨y, hfirst, hstep.home, fun n x hn hx => ?_⟩
      obtain ⟨hbytes, hnf, hfz⟩ := hstep.sum n x hn hx
      refine ⟨?_, hnf, hfz⟩
      rw [← hbytes]
      refine h.kept.tileBytes (fun m c hm hc => h.blocks m c (fun l hl hlm => ?_))
      rw [hstep.kept.redStn] at hm hlm
      rw [hstep.kept.lay, Bucket.home_entered _ _ (hne l hl)]
      refine ⟨hready.pool l (List.mem_cons_of_mem _ hl) m hlm, fun hhome => ?_⟩
      obtain ⟨z, hz, hzb⟩ := Bucket.home_mem hhome
      exact hready.home_ne hl (hne l hl) hz (hm.trans hlm.symm) hzb (hstep.home ▸ hc)
    · obtain ⟨z, hz, hhome, hsum⟩ := h.own j hj
      refine ⟨z, hz, hhome.trans (e.home_entered _ (hne j hj)), fun n x hn hx => ?_⟩
      exact hsum n x ((hstep.kept.redStn j).trans hn) ((hstep.entrySum hready hj (hne j hj) n).symm ▸ hx)
  · rw [List.mem_cons, not_or] at hj
    rw [h.ownOther j hj.2]
    exact Cells.look_ins_ne _ _ hj.1
  · rw [h.nf, Bucket.entered_eq]
    simp only [Bool.or_eq_true, List.mem_cons, exists_eq_or_imp, hfirst, Option.some.injEq, exists_eq_left', or_assoc]
  · have hcontrs : (e.entered k (some y)).contrs = e.contrs.map (Contr.without k) := rfl
    rw [h.contrs, hcontrs, List.map_map]
    exact List.map_congr_left (fun c _ => c.withoutAll_cons k ks)
  · rw [h.shape, Bucket.entered_eq]
  · have hrest := h.blocks n c (fun j hj hjn => by
      rw [hstep.kept.lay, Bucket.home_entered _ _ (hne j hj)]
      exact hc j (List.mem_cons_of_mem _ hj) (hstep.kept.redStn j ▸ hjn))
    rw [hstep.kept.lay] at hrest
    exact hrest.trans (hstep.blocks n c (hc k List.mem_cons_self))

theorem State.entryTiles_all {s : State} {e : Bucket} {i : Nat} (ks : List Nat) (hi : e.bucket % 4096 = i)
    (hbkt : s.bkt i = some e) (hnodup : ks.Nodup) (hready : s.entryReady e ks) : ∃ b, s.entryAll e i ks (State.entryTiles i ks s) b := by
  induction ks generalizing s e with
  | nil => exact ⟨e, State.entryAll.nil hbkt⟩
  | cons k ks ih =>
    obtain ⟨hk, hnodup⟩ := List.nodup_cons.mp hnodup
    obtain ⟨t, y, heq, hstep⟩ := State.entryTiles_step hi hbkt hready
    obtain ⟨b, hrest⟩ := ih (s := t) (e := e.entered k (some y)) hi hstep.entry hnodup (hstep.ready hready hk)
    exact ⟨b, heq ▸ hrest.cons hready hk hstep⟩

end Sys2Proof.Machine
end

section
/-! SUPPORT. The SIZE exchange and the entry stage (O57). -/

namespace Sys2Proof.Machine

open Sys2Proof

-- Elaborated in turn, as above: the joined text's check has a memory limit.
set_option Elab.async false

/-! ### The command of the entry stage -/

/-- The tiles of chunk `h` whose sums are still to be made. -/
def State.entryLeft (s : State) (e : Bucket) (h : Nat) : List Nat := (s.chunkTiles e h).filter (fun k => !e.entryDone k)

/-- Every present member's tiles of a list are here. -/
def Bucket.tilesHere (e : Bucket) (l : List Nat) : Prop :=
  ∀ m ∈ e.present, ∀ k ∈ l, k < m.tiles → Cells.look m.data k ≠ none

/-- The chunk passes on with its last tile (R157). -/
def State.entryPassed (s : State) (i h : Nat) (ks : List Nat) : State :=
  match s.bkt i with
  | none => s
  | some e => (if ks.all e.entryDone then s.setBkt { e with entryCh := h + 1 } else s).retryRed

/-- An entry whose chunk `h` is the next of its entry stage. -/
structure State.entryTurn (s : State) (i h : Nat) (e : Bucket) : Prop where
  entry : s.bkt i = some e
  index : e.bucket % 4096 = i
  running : e.running = true
  settled : e.settled = true
  sized : s.sized e = true
  chunk : h = e.entryCh
  below : h < s.chunks e
  noWait : s.redWait = []

theorem Bucket.tilesHere_iff (e : Bucket) (l : List Nat) :
    e.present.all (fun c => l.all (fun k => decide (c.tiles ≤ k) || (Cells.look c.data k).isSome)) = true ↔
      e.tilesHere l := by
  simp only [List.all_eq_true, Bool.or_eq_true, decide_eq_true_eq, Option.isSome_iff_ne_none, Bucket.tilesHere]
  refine forall₄_congr (fun m _ k _ => ?_)
  rw [← Nat.not_lt, ← imp_iff_not_or]

theorem exec_entryStageChunk_here {s : State} {i : Fin 4096} {h : Nat} {e : Bucket} (ht : s.entryTurn i.val h e)
    (hhere : e.tilesHere (s.entryLeft e h)) :
    exec (.entryStageChunk i h) s =
      .next ((State.entryTiles i.val (s.entryLeft e h) s).entryPassed i.val h (s.chunkTiles e h)) := by
  have hall := (e.tilesHere_iff _).mpr hhere
  rw [State.entryLeft] at hall
  simp only [exec, execEntryStageChunk, ht.entry, ht.running, ht.settled, ht.sized, ← ht.chunk, ht.below, hall, beq_self_eq_true,
    decide_true, Bool.and_self, Bool.not_true, Bool.false_eq_true, if_false]
  rfl

theorem exec_entryStageChunk_not_here {s : State} {i : Fin 4096} {h : Nat} {e : Bucket} (ht : s.entryTurn i.val h e)
    (hhere : ¬ e.tilesHere (s.entryLeft e h)) : exec (.entryStageChunk i h) s = .next s := by
  have hall := (e.tilesHere_iff _).not.mpr hhere
  rw [State.entryLeft, Bool.not_eq_true] at hall
  simp only [exec, execEntryStageChunk, ht.entry, hall, Bool.and_false, Bool.not_false, if_true]

/-- No frame waits to be tried again. -/
theorem State.retryRed_nil {s : State} (h : s.redWait = []) : s.retryRed = s := by
  have hsame : ({ s with redWait := [] } : State) = s := by rw [← h]
  rw [State.retryRed, h]
  exact hsame

/-! ### A chunk whose sums can be made -/

theorem State.nodup_entryLeft (s : State) (e : Bucket) (h : Nat) : (s.entryLeft e h).Nodup :=
  ((List.nodup_range.map (fun a b hab => by simpa using hab)).filter _).filter _

/-- The tiles that the stage reads, each with its index. -/
def Bucket.leftTiles (e : Bucket) (l : List Nat) : List (Nat × BTile) :=
  l.flatMap (fun k => e.present.filterMap (fun m => (Cells.look m.data k).map (fun x => (k, x))))

theorem Bucket.mem_leftTiles {e : Bucket} {l : List Nat} {k : Nat} {x : BTile} (hk : k ∈ l) (hx : x ∈ e.tilesAt k) :
    (k, x) ∈ e.leftTiles l := by
  refine List.mem_flatMap.mpr ⟨k, hk, ?_⟩
  rw [Bucket.readList_eq]
  exact List.mem_map_of_mem hx

theorem State.entryReady_of {s : State} {e : Bucket} {l : List Nat} (hslots : ∀ m ∈ e.present, m.slot < 16)
    (hclean : ∀ x ∈ e.leftTiles l, tileClean s x.1 x.2) (hapart : Sys2Proof.apart s (e.leftTiles l))
    (hhome : ∀ k ∈ l, s.redStn k ≠ none ∧ ∃ m ∈ e.present, ∃ x, Cells.look m.data k = some x ∧ x.blk ≠ none) :
    s.entryReady e l := by
  refine ⟨hslots, fun k hk => ?_, fun k hk x hx => hclean _ (Bucket.mem_leftTiles hk hx), fun k hk n hn => ?_,
    fun k hk x hx j hj y hy hstn hb hxy => ?_⟩
  · obtain ⟨hstn, m, hm, x, hx, hb⟩ := hhome k hk
    obtain ⟨n, hn⟩ := Option.ne_none_iff_exists'.mp hstn
    have hsome : (e.home k).isSome = true := by
      rw [Bucket.home, List.findSome?_isSome_iff]
      exact ⟨x, Bucket.mem_tilesAt.mpr ⟨m, hm, hx⟩, Option.isSome_iff_ne_none.mpr hb⟩
    obtain ⟨b, hb'⟩ := Option.isSome_iff_exists.mp hsome
    exact ⟨n, b, hn, hb'⟩
  · obtain ⟨_, m, hm, x, hx, _⟩ := hhome k hk
    exact (hapart (k, x) (Bucket.mem_leftTiles hk (Bucket.mem_tilesAt.mpr ⟨m, hm, hx⟩)) n hn).1
  · obtain ⟨n, hn⟩ := Option.ne_none_iff_exists'.mp (hhome k hk).1
    exact (hapart (k, x) (Bucket.mem_leftTiles hk hx) n hn).2 (j, y) (Bucket.mem_leftTiles hj hy) (hstn ▸ hn) hb hxy

theorem State.entryAll.present {s t : State} {e b : Bucket} {i : Nat} {ks : List Nat} (h : s.entryAll e i ks t b) :
    b.present = e.present.map (Contr.withoutAll ks) := by
  rw [Bucket.present, h.contrs, List.filter_map]
  rfl

/-- Once its last sums are made the chunk passes on. -/
theorem State.entryAll.passed {s t : State} {e b : Bucket} {i h : Nat} (hi : e.bucket % 4096 = i) (hwait : s.redWait = [])
    (hall : s.entryAll e i (s.entryLeft e h) t b) :
    t.entryPassed i h (s.chunkTiles e h) = t.setBkt { b with entryCh := h + 1 } ∧ b.bucket % 4096 = i := by
  have hindex : b.bucket % 4096 = i := by rw [hall.shape]; exact hi
  have hdone : (s.chunkTiles e h).all b.entryDone = true := by
    rw [List.all_eq_true]
    intro k hk
    by_cases hleft : k ∈ s.entryLeft e h
    · obtain ⟨y, hy, _⟩ := hall.own k hleft
      rw [Bucket.entryDone, hy, Option.isSome_some, Bool.or_true]
    · have hbefore : e.entryDone k = true := by simpa [State.entryLeft, hk] using hleft
      rw [Bucket.entryDone, hall.present, hall.ownOther k hleft, List.isEmpty_map]
      exact hbefore
  have hnone : (t.setBkt { b with entryCh := h + 1 }).redWait = [] := by
    have hkept : t.redWait = s.redWait := by rw [hall.kept.frame]
    exact hkept.trans hwait
  refine ⟨?_, hindex⟩
  rw [State.entryPassed, hall.entry]
  simp only [hdone, if_true]
  exact State.retryRed_nil hnone

/-! ### A sum that waits for a block -/

theorem State.entryTiles_waits {s : State} {e : Bucket} {i k : Nat} {r : List Nat} {n : StnId} (hbkt : s.bkt i = some e)
    (hslots : ∀ m ∈ e.present, m.slot < 16) (hpresent : e.present ≠ []) (hn : s.redStn k = some n)
    (hnone : ∀ m ∈ e.present, Cells.look m.data k = none) (halloc : s.allocTile n .wicket (tileKey e.bucket k 31) = none) :
    State.entryTiles i (k :: r) s = s.waitB e.bucket k 31 := by
  have htiles : e.tilesAt k = [] := List.filterMap_eq_nil_iff.mpr hnone
  have hhome : e.home k = none := by rw [Bucket.home, htiles]; rfl
  have hfreed : s.entryFreed e k = s := by rw [State.entryFreed, htiles]; rfl
  obtain ⟨x, hx⟩ := State.entrySum_some (s := s) (n := n) (k := k) hslots hpresent
  have htake : ∀ bytes nf fz, s.takeB e.bucket k 31 bytes nf fz = none := fun bytes nf fz => by
    simp only [State.takeB, hn, halloc]
  have htile : s.entryTile e k = none := by
    rw [State.entryTile_eq]
    simp only [hn, hx, hhome, hfreed, htake]
  have hread : s.readTiles (([] : List BTile).map (fun x => (k, x))) = (s, true) := rfl
  rw [State.entryTiles, hbkt]
  simp only [Bucket.readList_eq, htiles, hread, htile, Bool.not_true, Bool.false_eq_true, if_false]

theorem State.waitB_frame (s : State) (bucket k who : Nat) :
    (s.waitB bucket k who).buckets = s.buckets ∧ (s.waitB bucket k who).redWait = s.redWait := by
  unfold State.waitB State.clkWait
  split
  · split <;> exact ⟨rfl, rfl⟩
  · exact ⟨rfl, rfl⟩

/-- A chunk one of whose sums waits does not pass on. -/
theorem State.entryPassed_waits {s : State} {e : Bucket} {i k h : Nat} (hbkt : s.bkt i = some e) (hwait : s.redWait = [])
    (hk : k ∈ s.entryLeft e h) :
    (s.waitB e.bucket k 31).entryPassed i h (s.chunkTiles e h) = s.waitB e.bucket k 31 := by
  obtain ⟨hbuckets, hredWait⟩ := s.waitB_frame e.bucket k 31
  obtain ⟨hchunk, hdone⟩ := List.mem_filter.mp hk
  have hnot : (s.chunkTiles e h).all e.entryDone = false := by
    rw [List.all_eq_false]
    exact ⟨k, hchunk, by simpa using hdone⟩
  have hentry : (s.waitB e.bucket k 31).bkt i = some e := by rw [State.bkt, hbuckets]; exact hbkt
  rw [State.entryPassed, hentry]
  simp only [hnot, Bool.false_eq_true, if_false]
  exact State.retryRed_nil (hredWait.trans hwait)

/-! ### The statement -/

/-- Settles O57: a round of the SIZE exchange sends or adds (`exec_sizeExchangeRound_sends`,
`exec_sizeExchangeRound_adds`); the entry stage adds tile by tile (`State.entryTiles_all`, by induction over the chunk's
tiles), waits (`State.entryTiles_waits`) or is not due. -/
theorem sizesAndEntryStage : Obligations.SizesAndEntryStage := by
  unfold Obligations.SizesAndEntryStage
  refine ⟨fun s i r e hbkt hi hdyn hsettled hrunning hround hnext hbefore => ?_,
    fun s i h e hbkt hi hrunning hsettled hsized hch hbelow hwait hslots => ?_⟩
  · have hturn : s.sizeTurn i r e := ⟨hbkt, hdyn, hsettled, hrunning, hround, hnext, hbefore⟩
    refine ⟨fun q c x hsent hnone hroute => ?_, fun q c h hsent hsome => ?_⟩
    · refine ⟨_, exec_sizeExchangeRound_sends hturn hi hsent hnone, ?_⟩
      rw [State.sizeHeader_sent hroute]
      refine ⟨State.bkt_setBkt_self s (e.sizeGone r.val) hi, ?_, fun p hp => State.pt_modPt_ne _ _ hp,
        fun j hj => State.bkt_setBkt_ne s (e.sizeGone r.val) hi hj, rfl⟩
      have hdiv : (if (x != 0) = true then some s.ht else none) = if x = 0 then none else some s.ht := by
        by_cases hx : x = 0 <;> simp [hx]
      rw [State.toEgress, State.pt_modPt_self, ← hdiv]
      rfl
    · exact ⟨_, exec_sizeExchangeRound_adds hturn hsent hsome, State.bkt_setBkt_self s (e.sizeTaken r.val c h) hi,
        fun j hj => State.bkt_setBkt_ne s (e.sizeTaken r.val c h) hi hj, rfl⟩
  · have hturn : s.entryTurn i.val h e := ⟨hbkt, hi, hrunning, hsettled, hsized, hch, hbelow, hwait⟩
    intro ks left c zero term sum here tiles
    refine ⟨fun hhere hclean hapart hhome => ?_, fun k r n hhere hleft hn hnone halloc => ?_, fun hhere => ?_⟩
    · have hready : s.entryReady e (s.entryLeft e h) := State.entryReady_of hslots hclean hapart hhome
      obtain ⟨b, hall⟩ := State.entryTiles_all (s.entryLeft e h) hi hbkt (s.nodup_entryLeft e h) hready
      obtain ⟨hpassed, hindex⟩ := hall.passed hi hwait
      have hterm : ∀ k, (fun m => term m k) = s.memberTerm e k := fun k => funext fun m => by
        cases hx : Cells.look m.data k with
        | none => rw [State.memberTerm_none hx]; simp only [term, hx]; rfl
        | some x => rw [State.memberTerm_some hx]; simp only [term, hx]; rfl
      have hsum : ∀ n k, sum n k = (s.entrySum e n k).1 := fun n k => by
        simp only [sum, hterm]
        rfl
      rw [exec_entryStageChunk_here hturn hhere, hpassed]
      refine ⟨_, { b with entryCh := h + 1 }, rfl, State.bkt_setBkt_self _ _ hindex, rfl, fun k n x hk hn hx => ?_, hall.ownOther,
        hall.nf, hall.contrs, fun j hj => (State.bkt_setBkt_ne _ { b with entryCh := h + 1 } hindex hj).trans (hall.others j hj),
        ?_, ?_, ?_⟩
      · obtain ⟨y, hy, hblk, hy'⟩ := hall.own k hk
        obtain ⟨hbytes, hnf, hfz⟩ := hy' n x hn ((hsum n k).symm.trans hx)
        obtain ⟨_, b', _, hb'⟩ := hready.station k hk
        exact ⟨y, hy, ((entryQuiet.setBkt _ _).tileBytes k y).trans hbytes, hnf, hfz, by rw [hblk, hb']; simp⟩
      · rw [hall.kept.frame]; rfl
      · rw [hall.kept.frame]; rfl
      · rw [hall.kept.frame]; rfl
    · have hcons : s.entryLeft e h = k :: r := hleft
      have hk : k ∈ s.entryLeft e h := hcons ▸ List.mem_cons_self
      have hpresent : e.present ≠ [] := by
        have hdone := (List.mem_filter.mp hk).2
        intro hnil
        simp [Bucket.entryDone, hnil] at hdone
      rw [exec_entryStageChunk_here hturn hhere, hcons,
        State.entryTiles_waits hbkt hslots hpresent hn hnone halloc, State.entryPassed_waits hbkt hwait hk]
    · exact exec_entryStageChunk_not_here hturn hhere

end Sys2Proof.Machine
end

section
/-! SUPPORT. A unit that takes its turn, and the instructions of the access stream (O6). -/

namespace Sys2Proof.Machine

open Sys2Proof

/-! ### A command that changes one station -/

/-- Two changes of a station in a row are one. -/
theorem State.modSt_modSt (s : State) (n : StnId) (f g : Stn → Stn) :
    (s.modSt n f).modSt n g = s.modSt n (fun x => g (f x)) := by
  simp [State.modSt, State.setSt, State.st]

theorem stnsBut.modSt (s : State) (n : StnId) (f : Stn → Stn) : stnsBut n s (s.modSt n f) :=
  fun _ hm => State.st_modSt_ne s f hm

/-! ### A unit takes its turn -/

/-- A unit that acts changes what the cycle records, and arms a cut that was to be armed; nothing else. -/
@[simp] theorem Stn.act_frame (x : Stn) (u : Actor) :
    (x.act u).powered = x.powered ∧ (x.act u).released = x.released ∧ (x.act u).offTick = x.offTick ∧ (x.act u).st = x.st ∧
    (x.act u).lay = x.lay ∧ (x.act u).used = x.used ∧ (x.act u).vit = x.vit ∧ (x.act u).vitBad = x.vitBad ∧
    (x.act u).scrubAt = x.scrubAt ∧ (x.act u).vitBack = x.vitBack ∧ (x.act u).ingUsed = x.ingUsed ∧
    (x.act u).ingBad = x.ingBad ∧ (x.act u).asMem = x.asMem ∧ (x.act u).xsMem = x.xsMem ∧ (x.act u).as = x.as ∧
    (x.act u).xs = x.xs ∧ (x.act u).q = x.q ∧ (x.act u).flags = x.flags ∧ (x.act u).loads = x.loads ∧
    (x.act u).loadId = x.loadId ∧ (x.act u).bcopies = x.bcopies ∧ (x.act u).wd = x.wd ∧ (x.act u).numDone = x.numDone ∧
    (x.act u).halts = x.halts ∧ (x.act u).lup = x.lup ∧ (x.act u).voq = x.voq ∧ (x.act u).resv = x.resv ∧
    (x.act u).issCnt = x.issCnt ∧ (x.act u).issFrac = x.issFrac ∧ (x.act u).reqs = x.reqs := by
  unfold Stn.act Stn.newCycle
  split <;> exact ⟨rfl, rfl, rfl, rfl, rfl, rfl, rfl, rfl, rfl, rfl, rfl, rfl, rfl, rfl, rfl, rfl, rfl, rfl, rfl, rfl, rfl, rfl,
    rfl, rfl, rfl, rfl, rfl, rfl, rfl, rfl⟩

theorem asTurn_eq (s : State) (n : StnId) : asTurn s n = (s.st n).act .as := State.st_modSt_self _ _ _

theorem State.st_act_as (s : State) (n : StnId) : (s.act n .as).st n = asTurn s n := rfl

@[simp] theorem asTurn_as (s : State) (n : StnId) : (asTurn s n).as = (s.st n).as := by simp [asTurn_eq]

/-- What follows the turn of the access stream is one change of its station. -/
theorem State.act_modSt (s : State) (n : StnId) (f : Stn → Stn) :
    (s.act n .as).modSt n f = s.setSt n (f (asTurn s n)) := by
  rw [asTurn_eq, State.act, State.modSt_modSt]; rfl

/-! ### How an instruction of the access stream ends -/

theorem State.asRetire_eq (s : State) (n : StnId) : s.asRetire n = s.modSt n (fun x => x.asGo ((s.st n).as.pc + 1)) := rfl

/-- The stream goes on at `pc`, with `v` in the G register `d`. -/
theorem asSets_setG (s : State) (n : StnId) (d : Fin 16) (v : DWord) (pc : Nat) :
    asSets n d v.toNat pc s (((s.act n .as).setG n d v).modSt n (fun x => x.asGo pc)) := by
  rw [State.setG, State.modSt_modSt, State.act_modSt]
  refine ⟨⟨rfl, fun m hm => State.st_setSt_ne s _ hm, ?_⟩, ?_, fun e he => ?_⟩
  · simp [Stn.asGo]
  · simp [Stn.asGo]
  · have : d.val ≠ e.val := fun h => he (Fin.ext h.symm)
    simp [Stn.asGo, this]

theorem asSets_retire (s : State) (n : StnId) (d : Fin 16) (v : DWord) :
    asSets n d v.toNat ((s.st n).as.pc + 1) s (((s.act n .as).setG n d v).asRetire n) := by
  have hpc : (((s.act n .as).setG n d v).st n).as.pc = (s.st n).as.pc := by simp [State.setG, State.st_act_as]
  rw [State.asRetire_eq, hpc]
  exact asSets_setG s n d v _

theorem asPlain_go (s : State) (n : StnId) (pc : Nat) : asPlain n pc s ((s.act n .as).modSt n (fun x => x.asGo pc)) := by
  rw [State.act_modSt]
  refine ⟨⟨rfl, fun m hm => State.st_setSt_ne s _ hm, ?_⟩, ?_⟩ <;> simp [Stn.asGo]

theorem asWaits_wait (s : State) (n : StnId) (k : WaitKind) (obj : Nat) : asWaits n k obj s ((s.act n .as).asWait n k obj) := by
  rw [State.asWait, State.act_modSt]
  refine ⟨rfl, fun m hm => State.st_setSt_ne s _ hm, ?_⟩
  simp

end Sys2Proof.Machine
end

section
/-! SUPPORT. What a halt keeps of a station and of the Catalogue (O6, O10, O16, O19). -/

namespace Sys2Proof.Machine

open Sys2Proof

/-! ### Where the streams of a station stand

A landing, a fence and a halt leave the program counters, the G and H registers and NB as they were. -/

/-- The program counters of both streams, the G and H registers, and NB. -/
def Stn.place (x : Stn) : Nat × Vector DWord 16 × Vector TH 8 × Nat × DWord :=
  (x.as.pc, x.as.g, x.as.h, x.xs.pc, x.cut.nb)

theorem Stn.place_eq {x y : Stn} (h : x.place = y.place) :
    x.as.pc = y.as.pc ∧ x.as.g = y.as.g ∧ x.as.h = y.as.h ∧ x.xs.pc = y.xs.pc ∧ x.cut.nb = y.cut.nb := by
  simpa only [Stn.place, Prod.mk.injEq] using h

@[simp] theorem Stn.place_freeTile (x : Stn) (b : Option Nat) : (x.freeTile b).place = x.place := by
  rw [Stn.freeTile_shape]; rfl

@[simp] theorem Stn.place_replaceT (x : Stn) (d : Fin 16) (t : Option Tile) : (x.replaceT d t).place = x.place :=
  Stn.place_freeTile x _

@[simp] theorem Stn.place_landTile (x : Stn) (d : Fin 16) (th : TH) (b : Nat) (bs : List Byte) :
    (x.landTile d th b bs).place = x.place := Stn.place_replaceT _ _ _

theorem Stn.place_landRes (x : Stn) (r : Result) : (x.landRes r).place = x.place := by
  cases r with
  | tile d th b bytes m => cases m <;> exact Stn.place_landTile x d th b bytes
  | tile2 d th b bytes th2 b2 bytes2 => exact (Stn.place_landTile _ _ _ _ _).trans (Stn.place_landTile _ _ _ _ _)
  | thWord d w v =>
    simp only [Stn.landRes]
    split
    · unfold Stn.putTh
      split
      · exact Stn.place_replaceT _ _ _
      · split <;> rfl
    · rfl
  | frame d t => exact Stn.place_replaceT _ _ _
  | empty d => exact Stn.place_replaceT _ _ _
  | x | acc | ea | superseded => rfl

/-- A code that is not Fatal leaves the stations alone. -/
theorem State.st_raise_mild (s : State) {c : Code} (u : UnitId) (e : List Word) (h : c.cls ≠ .fatal) (m : StnId) :
    (s.raise c u e).st m = s.st m := by
  rw [State.st, State.st, (s.raise_mild u e h).2.2.2]

theorem State.place_numFlags (s : State) (n : StnId) (fl : BitVec 5) (th : TH) :
    ((s.numFlags n fl th).st n).place = (s.st n).place := by
  unfold State.numFlags
  refine foldl_inv (fun t : State => (t.st n).place = (s.st n).place) _ (fun t i ht => ?_) _ _ rfl
  split
  · dsimp only
    split
    · rw [State.st_raise_mild _ _ _ (by decide), State.st_modSt_self]
      exact ht
    · exact ht
  · exact ht

theorem State.place_landOne (s : State) (n : StnId) (p : Pend) : ((s.landOne n p).st n).place = (s.st n).place := by
  have hcount (t : State) (a k : Nat) : (if k = 0 then t else t.addSat a k).st n = t.st n := by split <;> rfl
  have hlands : ((s.modSt n (fun x => (x.landRes p.res).settleAcc p.res.accOf p.order)).st n).place = (s.st n).place := by
    rw [State.st_modSt_self]
    exact Stn.place_landRes _ _
  unfold State.landOne
  dsimp only
  rw [State.place_numFlags, hcount, hcount]
  split
  · rw [State.freeMax, State.st_modSt_self]
    exact hlands
  · exact hlands

theorem State.place_landAll (s : State) (n : StnId) : ((s.landAll n).st n).place = (s.st n).place := by
  have hfirst : ∀ (k : Nat) (t : State), ((State.landFirst n none k t).st n).place = (t.st n).place := by
    intro k
    induction k with
    | zero => exact fun t => rfl
    | succ k ih =>
      intro t
      unfold State.landFirst
      split
      · rfl
      · rw [ih, State.place_landOne, State.st_modSt_self]
        rfl
  exact hfirst _ s

/-- Blocks freed one after the other. -/
theorem Stn.place_freeTiles {α : Type} (g : α → Option Nat) (l : List α) (x : Stn) :
    (l.foldl (fun y a => y.freeTile (g a)) x).place = x.place :=
  foldl_keep Stn.place _ (fun y a => y.place_freeTile (g a)) l x

theorem Stn.place_clearLupin (x : Stn) : x.clearLupin.place = x.place :=
  Stn.place_freeTiles (fun t : Tile => t.blk) _ _

theorem Stn.place_clearQueues (x : Stn) : x.clearQueues.place = x.place := by rw [Stn.clearQueues_shape]; rfl

theorem Stn.place_clearT (x : Stn) : x.clearT.place = x.place :=
  foldl_keep Stn.place _ (fun y d => y.place_replaceT d none) _ _

theorem Stn.place_dropGot (x : Stn) : x.dropGot.place = x.place := Stn.place_freeTiles (fun b : Nat => some b) _ _

theorem Stn.place_clearWaits (x : Stn) : x.clearWaits.place = x.place := by
  have h := x.place_dropGot
  simp only [Stn.place, Stn.clearWaits] at h ⊢
  exact h

theorem Stn.place_killCopies (x : Stn) : x.killCopies.place = x.place := rfl

theorem Stn.place_withState (x : Stn) (v : StnState) : ({ x with st := v } : Stn).place = x.place := rfl

theorem State.place_portDown (s : State) (p : PortId) (n : StnId) : ((s.portDown p).st n).place = (s.st n).place := by
  rw [State.st_portDown]; rfl

theorem State.place_dropFrames (n : StnId) (l : List VoqFrame) (s : State) :
    ((l.foldl (fun t f => t.dropFrame n f) s).st n).place = (s.st n).place :=
  foldl_keep (fun t : State => (t.st n).place) (fun t f => t.dropFrame n f)
    (fun t f => by rw [(dropsOnly.dropFrame t n f).2.1]; rfl) l s

/-- A report and an interrupt leave the stations alone. -/
theorem State.st_windows_vector (s : State) (u : UnitId) (p : Code → Bool) (v : Nat) (m : StnId) :
    ((s.closeWindows u p).vector v).st m = s.st m := by
  simp [State.st]

theorem State.place_dropLupin (s : State) (n : StnId) : ((s.dropLupin n).st n).place = (s.st n).place := by
  rw [State.dropLupin, State.st_modSt_self, Stn.place_clearLupin]
  rfl

theorem State.place_fence (s : State) (n : StnId) : ((s.fence n).st n).place = (s.st n).place := by
  have hcount (t : State) (a k : Nat) : ((t.addSat a k).st n).place = (t.st n).place := rfl
  unfold State.fence
  simp only [State.st_windows_vector, State.place_portDown, State.st_modSt_self, Stn.place_withState, Stn.place_clearWaits,
    Stn.place_killCopies, Stn.place_clearT, Stn.place_clearQueues, State.place_dropLupin, State.place_dropFrames, hcount,
    State.place_landAll]

/-! ### Events stay in the Catalogue (R402) -/

/-- Events that wait in the Catalogue still wait, and new ones have later numbers. -/
structure catGrows (s t : State) : Prop where
  eid : s.cat.eid ≤ t.cat.eid
  queue : ∀ e ∈ s.cat.queue, e ∈ t.cat.queue
  urgent : ∀ e ∈ s.cat.urgent, e ∈ t.cat.urgent
  full : s.cat.queue.length ≤ t.cat.queue.length

theorem catGrows.of_eq {s t : State} (he : t.cat.eid = s.cat.eid) (hq : t.cat.queue = s.cat.queue)
    (hu : t.cat.urgent = s.cat.urgent) : catGrows s t :=
  ⟨he.ge, fun _ h => hq ▸ h, fun _ h => hu ▸ h, by rw [hq]⟩

theorem catGrows.of_cat {s t : State} (h : t.cat = s.cat) : catGrows s t := .of_eq (by rw [h]) (by rw [h]) (by rw [h])

theorem catGrows.refl (s : State) : catGrows s s := .of_cat rfl

theorem catGrows.trans {s t u : State} (h : catGrows s t) (k : catGrows t u) : catGrows s u :=
  ⟨h.eid.trans k.eid, fun e he => k.queue e (h.queue e he), fun e he => k.urgent e (h.urgent e he), h.full.trans k.full⟩

theorem catGrows.raised {s t u : State} {c : Code} {v : UnitId} (h : raised c v s t) (k : catGrows t u) : raised c v s u := by
  obtain ⟨e, hcode, hcls, hunit, hht, hstep, heid, hin⟩ := h
  refine ⟨e, hcode, hcls, hunit, hht, hstep, heid, ?_⟩
  rcases hin with hin | hin | hin
  · exact Or.inl (k.queue e hin)
  · exact Or.inr (Or.inl (k.urgent e hin))
  · exact Or.inr (Or.inr (hin.trans k.full))

/-- An event raised after other work of the tick was raised since its start. -/
theorem raised.of_later {s t u : State} {c : Code} {v : UnitId} (h : raised c v t u) (hht : t.ht = s.ht)
    (hstep : t.stepCur = s.stepCur) (k : catGrows s t) : raised c v s u := by
  obtain ⟨e, hcode, hcls, hunit, hht', hstep', heid, hin⟩ := h
  exact ⟨e, hcode, hcls, hunit, hht'.trans hht, hstep'.trans hstep, k.eid.trans heid, hin⟩

theorem State.openWindow_eid (s : State) (u : UnitId) (i : Nat) (c : Code) : (s.openWindow u i c).cat.eid = s.cat.eid := by
  unfold State.openWindow; split <;> rfl

/-- The event that a raise captures (R402). -/
def State.eventOf (s : State) (c : Code) (u : UnitId) (extra : List Word) : Event :=
  { eid := s.cat.eid, ht := s.ht, code := c, cls := c.cls, unit := u, step := s.stepCur, temp := s.unitTemp u,
    tempMax := hottest s.cur.smp.tStn, load := s.loadOf u, detail := s.details c u extra,
    parent := (s.cat.windows.find? (fun w => w.unit = u)).map (fun w => (w.eid, w.cls)) }

/-- What a raise that is not Fatal does to the events that wait. -/
theorem State.raise_events (s : State) {c : Code} (u : UnitId) (x : List Word) (h : c.cls ≠ .fatal) :
    (s.raise c u x).cat.eid = s.cat.eid + 1 ∧
    (s.raise c u x).cat.urgent = s.cat.urgent ++ (if c.cls = .fenced then [s.eventOf c u x] else []) ∧
    (s.raise c u x).cat.queue = s.cat.queue ++
      (if c.cls = .fenced then [] else if s.cat.queue.length < 4096 then [s.eventOf c u x] else []) := by
  have hopen (t : State) (i : Nat) : (if c.opens u then t.openWindow u i c else t).cat.eid = t.cat.eid ∧
      (if c.opens u then t.openWindow u i c else t).cat.urgent = t.cat.urgent ∧
      (if c.opens u then t.openWindow u i c else t).cat.queue = t.cat.queue := by
    split <;> simp [State.openWindow_queue, State.openWindow_eid]
  unfold State.raise State.raiseAt
  simp only [h, or_false, if_false, hopen]
  by_cases hf : c.cls = .fenced
  · simp [hf, State.eventOf]
  · by_cases hroom : s.cat.queue.length < 4096 <;> simp [hf, hroom, State.eventOf]

theorem catGrows.raise (s : State) {c : Code} (u : UnitId) (x : List Word) (h : c.cls ≠ .fatal) :
    catGrows s (s.raise c u x) := by
  obtain ⟨he, hu, hq⟩ := s.raise_events u x h
  refine ⟨(Nat.le_succ _).trans he.ge, fun e he => ?_, fun e he => ?_, ?_⟩
  · rw [hq]; exact List.mem_append_left _ he
  · rw [hu]; exact List.mem_append_left _ he
  · rw [hq, List.length_append]; exact Nat.le_add_right _ _

theorem State.raise_raised (s : State) {c : Code} (u : UnitId) (x : List Word) (h : c.cls ≠ .fatal) :
    raised c u s (s.raise c u x) := by
  obtain ⟨-, hu, hq⟩ := s.raise_events u x h
  refine ⟨s.eventOf c u x, rfl, rfl, rfl, rfl, rfl, Nat.le_refl _, ?_⟩
  rw [hu, hq]
  by_cases hcls : c.cls = .fenced
  · simp [hcls]
  · by_cases hroom : s.cat.queue.length < 4096
    · simp [hcls, hroom]
    · right; right
      rw [List.length_append]
      exact (Nat.le_of_not_lt hroom).trans (Nat.le_add_right _ _)

theorem catGrows.modSt (s : State) (n : StnId) (f : Stn → Stn) : catGrows s (s.modSt n f) := .of_cat rfl

theorem catGrows.setBitEvt (s : State) (a i : Nat) : catGrows s (s.setBitEvt a i) := .of_cat rfl

theorem catGrows.numFlags (s : State) (n : StnId) (fl : BitVec 5) (th : TH) : catGrows s (s.numFlags n fl th) := by
  unfold State.numFlags
  refine foldl_inv (catGrows s) _ (fun t i ht => ?_) _ _ (.refl s)
  split
  · have hbit := ht.trans (.setBitEvt t (Reg.stnNumFlags n.val) i)
    dsimp only
    split
    · exact (hbit.trans (.modSt _ _ _)).trans (.raise _ _ _ (by decide))
    · exact hbit
  · exact ht

theorem catGrows.landOne (s : State) (n : StnId) (p : Pend) : catGrows s (s.landOne n p) := by
  have hcount (t : State) (a k : Nat) : (if k = 0 then t else t.addSat a k).cat = t.cat := by split <;> rfl
  unfold State.landOne
  dsimp only
  refine .trans (.of_cat ?_) (.numFlags _ n _ _)
  rw [hcount, hcount]
  split <;> rfl

theorem catGrows.landAll (s : State) (n : StnId) : catGrows s (s.landAll n) := by
  have hfirst : ∀ (k : Nat) (t : State), catGrows t (State.landFirst n none k t) := by
    intro k
    induction k with
    | zero => exact fun t => .refl t
    | succ k ih =>
      intro t
      unfold State.landFirst
      split
      · exact .refl t
      · exact ((catGrows.modSt _ _ _).trans (.landOne _ n _)).trans (ih _)
  exact hfirst _ s

theorem catGrows.vector (s : State) (v : Nat) : catGrows s (s.vector v) := .of_cat (by simp)

theorem catGrows.closeWindows (s : State) (u : UnitId) (p : Code → Bool) : catGrows s (s.closeWindows u p) := .of_eq rfl rfl rfl

theorem catGrows.fence (s : State) (n : StnId) : catGrows s (s.fence n) := by
  have hframes : ∀ (l : List VoqFrame) (t : State), (l.foldl (fun t f => t.dropFrame n f) t).cat = t.cat := fun l t =>
    foldl_keep State.cat (fun t f => t.dropFrame n f) (fun t f => by rw [(dropsOnly.dropFrame t n f).1]) l t
  have hdown (t : State) (p : PortId) : (t.portDown p).cat = t.cat := by
    unfold State.portDown; simp only []; split <;> simp
  refine (catGrows.landAll s n).trans ?_
  unfold State.fence
  dsimp only
  refine .trans (.of_cat ?_) ((catGrows.closeWindows _ _ _).trans (.vector _ _))
  simp only [hdown, State.dropLupin, State.modSt_frame, State.addSat_frame, hframes]

end Sys2Proof.Machine
end

section
/-! SUPPORT. The halt of a station whose streams run or are idle (R66, R409). -/

namespace Sys2Proof.Machine

open Sys2Proof

/-! ### The registers of a station -/

theorem stnBase_ge (n : StnId) (o : Nat) : 0x1000000 ≤ stnBase n + o :=
  (Nat.le_add_right _ _).trans (Nat.le_add_right _ _)

theorem stnBase_lt (n : StnId) {o : Nat} (h : o < 0x40000) : stnBase n + o < 0x2000000 :=
  calc stnBase n + o < stnBase n + 0x40000 := Nat.add_lt_add_left h _
    _ = 0x1000000 + 0x40000 * (n.val + 1) := Nat.add_assoc _ _ _
    _ ≤ 0x1000000 + 0x40000 * 64 := Nat.add_le_add_left (Nat.mul_le_mul_left _ n.isLt) _

theorem stnReg_not_reportReg (n : StnId) {o : Nat} (h : o < 0x40000) : ¬ reportReg (stnBase n + o) :=
  not_reportReg ((by decide : 0x80000 ≤ 0x1000000).trans (stnBase_ge n o)) (stnBase_lt n h)

/-- The registers of a station at the offsets `l`. -/
def stnRegs (n : StnId) (l : List Nat) : List Nat := l.map (stnBase n + ·)

theorem mem_stnRegs {n : StnId} {k : Nat} {l : List Nat} : stnBase n + k ∈ stnRegs n l ↔ k ∈ l :=
  List.mem_map_of_injective (add_right_injective (stnBase n))

theorem stnRegs_subset (n : StnId) {l l' : List Nat} (h : ∀ k ∈ l, k ∈ l') : stnRegs n l ⊆ stnRegs n l' :=
  List.map_subset _ h

theorem freezeRegs_eq (n : StnId) :
    freezeRegs n = stnRegs n [0x30104, 0x30124, 0x30128, 0x30120, 0x54, 0x78, 0x7C] := rfl

/-- The landing of results touches registers that a freeze touches. -/
theorem landRegs_subset (n : StnId) :
    [Reg.stnNumFlags n.val, Reg.stnPhxRecs n.val, Reg.stnPhxKept n.val] ⊆ freezeRegs n :=
  List.subset_append_right [Reg.stnCutStat n.val, Reg.stnCutHtLo n.val, Reg.stnCutHtLo n.val + 4, Reg.stnCutPend n.val] _

/-- A station's register is not HT_STEP_CUR. -/
theorem stnReg_ne_stepCur (n : StnId) (k : Nat) : stnBase n + k ≠ Reg.htStepCur :=
  (lt_of_lt_of_le (by decide : Reg.htStepCur < 0x1000000) (stnBase_ge n k)).ne'

theorem stepCur_not_stnRegs (n : StnId) (l : List Nat) : Reg.htStepCur ∉ stnRegs n l := by
  intro h
  obtain ⟨k, -, hk⟩ := List.mem_map.mp h
  exact stnReg_ne_stepCur n k hk

/-! ### A fault halts the station -/

/-- The state in which a fault's tile, if any, stands in STN_HALT. -/
def State.haltTile (s : State) (n : StnId) (th : Option TH) : State :=
  match th with
  | some t => s.setRg (Reg.stnHalt n.val) t.haltWord
  | none => s

/-- The halt of a station whose streams run or are idle, before its escalation. -/
def State.felled (s : State) (n : StnId) (c : Code) (x : List Word) : State :=
  (((((s.freezeFault n).landAll n).modSt n Stn.fall).raise c (uStn n) x).openWindow (uStn n) s.cat.eid c).vector n.val

theorem State.haltBy_eq {s : State} {n : StnId} (c : Code) (th : Option TH) (x : List Word)
    (h : (s.st n).st = .running ∨ (s.st n).st = .idle) :
    s.haltBy n c th x = ((s.haltTile n th).felled n c x).escalate n c := by
  have hh : (s.st n).st ≠ .halted := by rcases h with h | h <;> rw [h] <;> decide
  have hf : (s.st n).st ≠ .fenced := by rcases h with h | h <;> rw [h] <;> decide
  unfold State.haltBy
  simp only [hh, hf, if_false]
  cases th <;> rfl

/-- Repeated halts fence the station (R409); else nothing follows. -/
theorem State.escalate_cases (s : State) (n : StnId) (c : Code) :
    s.escalate n c = s ∨ s.escalate n c = (s.fence n).raise ⟨.stn, 11⟩ (uStn n) [codeWord c false] := by
  unfold State.escalate
  dsimp only
  split
  · exact Or.inr rfl
  · exact Or.inl rfl

/-- What a fault of code `c` that halts station `n` leaves: the event, a station that is halted, or fenced with the others
touched, and streams that stand where they stood. -/
structure haltedBy (n : StnId) (c : Code) (s t : State) : Prop where
  st : (t.st n).st = .halted ∨ (t.st n).st = .fenced
  raised : raised c (uStn n) s t
  others : (t.st n).st = .halted → stnsBut n s t
  place : (t.st n).place = (s.st n).place

theorem State.st_vector_openWindow (s : State) (u : UnitId) (i : Nat) (c : Code) (v : Nat) (m : StnId) :
    ((s.openWindow u i c).vector v).st m = s.st m := by
  simp [State.st]

theorem State.st_felled (s : State) {n : StnId} {c : Code} (x : List Word) (h : c.cls ≠ .fatal) (m : StnId) :
    (s.felled n c x).st m = (((s.freezeFault n).landAll n).modSt n Stn.fall).st m := by
  rw [State.felled, State.st_vector_openWindow, State.st_raise_mild _ _ _ h]

theorem Stn.place_fall (x : Stn) : x.fall.place = x.place := rfl

/-- HT_STEP_CUR is none of the registers that a freeze or the landing of results touches. -/
theorem State.stepCur_fallen (s : State) (n : StnId) :
    (((s.freezeFault n).landAll n).modSt n Stn.fall).stepCur = s.stepCur := by
  have hfreeze : Reg.htStepCur ∉ freezeRegs n := by
    rw [freezeRegs_eq]
    exact stepCur_not_stnRegs n _
  rw [State.stepCur, State.rg_modSt,
    (landsOnly.landAll _ n).2.2.1 _ (hallReg_not_reportReg (by decide) (by decide)) (fun h => hfreeze (landRegs_subset n h)),
    State.rg_freezeFault _ _ hfreeze]
  rfl

theorem catGrows.freezeFault (s : State) (n : StnId) : catGrows s (s.freezeFault n) := by
  unfold State.freezeFault
  split
  · exact .of_cat (by simp)
  · exact .refl s

theorem State.ht_freezeFault (s : State) (n : StnId) : (s.freezeFault n).ht = s.ht := by
  unfold State.freezeFault
  split <;> simp

theorem State.felled_raised (s : State) (n : StnId) {c : Code} (x : List Word) (h : c.cls ≠ .fatal) :
    raised c (uStn n) s (s.felled n c x) := by
  have hfall : catGrows s (((s.freezeFault n).landAll n).modSt n Stn.fall) :=
    ((catGrows.freezeFault s n).trans (.landAll _ n)).trans (.modSt _ _ _)
  have hht : (((s.freezeFault n).landAll n).modSt n Stn.fall).ht = s.ht := by
    rw [(landsOnly.landAll _ n).1]
    exact s.ht_freezeFault n
  have hend (t : State) (u : UnitId) (i : Nat) (d : Code) : catGrows t (t.openWindow u i d) :=
    .of_eq (t.openWindow_eid u i d) (t.openWindow_queue u i d).1 (t.openWindow_queue u i d).2
  exact ((hend _ _ _ _).trans (.vector _ _)).raised
    (raised.of_later (State.raise_raised _ _ _ h) hht (s.stepCur_fallen n) hfall)

theorem State.felled_haltedBy (s : State) (n : StnId) {c : Code} (x : List Word) (h : c.cls ≠ .fatal) :
    haltedBy n c s (s.felled n c x) := by
  have hself := s.st_felled (n := n) x h n
  rw [State.st_modSt_self] at hself
  refine ⟨Or.inl (by rw [hself]; rfl), s.felled_raised n x h, fun _ m hm => ?_, ?_⟩
  · rw [s.st_felled x h m, State.st_modSt_ne _ _ hm, (landsOnly.landAll _ n).2.1 m hm, State.st_freezeFault]
  · rw [hself, Stn.place_fall, State.place_landAll, State.st_freezeFault]

theorem haltedBy.escalate {n : StnId} {c : Code} {s t : State} (h : haltedBy n c s t) : haltedBy n c s (t.escalate n c) := by
  rcases t.escalate_cases n c with he | he
  · rw [he]; exact h
  · have hst : (((t.fence n).raise ⟨.stn, 11⟩ (uStn n) [codeWord c false]).st n) = (t.fence n).st n :=
      State.st_raise_mild _ _ _ (by decide) n
    have hfenced : ((t.fence n).st n).st = .fenced := (t.fence_st n).1
    rw [he]
    refine ⟨?_, ?_, fun hh => ?_, ?_⟩
    · rw [hst]; exact Or.inr hfenced
    · exact ((catGrows.fence t n).trans (.raise _ _ _ (by decide))).raised h.raised
    · rw [hst, hfenced] at hh; exact absurd hh (by decide)
    · rw [hst, State.place_fence, h.place]

/-- A register outside the Catalogue's and time's that a statement about a halt reads from. -/
theorem haltedBy.of_setRg {n : StnId} {c : Code} {s t : State} {a : Nat} (v : Word) (ha : a ≠ Reg.htStepCur)
    (h : haltedBy n c (s.setRg a v) t) : haltedBy n c s t :=
  ⟨h.st, raised.of_later h.raised rfl (State.rg_setRg_ne s v ha.symm) (.of_cat rfl), h.others, h.place⟩

theorem State.haltBy_haltedBy {s : State} {n : StnId} {c : Code} (th : Option TH) (x : List Word)
    (h : (s.st n).st = .running ∨ (s.st n).st = .idle) (hc : c.cls ≠ .fatal) : haltedBy n c s (s.haltBy n c th x) := by
  rw [State.haltBy_eq c th x h]
  have hfell := ((s.haltTile n th).felled_haltedBy n x hc).escalate
  cases th with
  | none => exact hfell
  | some t => exact hfell.of_setRg _ (stnReg_ne_stepCur n 0x10)

theorem State.halt_haltedBy {s : State} {n : StnId} {c : Code} (th : Option TH)
    (h : (s.st n).st = .running ∨ (s.st n).st = .idle) (hc : c.cls ≠ .fatal) : haltedBy n c s (s.halt n c th) :=
  State.haltBy_haltedBy th [] h hc

/-! ### A fault of an access-stream instruction -/

/-- STN_TRAP is none of the registers that a halt touches. -/
theorem stnTrap_kept (n : StnId) : Reg.stnTrap n.val ∉ Reg.stnDiscarded n.val :: Reg.stnHalt n.val :: freezeRegs n :=
  mt (mem_stnRegs (k := 0x34) (l := [0x1C, 0x10, 0x30104, 0x30124, 0x30128, 0x30120, 0x54, 0x78, 0x7C])).mp (by decide)

theorem stnTrap_not_reportReg (n : StnId) : ¬ reportReg (Reg.stnTrap n.val) :=
  stnReg_not_reportReg n (by decide : 0x34 < 0x40000)

theorem State.rg_setTrap (s : State) (n : StnId) (pc slot reg kind cause : Nat) :
    (s.setTrap n pc slot reg kind cause).rg (Reg.stnTrap n.val) =
      word (pc % 2 ^ 16 + slot * 2 ^ 16 + reg * 2 ^ 20 + kind * 2 ^ 25 + cause * 2 ^ 27) := s.rg_setRg_self _ _

/-- A halt leaves STN_TRAP as it was. -/
theorem State.rg_trap_halt (s : State) (n : StnId) (c : Code) (th : Option TH) :
    (s.halt n c th).rg (Reg.stnTrap n.val) = s.rg (Reg.stnTrap n.val) :=
  State.rg_halt _ _ _ _ (stnTrap_not_reportReg n) (stnTrap_kept n)

theorem State.setTrap_halt_haltedBy {s : State} {n : StnId} {c : Code} (pc slot reg kind cause : Nat) (th : Option TH)
    (h : (s.st n).st = .running ∨ (s.st n).st = .idle) (hc : c.cls ≠ .fatal) :
    haltedBy n c s ((s.setTrap n pc slot reg kind cause).halt n c th) := by
  unfold State.setTrap
  exact (State.halt_haltedBy th (by rw [State.st_setRg]; exact h) hc).of_setRg _
    (stnReg_ne_stepCur n 0x34)

end Sys2Proof.Machine
end

section
/-! SUPPORT. The access stream's arithmetic and branches (O6). -/

namespace Sys2Proof.Machine

open Sys2Proof

/-! ### The station that acts -/

theorem State.running_of_mayAct {s : State} {n : StnId} {u : Actor} (h : s.mayAct n u = true) : (s.st n).st = .running := by
  simp only [State.mayAct, State.canRun, Bool.and_eq_true, decide_eq_true_eq] at h
  obtain ⟨⟨⟨hrun, -⟩, -⟩, -⟩ := h
  exact hrun

theorem asTurn_running {s : State} {n : StnId} {w : Word} {op : Nat} (h : asAt s n w op) : ((s.act n .as).st n).st = .running := by
  rw [State.act, State.st_modSt_self, (Stn.act_frame _ _).2.2.2.1]
  exact State.running_of_mayAct h.1

/-! ### Values of the immediates (R83) -/

/-- The bits of a 64-bit value outside a field, with the field replaced by a number that fits it. -/
theorem dword_field {v mask : DWord} {lo n k : Nat} (hmask : ∀ i : Fin 64, mask.getLsbD i = !decide (lo ≤ i.val ∧ i.val < lo + n))
    (hfit : lo + n ≤ 64) (hk : k < 2 ^ n) :
    ((v &&& mask) ||| dword (k * 2 ^ lo)).toNat = v.toNat / 2 ^ (lo + n) * 2 ^ (lo + n) + k * 2 ^ lo + v.toNat % 2 ^ lo := by
  have hlow : v.toNat % 2 ^ lo < 2 ^ lo := Nat.mod_lt _ (by positivity)
  have hpart : k * 2 ^ lo + v.toNat % 2 ^ lo < 2 ^ (lo + n) := by
    rw [pow_add]
    calc k * 2 ^ lo + v.toNat % 2 ^ lo < k * 2 ^ lo + 2 ^ lo := Nat.add_lt_add_left hlow _
      _ = 2 ^ lo * (k + 1) := by ring
      _ ≤ 2 ^ lo * 2 ^ n := Nat.mul_le_mul_left _ hk
  have hword : k * 2 ^ lo < 2 ^ 64 :=
    ((Nat.le_add_right _ _).trans_lt hpart).trans_le (Nat.pow_le_pow_right two_pos hfit)
  refine Nat.eq_of_testBit_eq (fun i => ?_)
  rw [BitVec.toNat_or, BitVec.toNat_and, dword, BitVec.toNat_ofNat, Nat.mod_eq_of_lt hword, Nat.testBit_or, Nat.testBit_and,
    show v.toNat / 2 ^ (lo + n) * 2 ^ (lo + n) + k * 2 ^ lo + v.toNat % 2 ^ lo =
      2 ^ (lo + n) * (v.toNat / 2 ^ (lo + n)) + (2 ^ lo * k + v.toNat % 2 ^ lo) by ring,
    Nat.testBit_two_pow_mul_add _ (by rw [mul_comm (2 ^ lo)]; exact hpart), Nat.testBit_mul_two_pow]
  have hm : mask.toNat.testBit i = (decide (i < 64) && !decide (lo ≤ i ∧ i < lo + n)) := by
    by_cases hi : i < 64
    · simpa [hi, BitVec.getLsbD] using hmask ⟨i, hi⟩
    · simp [hi, ← BitVec.getLsbD.eq_1, BitVec.getLsbD_of_ge mask i (Nat.le_of_not_lt hi)]
  have hv : i ≥ 64 → v.toNat.testBit i = false := fun hi => BitVec.getLsbD_of_ge v i hi
  rw [hm]
  by_cases hin : i < lo + n
  · rw [if_pos hin, Nat.testBit_two_pow_mul_add _ hlow]
    by_cases hbelow : i < lo
    · simp [hbelow, Nat.testBit_mod_two_pow, hin.trans_le hfit, Nat.not_le.mpr hbelow]
    · simp [hbelow, hin, Nat.le_of_not_lt hbelow]
  · have hout : lo + n ≤ i := Nat.le_of_not_lt hin
    have hk0 : k.testBit (i - lo) = false :=
      Nat.testBit_lt_two_pow (hk.trans_le (Nat.pow_le_pow_right two_pos (Nat.le_sub_of_add_le' hout)))
    rw [if_neg hin, hk0, Nat.testBit_div_two_pow, Nat.sub_add_cancel hout]
    by_cases hi : i < 64
    · simp [hi, hin]
    · simp [hv (Nat.le_of_not_lt hi)]

/-- An integer added to a 64-bit value, modulo 2^64. -/
theorem add_toNat_emod (a : Nat) (z : Int) :
    (a + (z % (2 ^ 64 : Nat)).toNat) % 2 ^ 64 = ((a + z) % (2 ^ 64 : Nat)).toNat := by
  have hz : 0 ≤ z % (2 ^ 64 : Nat) := Int.emod_nonneg _ (by decide)
  have hsum : 0 ≤ (a + z) % (2 ^ 64 : Nat) := Int.emod_nonneg _ (by decide)
  refine Int.ofNat_inj.mp ?_
  rw [Int.natCast_emod, Int.natCast_add, Int.toNat_of_nonneg hz, Int.toNat_of_nonneg hsum, Int.add_emod_emod]

theorem asImm20_lt (w : Word) : asImm20 w < 2 ^ 20 := fld_lt _ _ _

/-! ### Branches (R83) -/

/-- The target of a branch lies in instructions 0 to 8,191. -/
def asInside (pc : Nat) (w : Word) : Prop := 0 ≤ (pc : Int) + asOff w ∧ (pc : Int) + asOff w < 8192

/-- The instruction that a branch goes to. -/
def asTarget (pc : Nat) (w : Word) : Nat := ((pc : Int) + asOff w).toNat

/-- A branch out of the program memory has halted or fenced the station, and STN_TRAP names it. -/
def asStops (n : StnId) (s t : State) : Prop :=
  (t.st n).st ≠ .running ∧ t.rg (Reg.stnTrap n.val) = word ((s.st n).as.pc % 2 ^ 16 + 6 * 2 ^ 16 + 4 * 2 ^ 27) ∧
  (t.st n).as.pc = (s.st n).as.pc ∧ (t.st n).as.g = (s.st n).as.g

theorem State.asBranch_inside {s : State} {n : StnId} {w : Word} (k : State → State) (h : asInside (s.st n).as.pc w) :
    s.asBranch n w k = (k s).modSt n (fun x => x.asGo (asTarget (s.st n).as.pc w)) := if_pos h

theorem State.asBranch_outside {s : State} {n : StnId} {w : Word} (k : State → State) (h : ¬ asInside (s.st n).as.pc w) :
    s.asBranch n w k = s.asTrap n ⟨.stn, 7⟩ 4 := if_neg h

/-- No code of a station is Fatal (Table 16.2). -/
theorem stnCode_not_fatal (k : Nat) : (⟨.stn, k⟩ : Code).cls ≠ .fatal := by
  unfold Code.cls
  dsimp only
  split
  · decide
  · split <;> decide

theorem State.asTrap_stops {s : State} {n : StnId} (h : ((s.act n .as).st n).st = .running) :
    asStops n s ((s.act n .as).asTrap n ⟨.stn, 7⟩ 4) := by
  have hby := State.setTrap_halt_haltedBy (s.st n).as.pc 6 0 0 4 none (Or.inl h) (stnCode_not_fatal 7)
  have hplace := hby.place
  simp only [State.st_act_as, Stn.place, asTurn_as, Prod.mk.injEq] at hplace
  obtain ⟨hpc, hg, -⟩ := hplace
  rw [State.asTrap, State.st_act_as, asTurn_as]
  refine ⟨(State.halt_st _ n _ _).1, ?_, hpc, hg⟩
  simp only [State.rg_trap_halt, State.setTrap, State.rg_setRg_self, Nat.zero_mul, Nat.add_zero]

/-- A branch that is taken, to an instruction. -/
theorem State.asBranch_goes {s : State} {n : StnId} {w : Word} (h : asInside (s.st n).as.pc w) :
    asPlain n (asTarget (s.st n).as.pc w) s ((s.act n .as).asBranch n w id) := by
  have hpc : (((s.act n .as).st n).as).pc = (s.st n).as.pc := by rw [State.st_act_as, asTurn_as]
  rw [State.asBranch_inside _ (by rwa [hpc]), hpc]
  exact asPlain_go s n _

/-- A branch that is taken, to an instruction, and that gives `d` a value. -/
theorem State.asBranch_sets {s : State} {n : StnId} {w : Word} (d : Fin 16) (v : DWord) (h : asInside (s.st n).as.pc w) :
    asSets n d v.toNat (asTarget (s.st n).as.pc w) s ((s.act n .as).asBranch n w (fun t => t.setG n d v)) := by
  have hpc : (((s.act n .as).st n).as).pc = (s.st n).as.pc := by rw [State.st_act_as, asTurn_as]
  rw [State.asBranch_inside _ (by rwa [hpc]), hpc]
  exact asSets_setG s n d v _

/-- A branch that is taken out of the program memory. -/
theorem State.asBranch_stops {s : State} {n : StnId} {w : Word} {k : State → State} (hrun : ((s.act n .as).st n).st = .running)
    (h : ¬ asInside (s.st n).as.pc w) : asStops n s ((s.act n .as).asBranch n w k) := by
  have hpc : (((s.act n .as).st n).as).pc = (s.st n).as.pc := by rw [State.st_act_as, asTurn_as]
  rw [State.asBranch_outside _ (by rwa [hpc])]
  exact State.asTrap_stops hrun

/-- The stream has given a value to `d` and goes on. -/
theorem asSets.value {n : StnId} {d : Fin 16} {v k pc : Nat} {s t : State} (h : asSets n d v pc s t) (hv : v = k) :
    asSets n d k pc s t := hv ▸ h

/-! ### What the instructions do -/

/-- What register `d` of the stream holds. -/
abbrev asReg (s : State) (n : StnId) (d : Fin 16) : DWord := (s.st n).as.g[d.val]

theorem exec_asDbnz {s : State} {n : StnId} {w : Word} (h : asAt s n w 0x02) :
    exec (.asDbnz n) s = .next (
      if asReg s n (asGD w) - 1 = 0 then ((s.act n .as).setG n (asGD w) (asReg s n (asGD w) - 1)).asRetire n
      else (s.act n .as).asBranch n w (fun t => t.setG n (asGD w) (asReg s n (asGD w) - 1))) := by
  refine congrArg Host.Outcome.next ((State.asIssue_at h _).trans ?_)
  simp only [State.st_act_as, asTurn_as]

theorem exec_asBeqz {s : State} {n : StnId} {w : Word} (h : asAt s n w 0x03) :
    exec (.asBeqz n) s = .next (
      if asReg s n (asGD w) = 0 then (s.act n .as).asBranch n w id else (s.act n .as).asRetire n) := by
  refine congrArg Host.Outcome.next ((State.asIssue_at h _).trans ?_)
  simp only [State.st_act_as, asTurn_as]

/-- A G register that dbnz decrements becomes 0 from 1 only. -/
theorem dword_sub_one_eq_zero (v : DWord) : v - 1 = 0 ↔ v.toNat = 1 := by
  rw [sub_eq_zero, ← BitVec.toNat_inj]
  rfl

theorem dword_sub_one_toNat (v : DWord) : (v - 1).toNat = (v.toNat + (2 ^ 64 - 1)) % 2 ^ 64 := by
  rw [BitVec.toNat_sub, Nat.add_comm]
  rfl

theorem gReg_eq_zero {s : State} {n : StnId} {d : Fin 16} : asReg s n d = 0 ↔ gReg s n d = 0 := by
  rw [gReg, ← BitVec.toNat_inj]
  rfl

/-! ### The statement -/

/-- Settles O6: what an instruction does to its G register (`asSets_retire`, `State.asRetire_plain`), where a branch goes
(`State.asBranch_goes`, `State.asBranch_sets`) and what stops one that leaves the program memory (`State.asBranch_stops`). -/
theorem accessArithmeticAndBranches : Obligations.AccessArithmeticAndBranches := by
  unfold Obligations.AccessArithmeticAndBranches
  refine ⟨fun s n w => ⟨fun h => ?_, fun h => ?_, fun h => ?_, fun h => ?_, fun h => ?_, fun h => ?_, fun h => ?_⟩,
    fun s n w => ⟨fun h hin => ?_, fun h hone => ?_, fun h hone hin => ?_, fun h hz => ?_, fun h hz hin => ?_, fun h hout => ?_,
      fun h hone hout => ?_, fun h hz hout => ?_⟩⟩
  · exact ⟨_, congrArg Host.Outcome.next (State.asIssue_at h _), State.asRetire_plain s n⟩
  · refine ⟨_, congrArg Host.Outcome.next (State.asIssue_at h _), asSets.value (asSets_retire s n _ _) ?_⟩
    rw [dword, BitVec.toNat_ofNat, Nat.mod_eq_of_lt ((asImm20_lt w).trans (by decide))]
  · refine ⟨_, congrArg Host.Outcome.next (State.asIssue_at h _), asSets.value (asSets_retire s n _ _) ?_⟩
    rw [State.st_act_as, asTurn_as]
    exact dword_field (lo := 20) (n := 20) (by decide) (by decide) (asImm20_lt w)
  · refine ⟨_, congrArg Host.Outcome.next (State.asIssue_at h _), asSets.value (asSets_retire s n _ _) ?_⟩
    rw [State.st_act_as, asTurn_as]
    exact dword_field (lo := 40) (n := 20) (by decide) (by decide) (asImm20_lt w)
  · refine ⟨_, congrArg Host.Outcome.next (State.asIssue_at h _), asSets.value (asSets_retire s n _ _) ?_⟩
    rw [State.st_act_as, asTurn_as, BitVec.toNat_add, BitVec.toNat_ofInt, gReg]
    exact add_toNat_emod _ _
  · refine ⟨_, congrArg Host.Outcome.next (State.asIssue_at h _), asSets.value (asSets_retire s n _ _) ?_⟩
    rw [State.st_act_as, asTurn_as, BitVec.toNat_add, gReg, gReg]
  · refine ⟨_, congrArg Host.Outcome.next (State.asIssue_at h _), asSets.value (asSets_retire s n _ _) ?_⟩
    rw [State.st_act_as, asTurn_as, BitVec.toNat_sub, gReg, gReg, Nat.add_comm]
  · exact ⟨_, congrArg Host.Outcome.next (State.asIssue_at h _), State.asBranch_goes hin⟩
  · rw [exec_asDbnz h, if_pos ((dword_sub_one_eq_zero _).mpr hone)]
    refine ⟨_, rfl, asSets.value (asSets_retire s n _ _) ?_⟩
    rw [(dword_sub_one_eq_zero _).mpr hone]
    rfl
  · rw [exec_asDbnz h, if_neg (fun hz => hone ((dword_sub_one_eq_zero _).mp hz))]
    exact ⟨_, rfl, asSets.value (State.asBranch_sets _ _ hin) (dword_sub_one_toNat _)⟩
  · rw [exec_asBeqz h, if_neg (fun hv => hz (gReg_eq_zero.mp hv))]
    exact ⟨_, rfl, State.asRetire_plain s n⟩
  · rw [exec_asBeqz h, if_pos (gReg_eq_zero.mpr hz)]
    exact ⟨_, rfl, State.asBranch_goes hin⟩
  · exact ⟨_, congrArg Host.Outcome.next (State.asIssue_at h _), State.asBranch_stops (asTurn_running h) hout⟩
  · rw [exec_asDbnz h, if_neg (fun hz => hone ((dword_sub_one_eq_zero _).mp hz))]
    exact ⟨_, rfl, State.asBranch_stops (asTurn_running h) hout⟩
  · rw [exec_asBeqz h, if_pos (gReg_eq_zero.mpr hz)]
    exact ⟨_, rfl, State.asBranch_stops (asTurn_running h) hout⟩

end Sys2Proof.Machine
end

section
/-! SUPPORT. Flags and waits of the access stream (O7). -/

namespace Sys2Proof.Machine

open Sys2Proof

/-! ### The flags of a station (R78, R79) -/

theorem bitOf_or (a b : Word) (i : Nat) : bitOf (a ||| b) i = (bitOf a i || bitOf b i) := BitVec.getLsbD_or

theorem bitOf_and (a b : Word) (i : Nat) : bitOf (a &&& b) i = (bitOf a i && bitOf b i) := BitVec.getLsbD_and

theorem bitOf_not (a : Word) {i : Nat} (h : i < 32) : bitOf (~~~a) i = !bitOf a i := by
  simp [bitOf, h]

theorem bitOf_flagBit (f : Fin 32) (i : Nat) : bitOf (flagBit f) i = decide (i = f.val) := by
  have hpow : (2 : Nat) ^ f.val < 2 ^ 32 := Nat.pow_lt_pow_right (by decide) f.isLt
  rw [flagBit, bitOf_eq, word, BitVec.toNat_ofNat, Nat.mod_eq_of_lt hpow, Nat.testBit_two_pow]
  exact decide_eq_decide.mpr eq_comm

/-- A set of flags, but where the streams start. -/
theorem Stn.bitOf_setFlags (x : Stn) (m : Word) (i : Nat) :
    bitOf (x.setFlags m).flags i = (bitOf x.flags i || (bitOf m i && !x.cyc.start)) := by
  unfold Stn.setFlags
  dsimp only
  split
  · next h => simp [h]
  · next h => simp [h, bitOf_or]

/-- A clear of flags, but for those that the cycle sets. -/
theorem Stn.bitOf_clrFlags (x : Stn) (m : Word) {i : Nat} (h : i < 32) :
    bitOf (x.clrFlags m).flags i = (bitOf x.flags i && !(bitOf m i && !bitOf x.cyc.sets i)) := by
  rw [Stn.clrFlags, bitOf_and, bitOf_not _ h, bitOf_and, bitOf_not _ h]

/-- A flag that is set or cleared, in the station and in its cycle. -/
theorem Stn.setFlag_eq (x : Stn) (f : Fin 32) (b : Bool) :
    x.setFlag f b = { x with
      flags := (x.setFlag f b).flags, cyc := { x.cyc with sets := if b then x.cyc.sets ||| flagBit f else x.cyc.sets } } := by
  cases b <;> rfl

theorem Stn.bitOf_setFlag_ne (x : Stn) (f : Fin 32) (b : Bool) {i : Nat} (h : i < 32) (hi : i ≠ f.val) :
    bitOf (x.setFlag f b).flags i = bitOf x.flags i := by
  cases b
  · simp [Stn.setFlag, Stn.bitOf_clrFlags x _ h, bitOf_flagBit f i, hi]
  · simp [Stn.setFlag, Stn.bitOf_setFlags, bitOf_flagBit f i, hi]

theorem Stn.bitOf_setFlag_true (x : Stn) (f : Fin 32) :
    bitOf (x.setFlag f true).flags f.val = (bitOf x.flags f.val || !x.cyc.start) := by
  simp [Stn.setFlag, Stn.bitOf_setFlags, bitOf_flagBit f f.val]

theorem Stn.bitOf_setFlag_false (x : Stn) (f : Fin 32) :
    bitOf (x.setFlag f false).flags f.val = (bitOf x.flags f.val && bitOf x.cyc.sets f.val) := by
  simp [Stn.setFlag, Stn.bitOf_clrFlags x _ f.isLt, bitOf_flagBit f f.val]

/-! ### fset and fclr -/

/-- What an instruction leaves that sets or clears a flag. -/
def asFlagged (s : State) (n : StnId) (f : Fin 32) (b : Bool) (t : State) : Prop :=
  t = { s with stn := t.stn } ∧ stnsBut n s t ∧
  (t.st n).as = { (s.st n).as with pc := (s.st n).as.pc + 1, wait := .none, obj := 0, stepRec := none } ∧
  t.st n = { asTurn s n with
    wd := 0, as := (t.st n).as, flags := (t.st n).flags,
    cyc := { (asTurn s n).cyc with
      sets := if b then (asTurn s n).cyc.sets ||| flagBit f else (asTurn s n).cyc.sets } } ∧
  (∀ i, i < 32 → i ≠ f.val → bitOf (t.st n).flags i = bitOf (s.st n).flags i) ∧
  (((b = true ∧ (asTurn s n).cyc.start = false) ∨ (b = false ∧ bitOf (asTurn s n).cyc.sets f.val = false)) →
    bitOf (t.st n).flags f.val = b) ∧
  (((b = true ∧ (asTurn s n).cyc.start = true) ∨ (b = false ∧ bitOf (asTurn s n).cyc.sets f.val = true)) →
    bitOf (t.st n).flags f.val = bitOf (s.st n).flags f.val)

@[simp] theorem asTurn_flags (s : State) (n : StnId) : (asTurn s n).flags = (s.st n).flags := by simp [asTurn_eq]

/-- The station after an instruction that changes it by `f` and retires. -/
theorem State.asRetire_modSt (s : State) (n : StnId) (f : Stn → Stn) (hpc : (f (asTurn s n)).as.pc = (s.st n).as.pc) :
    ((s.act n .as).modSt n f).asRetire n = s.setSt n ((f (asTurn s n)).asGo ((s.st n).as.pc + 1)) := by
  rw [State.asRetire_eq, State.st_modSt_self, State.st_act_as, hpc, State.modSt_modSt, State.act_modSt]

theorem asFlagged_setFlag (s : State) (n : StnId) (f : Fin 32) (b : Bool) :
    asFlagged s n f b (((s.act n .as).modSt n (fun x => x.setFlag f b)).asRetire n) := by
  have has : ((asTurn s n).setFlag f b).as = (s.st n).as := by rw [Stn.setFlag_eq]; exact asTurn_as s n
  rw [State.asRetire_modSt s n _ (by rw [has])]
  refine ⟨rfl, fun m hm => State.st_setSt_ne s _ hm, ?_⟩
  rw [State.st_setSt_self]
  refine ⟨by rw [Stn.asGo, has], ?_, fun i hi hne => ?_, ?_, ?_⟩
  · generalize hy : (asTurn s n).setFlag f b = y
    rw [Stn.setFlag_eq] at hy
    rw [← hy]
    rfl
  · exact ((asTurn s n).bitOf_setFlag_ne f b hi hne).trans (by rw [asTurn_flags])
  · show _ → bitOf ((asTurn s n).setFlag f b).flags f.val = b
    rintro (⟨rfl, hstart⟩ | ⟨rfl, hsets⟩)
    · simp [Stn.bitOf_setFlag_true, hstart]
    · simp [Stn.bitOf_setFlag_false, hsets]
  · show _ → bitOf ((asTurn s n).setFlag f b).flags f.val = _
    rintro (⟨rfl, hstart⟩ | ⟨rfl, hsets⟩)
    · simp [Stn.bitOf_setFlag_true, hstart]
    · simp [Stn.bitOf_setFlag_false, hsets]

/-! ### Waits -/

theorem exec_asFwait {s : State} {n : StnId} {w : Word} (h : asAt s n w 0x1E) :
    exec (.asFwait n) s = .next (
      if (asTurn s n).flagNow (asFL w) = asV w then (s.act n .as).asRetire n
      else (s.act n .as).asWait n .flag (asFL w).val) :=
  congrArg Host.Outcome.next (State.asIssue_at h _)

theorem exec_asHtwait {s : State} {n : StnId} {w : Word} (h : asAt s n w 0x05) :
    exec (.asHtwait n) s = .next (
      if gReg s n (asGD w) ≤ s.ht.toNat then (s.act n .as).asRetire n else (s.act n .as).asWait n .htwait 0) := by
  refine congrArg Host.Outcome.next ((State.asIssue_at h _).trans ?_)
  rw [State.st_act_as, asTurn_as, gReg]
  rfl

theorem exec_htwaitComplete {s : State} {n : StnId} {w : Word} (h : asAt s n w 0x05) (hwait : (s.st n).as.wait = .htwait)
    (hht : gReg s n (asGD w) ≤ s.ht.toNat) : exec (.htwaitComplete n) s = .next ((s.act n .as).asRetire n) := by
  refine congrArg Host.Outcome.next ((if_pos hwait).trans ((State.asIssue_at h _).trans (if_pos ?_)))
  rw [State.st_act_as, asTurn_as]
  exact hht

/-- A stream that comes to its step-end point (R103). -/
theorem exec_asStepw {s : State} {n : StnId} {w : Word} (h : asAt s n w 0x04) (hwait : (s.st n).as.wait ≠ .stepEnd) :
    exec (.asStepw n) s = .next ((s.act n .as).modSt n (fun x => { x with as := { x.as with
      wait := .stepEnd, obj := 0, stepRec := some s.stepCur } })) := by
  refine congrArg Host.Outcome.next ((State.asIssue_at h _).trans (if_neg ?_))
  rwa [State.st_act_as, asTurn_as]

/-! ### The host's writes -/

theorem exec_stnFlagSet {s : State} {n : StnId} (mask : Word) (h : s.stnUp n = true) :
    exec (.stnFlagSet n mask) s = .next (s.modSt n (fun x => x.setFlags mask)) := congrArg Host.Outcome.next (if_pos h)

theorem exec_stnFlagClr {s : State} {n : StnId} (mask : Word) (h : s.stnUp n = true) :
    exec (.stnFlagClr n mask) s = .next (s.modSt n (fun x => x.clrFlags mask)) := congrArg Host.Outcome.next (if_pos h)

/-! ### The statement -/

/-- Settles O7: an instruction sets or clears its flag (`asFlagged_setFlag`), goes on (`State.asRetire_plain`) or waits
(`asWaits_wait`); the host's writes follow the same rules of the cycle (`Stn.bitOf_setFlags`, `Stn.bitOf_clrFlags`). -/
theorem flagsAndWaits : Obligations.FlagsAndWaits := by
  unfold Obligations.FlagsAndWaits
  refine ⟨fun s n w => ⟨fun h => ?_, fun h => ?_, fun h hflag => ?_, fun h hflag => ?_, fun h hht => ?_, fun h hht => ?_,
    fun h hwait hht => ?_, fun h hwait => ?_⟩, fun s n mask hup => ⟨?_, ?_⟩⟩
  · exact ⟨_, congrArg Host.Outcome.next (State.asIssue_at h _), asFlagged_setFlag s n (asFL w) true⟩
  · exact ⟨_, congrArg Host.Outcome.next (State.asIssue_at h _), asFlagged_setFlag s n (asFL w) false⟩
  · rw [exec_asFwait h, if_pos hflag]
    exact ⟨_, rfl, State.asRetire_plain s n⟩
  · rw [exec_asFwait h, if_neg hflag]
    exact ⟨_, rfl, asWaits_wait s n _ _⟩
  · rw [exec_asHtwait h, if_pos hht]
    exact ⟨_, rfl, State.asRetire_plain s n⟩
  · rw [exec_asHtwait h, if_neg (by lia)]
    exact ⟨_, rfl, asWaits_wait s n _ _⟩
  · exact ⟨_, exec_htwaitComplete h hwait hht, State.asRetire_plain s n⟩
  · refine ⟨_, exec_asStepw h hwait, ?_⟩
    rw [State.act_modSt, asTurn_as]
    exact ⟨rfl, fun m hm => State.st_setSt_ne s _ hm, State.st_setSt_self s n _⟩
  · refine ⟨_, exec_stnFlagSet mask hup, rfl, stnsBut.modSt s n _, ?_⟩
    rw [State.st_modSt_self]
    exact ⟨rfl, fun i _ => Stn.bitOf_setFlags _ mask i⟩
  · refine ⟨_, exec_stnFlagClr mask hup, rfl, stnsBut.modSt s n _, ?_⟩
    rw [State.st_modSt_self]
    exact ⟨rfl, fun i hi => Stn.bitOf_clrFlags _ mask hi⟩

end Sys2Proof.Machine
end

section
/-! SUPPORT. The host's writes of program memory (O31). -/

namespace Sys2Proof.Machine

open Sys2Proof

/-! ### Bytes that a write leaves -/

/-- What a run of bytes written leaves at an address, as a statement says it. -/
theorem Cells.get_write_nth {α : Type} [DecidableEq α] (d : Nat → α) (vs : List α) (m : Cells α) (k j : Nat) (x : α) :
    Cells.get d (Cells.write d m k vs) j = if k ≤ j ∧ j < k + vs.length then nth vs (j - k) x else Cells.get d m j := by
  rw [Cells.get_write]
  split
  · exact (List.getD_eq_getElem _ _ _).symm
  · rfl

theorem toLE_length (n v : Nat) : (toLE n v).length = n := by
  induction n generalizing v with
  | zero => rfl
  | succ n ih => rw [toLE, List.length_cons, ih]

/-! ### The windows of a station's program memory (R71, R72) -/

/-- An offset in the window of the access stream's memory or of the execute stream's page. -/
def inProgWindow (o : Nat) : Prop := (0x10000 ≤ o ∧ o < 0x18000) ∨ (0x20000 ≤ o ∧ o < 0x30000)

theorem inProgWindow.lt {o : Nat} (h : inProgWindow o) : o < 0x40000 :=
  h.elim (fun h => h.2.trans (by decide)) (fun h => h.2.trans (by decide))

theorem stnBase_aligned (n : StnId) {o : Nat} (h : o % 4 = 0) : (stnBase n + o) % 4 = 0 :=
  Nat.mod_eq_zero_of_dvd (Nat.dvd_add (Nat.dvd_add (by decide) (Dvd.dvd.mul_right (by decide) _)) (Nat.dvd_of_mod_eq_zero h))

theorem stnBase_places (n : StnId) {o : Nat} (h : o < 0x40000) :
    inStn (stnBase n + o) = true ∧ stnAt (stnBase n + o) = n ∧ stnOff (stnBase n + o) = o := by
  have hsub : stnBase n + o - 0x1000000 = 0x40000 * n.val + o := by rw [stnBase, Nat.add_assoc, Nat.add_sub_cancel_left]
  refine ⟨decide_eq_true ⟨stnBase_ge n o, stnBase_lt n h⟩, Fin.ext ?_, ?_⟩
  · rw [stnAt, hsub, Nat.mul_add_div (by decide), Nat.div_eq_of_lt h]
    exact Nat.mod_eq_of_lt n.isLt
  · rw [stnOff, hsub, Nat.mul_add_mod, Nat.mod_eq_of_lt h]

theorem isProg_window (n : StnId) {o : Nat} (h : inProgWindow o) : isProg (stnBase n + o) = true := by
  obtain ⟨hin, -, hoff⟩ := stnBase_places n h.lt
  rw [isProg, hin, hoff]
  simpa [inProgWindow] using h

/-- A word written into the window of a released station's program memory. -/
theorem exec_registerWrite_prog {s : State} (r : Requester) {n : StnId} {o : Nat} (v : Word) (hreg : s.cur.regOn = true)
    (hup : s.stnUp n = true) (ho : o % 4 = 0) (hwin : inProgWindow o) :
    exec (.registerWrite r (stnBase n + o) ⟨[v], .good⟩) s = .next (
      if (s.st n).st = .running then s else s.putProg (stnBase n + o) (toLE 4 v.toNat)) := by
  obtain ⟨hin, hat, -⟩ := stnBase_places n hwin.lt
  have hears : s.unitHears (stnBase n + o) = true := by
    have hlow {k : Nat} (hk : k ≤ 0x1000000) : ¬ stnBase n + o < k := Nat.not_lt.mpr (hk.trans (stnBase_ge n o))
    rw [State.unitHears, State.unitUp, if_neg (hlow (by decide)), if_neg (hlow (by decide)),
      if_neg (hlow (by decide)), if_pos hin, hat, hreg, hup, Bool.true_and, Bool.true_or]
  rw [exec_registerWrite_one s r v (stnBase_aligned n ho) ((stnBase_lt n hwin.lt).trans (by decide))]
  unfold State.writeReg
  rw [hears, isProg_window n hwin, hat, Bool.not_true, if_neg Bool.false_ne_true, if_pos rfl]

theorem State.putProg_as (s : State) (n : StnId) {o : Nat} (bs : List Byte) (h : o < 0x18000) :
    s.putProg (stnBase n + o) bs = s.modSt n (fun x => { x with asMem := Cells.write zeroByte x.asMem (o - 0x10000) bs }) := by
  obtain ⟨-, hat, hoff⟩ := stnBase_places n (h.trans (by decide))
  rw [State.putProg, hat, hoff, if_pos h]

theorem State.putProg_xs (s : State) (n : StnId) {o : Nat} (bs : List Byte) (h : 0x20000 ≤ o) (hlt : o < 0x30000) :
    s.putProg (stnBase n + o) bs = s.modSt n (fun x => { x with
      xsMem := Cells.write zeroByte x.xsMem (o - 0x20000 + s.rf (Reg.stnXsPage n.val) 0 1 * 0x10000) bs }) := by
  obtain ⟨-, hat, hoff⟩ := stnBase_places n (hlt.trans (by decide))
  rw [State.putProg, hat, hoff, if_neg (Nat.not_lt.mpr (le_trans (by decide) h))]

/-! ### The statement -/

/-- Settles O31: the write is ignored or is `State.putProg` (`exec_registerWrite_prog`), into the one memory or the other. -/
theorem programMemoryWrites : Obligations.ProgramMemoryWrites := by
  unfold Obligations.ProgramMemoryWrites
  intro s n o v hreg hup ho hwin
  refine ⟨fun hrun r => ?_, fun hrun r => ?_⟩
  · rw [exec_registerWrite_prog r v hreg hup ho hwin, if_pos hrun]
  · rw [exec_registerWrite_prog r v hreg hup ho hwin, if_neg hrun]
    refine ⟨_, rfl, ?_⟩
    rcases hwin with ⟨-, hlt⟩ | ⟨hge, hlt⟩
    · rw [State.putProg_as s n _ hlt]
      refine ⟨rfl, stnsBut.modSt s n _, ?_⟩
      rw [State.st_modSt_self]
      refine ⟨rfl, fun _ => ⟨rfl, fun i => ?_⟩, fun hge => absurd (hlt.trans_le (le_trans (by decide) hge)) (lt_irrefl _)⟩
      rw [Cells.get_write_nth _ _ _ _ _ 0, toLE_length]
    · rw [State.putProg_xs s n _ hge hlt]
      refine ⟨rfl, stnsBut.modSt s n _, ?_⟩
      rw [State.st_modSt_self]
      refine ⟨rfl, fun h => absurd (h.trans_le (le_trans (by decide) hge)) (lt_irrefl _), fun _ => ⟨rfl, fun i => ?_⟩⟩
      rw [Cells.get_write_nth _ _ _ _ _ 0, toLE_length]

end Sys2Proof.Machine
end

section
/-! SUPPORT. The stall watchdog (O19). -/

namespace Sys2Proof.Machine

open Sys2Proof

/-! ### The registers that a halt without a tile leaves (R66) -/

theorem State.rg_escalate (s : State) (n : StnId) (c : Code) {a : Nat} (h : ¬ reportReg a)
    (hl : a ∉ Reg.stnDiscarded n.val :: freezeRegs n) : (s.escalate n c).rg a = s.rg a := by
  rcases s.escalate_cases n c with he | he
  · rw [he]
  · rw [he, State.rg_raise _ _ _ _ h, State.rg_fence _ _ h]
    intro (h : a ∈ [Reg.stnNumFlags n.val, Reg.stnPhxRecs n.val, Reg.stnPhxKept n.val] ++ [Reg.stnDiscarded n.val])
    refine hl ?_
    rcases List.mem_append.mp h with h | h
    · exact List.mem_cons_of_mem _ (landRegs_subset n h)
    · exact List.mem_cons.mpr (Or.inl (List.mem_singleton.mp h))

theorem State.rg_felled (s : State) (n : StnId) (c : Code) (x : List Word) {a : Nat} (h : ¬ reportReg a)
    (hl : a ∉ freezeRegs n) : (s.felled n c x).rg a = s.rg a := by
  have hvec : n.val < 256 := n.isLt.trans (by decide)
  rw [State.felled, State.rg_vector _ hvec (fun hi => h (Or.inl hi)), State.rg_openWindow, State.rg_raise _ _ _ _ h,
    State.rg_modSt, (landsOnly.landAll _ n).2.2.1 a h (fun hm => hl (landRegs_subset n hm)), State.rg_freezeFault _ _ hl]

/-- A halt for which no tile is to blame leaves STN_HALT too. -/
theorem State.rg_halt_none {s : State} {n : StnId} (c : Code) {a : Nat} (hrun : (s.st n).st = .running) (h : ¬ reportReg a)
    (hl : a ∉ Reg.stnDiscarded n.val :: freezeRegs n) : (s.halt n c none).rg a = s.rg a := by
  rw [State.halt, State.haltBy_eq c none [] (Or.inl hrun), State.rg_escalate _ _ _ h hl,
    State.rg_felled _ _ _ _ h (fun hf => hl (List.mem_cons_of_mem _ hf))]
  rfl

/-! ### The capture (R104, Tables 3.15 and 3.16) -/

/-- The registers of the capture. -/
def wdRegs (n : StnId) : List Nat :=
  [Reg.stnWdPc n.val, Reg.stnWdWait n.val, Reg.stnWdQdepth n.val, Reg.stnWdFlags n.val]

theorem wdRegs_eq (n : StnId) : wdRegs n = stnRegs n [0x38, 0x3C, 0x40, 0x44] := rfl

theorem discardedRegs_eq (n : StnId) : Reg.stnDiscarded n.val :: freezeRegs n =
    stnRegs n [0x1C, 0x30104, 0x30124, 0x30128, 0x30120, 0x54, 0x78, 0x7C] := rfl

/-- The state of a stalled station in the STN_WD registers. -/
def State.wdCapture (s : State) (n : StnId) : State :=
  (((s.setRg (Reg.stnWdPc n.val) (word ((s.st n).as.pc % 2 ^ 13 + ((s.st n).xs.pc / 2 % 2 ^ 16) * 2 ^ 16))).setRg
    (Reg.stnWdWait n.val) (word ((s.st n).as.wait.code + (s.st n).as.obj * 2 ^ 4 + (s.st n).xs.wait.code * 2 ^ 16 +
      (s.st n).xs.obj * 2 ^ 20))).setRg (Reg.stnWdQdepth n.val) (s.st n).qdepth).setRg (Reg.stnWdFlags n.val)
        (s.st n).cyc.flags

theorem exec_watchdogExpire (s : State) (n : StnId) :
    exec (.watchdogExpire n) s = .next (
      if (s.rg (Reg.stnWatchdog n.val)).toNat ≠ 0 ∧ (s.st n).stalled ∧ (s.rg (Reg.stnWatchdog n.val)).toNat ≤ (s.st n).wd then
        (s.wdCapture n).halt n ⟨.stn, 5⟩ none
      else s) := rfl

theorem State.rg_wdCapture_ne (s : State) (n : StnId) {a : Nat} (h : a ∉ wdRegs n) : (s.wdCapture n).rg a = s.rg a := by
  simp only [wdRegs, List.mem_cons, List.not_mem_nil, or_false, not_or] at h
  obtain ⟨hpc, hwait, hq, hf⟩ := h
  unfold State.wdCapture
  rw [State.rg_setRg_ne _ _ hf, State.rg_setRg_ne _ _ hq, State.rg_setRg_ne _ _ hwait, State.rg_setRg_ne _ _ hpc]

/-- The registers of the capture are four. -/
theorem wdRegs_ne (n : StnId) :
    Reg.stnWdPc n.val ≠ Reg.stnWdFlags n.val ∧ Reg.stnWdPc n.val ≠ Reg.stnWdQdepth n.val ∧
    Reg.stnWdPc n.val ≠ Reg.stnWdWait n.val ∧ Reg.stnWdWait n.val ≠ Reg.stnWdFlags n.val ∧
    Reg.stnWdWait n.val ≠ Reg.stnWdQdepth n.val ∧ Reg.stnWdQdepth n.val ≠ Reg.stnWdFlags n.val := by
  have hne {k j : Nat} (h : k ≠ j) : stnBase n + k ≠ stnBase n + j := (add_right_injective (stnBase n)).ne h
  exact ⟨hne (by decide), hne (by decide), hne (by decide), hne (by decide), hne (by decide), hne (by decide)⟩

/-- What the capture's registers read. -/
theorem State.rg_wdCapture (s : State) (n : StnId) :
    (s.wdCapture n).rg (Reg.stnWdPc n.val) = word ((s.st n).as.pc % 2 ^ 13 + ((s.st n).xs.pc / 2 % 2 ^ 16) * 2 ^ 16) ∧
    (s.wdCapture n).rg (Reg.stnWdWait n.val) = word ((s.st n).as.wait.code + (s.st n).as.obj * 2 ^ 4 +
      (s.st n).xs.wait.code * 2 ^ 16 + (s.st n).xs.obj * 2 ^ 20) ∧
    (s.wdCapture n).rg (Reg.stnWdQdepth n.val) = (s.st n).qdepth ∧
    (s.wdCapture n).rg (Reg.stnWdFlags n.val) = (s.st n).cyc.flags := by
  obtain ⟨hpf, hpq, hpw, hwf, hwq, hqf⟩ := wdRegs_ne n
  unfold State.wdCapture
  refine ⟨?_, ?_, ?_, ?_⟩
  · rw [State.rg_setRg_ne _ _ hpf, State.rg_setRg_ne _ _ hpq, State.rg_setRg_ne _ _ hpw, State.rg_setRg_self]
  · rw [State.rg_setRg_ne _ _ hwf, State.rg_setRg_ne _ _ hwq, State.rg_setRg_self]
  · rw [State.rg_setRg_ne _ _ hqf, State.rg_setRg_self]
  · rw [State.rg_setRg_self]

theorem State.st_wdCapture (s : State) (n m : StnId) : (s.wdCapture n).st m = s.st m := by
  unfold State.wdCapture
  rw [State.st_setRg, State.st_setRg, State.st_setRg, State.st_setRg]

/-- The capture's registers are none that a halt or a report touches. -/
theorem wdRegs_kept {n : StnId} {a : Nat} (h : a ∈ wdRegs n) :
    ¬ reportReg a ∧ a ∉ Reg.stnDiscarded n.val :: freezeRegs n := by
  rw [wdRegs_eq] at h
  rw [discardedRegs_eq]
  obtain ⟨k, hk, rfl⟩ := List.mem_map.mp h
  have hfits : ∀ k ∈ [0x38, 0x3C, 0x40, 0x44], k < 0x40000 := by decide
  have hapart : ∀ k ∈ [0x38, 0x3C, 0x40, 0x44], k ∉ [0x1C, 0x30104, 0x30124, 0x30128, 0x30120, 0x54, 0x78, 0x7C] := by decide
  exact ⟨stnReg_not_reportReg n (hfits k hk), mt mem_stnRegs.mp (hapart k hk)⟩

/-- A halt after the capture is a halt after the state before it. -/
theorem haltedBy.of_wdCapture {n : StnId} {c : Code} {s t : State} (h : haltedBy n c (s.wdCapture n) t) : haltedBy n c s t := by
  unfold State.wdCapture at h
  exact (((h.of_setRg _ (stnReg_ne_stepCur n 0x44)).of_setRg _ (stnReg_ne_stepCur n 0x40)).of_setRg _
    (stnReg_ne_stepCur n 0x3C)).of_setRg _ (stnReg_ne_stepCur n 0x38)

/-- The capture stands through the halt. -/
theorem State.rg_wdHalt {s : State} {n : StnId} (hrun : ((s.wdCapture n).st n).st = .running) :
    let t := (s.wdCapture n).halt n ⟨.stn, 5⟩ none
    t.rg (Reg.stnWdPc n.val) = word ((s.st n).as.pc % 2 ^ 13 + ((s.st n).xs.pc / 2 % 2 ^ 16) * 2 ^ 16) ∧
    t.rg (Reg.stnWdWait n.val) = word ((s.st n).as.wait.code + (s.st n).as.obj * 2 ^ 4 +
      (s.st n).xs.wait.code * 2 ^ 16 + (s.st n).xs.obj * 2 ^ 20) ∧
    t.rg (Reg.stnWdQdepth n.val) = (s.st n).qdepth ∧ t.rg (Reg.stnWdFlags n.val) = (s.st n).cyc.flags := by
  have hread {k : Nat} (hk : k ∈ [0x38, 0x3C, 0x40, 0x44]) :
      ((s.wdCapture n).halt n ⟨.stn, 5⟩ none).rg (stnBase n + k) = (s.wdCapture n).rg (stnBase n + k) := by
    obtain ⟨hreport, hkept⟩ := wdRegs_kept (mem_stnRegs.mpr hk)
    exact State.rg_halt_none _ hrun hreport hkept
  obtain ⟨hpc, hwait, hq, hf⟩ := s.rg_wdCapture n
  exact ⟨(hread (k := 0x38) (by decide)).trans hpc, (hread (k := 0x3C) (by decide)).trans hwait,
    (hread (k := 0x40) (by decide)).trans hq, (hread (k := 0x44) (by decide)).trans hf⟩

theorem WaitKind.code_lt (k : WaitKind) : k.code < 2 ^ 4 := by cases k <;> decide

/-- Fields of a word that is written whole. -/
theorem fld_word (v : Nat) {lo n : Nat} (h : lo + n ≤ 32) : fld (word v) lo n = v / 2 ^ lo % 2 ^ n := by
  have hsplit : (2 : Nat) ^ 32 = 2 ^ lo * 2 ^ (32 - lo) := by
    rw [← pow_add, Nat.add_sub_cancel' ((Nat.le_add_right lo n).trans h)]
  rw [fld_eq, word, BitVec.toNat_ofNat, hsplit, Nat.mod_mul_right_div_self,
    Nat.mod_mod_of_dvd _ (Nat.pow_dvd_pow 2 (Nat.le_sub_of_add_le' h))]

/-- A number below `k` and a multiple of `k` that share a word. -/
theorem unpack {a k : Nat} (b : Nat) (h : a < k) : (a + b * k) % k = a ∧ (a + b * k) / k = b :=
  ⟨by rw [Nat.add_mul_mod_self_right, Nat.mod_eq_of_lt h],
    by rw [Nat.add_mul_div_right _ _ (Nat.zero_lt_of_lt h), Nat.div_eq_of_lt h, Nat.zero_add]⟩

/-- The fields of STN_WD_PC (Table 3.16). -/
theorem wdPc_fields (a b : Nat) :
    (a % 2 ^ 13 + b % 2 ^ 16 * 2 ^ 16) % 2 ^ 13 = a % 2 ^ 13 ∧
    (a % 2 ^ 13 + b % 2 ^ 16 * 2 ^ 16) / 2 ^ 16 % 2 ^ 16 = b % 2 ^ 16 := by
  have hlow : a % 2 ^ 13 < 2 ^ 13 := Nat.mod_lt _ (by decide)
  have hsplit (x : Nat) : x * 2 ^ 16 = x * 8 * 2 ^ 13 := by ring
  constructor
  · rw [hsplit]
    exact (unpack _ hlow).1
  · rw [(unpack _ (hlow.trans (by decide))).2, Nat.mod_mod]

/-- The fields of STN_WD_WAIT (Table 3.16). -/
theorem wdWait_fields {a b c d : Nat} (ha : a < 2 ^ 4) (hb : b < 32) (hc : c < 2 ^ 4) (hd : d < 32) :
    (a + b * 2 ^ 4 + c * 2 ^ 16 + d * 2 ^ 20) % 2 ^ 4 = a ∧ (a + b * 2 ^ 4 + c * 2 ^ 16 + d * 2 ^ 20) / 2 ^ 4 % 2 ^ 5 = b ∧
    (a + b * 2 ^ 4 + c * 2 ^ 16 + d * 2 ^ 20) / 2 ^ 16 % 2 ^ 4 = c ∧
    (a + b * 2 ^ 4 + c * 2 ^ 16 + d * 2 ^ 20) / 2 ^ 20 % 2 ^ 5 = d := by
  have hnest : a + b * 2 ^ 4 + c * 2 ^ 16 + d * 2 ^ 20 = a + (b + (c + d * 2 ^ 4) * 2 ^ 12) * 2 ^ 4 := by ring
  have hsplit (x : Nat) : x * 2 ^ 12 = x * 2 ^ 7 * 2 ^ 5 := by ring
  obtain ⟨hmod, hdiv⟩ := unpack (b + (c + d * 2 ^ 4) * 2 ^ 12) ha
  obtain ⟨-, hdiv'⟩ := unpack (c + d * 2 ^ 4) (hb.trans (by decide : 32 < 2 ^ 12))
  obtain ⟨hmod'', hdiv''⟩ := unpack d hc
  have hc' : (a + (b + (c + d * 2 ^ 4) * 2 ^ 12) * 2 ^ 4) / 2 ^ 16 = c + d * 2 ^ 4 := by
    rw [show (2 : Nat) ^ 16 = 2 ^ 4 * 2 ^ 12 by decide, ← Nat.div_div_eq_div_mul, hdiv, hdiv']
  rw [hnest]
  refine ⟨hmod, ?_, ?_, ?_⟩
  · rw [hdiv, hsplit]
    exact (unpack _ hb).1
  · rw [hc', hmod'']
  · rw [show (2 : Nat) ^ 20 = 2 ^ 16 * 2 ^ 4 by decide, ← Nat.div_div_eq_div_mul, hc', hdiv'']
    exact Nat.mod_eq_of_lt hd

/-! ### The statement -/

/-- Settles O19: what the watchdog captures (`State.rg_wdCapture`) stands through the halt (`State.rg_halt_none`), which
raises STN-05 and stops the station (`State.halt_haltedBy`). -/
theorem watchdog : Obligations.Watchdog := by
  unfold Obligations.Watchdog
  intro s n
  dsimp only
  refine ⟨fun hcounts hlim hwd hasObj hxsObj => ?_, fun hidle => ?_⟩
  · obtain ⟨hrun, has, hxs, hasHt, hxsHt, hstep⟩ := hcounts
    have hstalled : (s.st n).stalled = true := by
      have hnot : ¬ ((s.st n).as.wait = .stepEnd ∧ (s.st n).xs.wait = .stepEnd) := fun h => hstep.elim (· h.1) (· h.2)
      simp only [Stn.stalled, Bool.and_eq_true, decide_eq_true_eq, Bool.not_eq_true', Bool.and_eq_false_iff,
        decide_eq_false_iff_not, not_and_or] at hnot ⊢
      exact ⟨⟨⟨⟨⟨hrun, has⟩, hxs⟩, hnot⟩, hasHt⟩, hxsHt⟩
    rw [exec_watchdogExpire, if_pos ⟨hlim, hstalled, hwd⟩]
    have hrun' : ((s.wdCapture n).st n).st = .running := by rw [State.st_wdCapture]; exact hrun
    have hby := (State.halt_haltedBy none (Or.inl hrun') (stnCode_not_fatal 5)).of_wdCapture
    obtain ⟨hpc, hwait, hq, hf⟩ := State.rg_wdHalt hrun'
    obtain ⟨hasPc, hxsPc⟩ := wdPc_fields (s.st n).as.pc ((s.st n).xs.pc / 2)
    obtain ⟨hasCode, hasField, hxsCode, hxsField⟩ := wdWait_fields (s.st n).as.wait.code_lt hasObj (s.st n).xs.wait.code_lt hxsObj
    refine ⟨_, rfl, hby.raised, hby.st, hby.others, ?_, ?_, ?_, ?_, ?_, ?_, ?_, ?_, fun a ha hr => ?_⟩
    · rw [State.rf, hpc, fld_word _ (by decide), pow_zero, Nat.div_one]
      exact hasPc
    · rw [State.rf, hpc, fld_word _ (by decide)]
      exact hxsPc
    · rw [State.rf, hwait, fld_word _ (by decide), pow_zero, Nat.div_one]
      exact hasCode
    · rw [State.rf, hwait, fld_word _ (by decide)]
      exact hasField
    · rw [State.rf, hwait, fld_word _ (by decide)]
      exact hxsCode
    · rw [State.rf, hwait, fld_word _ (by decide)]
      exact hxsField
    · exact hq
    · exact hf
    · have hkept : a ∉ stnRegs n [0x38, 0x3C, 0x40, 0x44, 0x30104, 0x30124, 0x30128, 0x30120, 0x1C, 0x54, 0x78, 0x7C] := ha
      have hsub {l : List Nat} (hl : ∀ k ∈ l, k ∈ _) : a ∉ stnRegs n l := fun h => hkept (stnRegs_subset n hl h)
      rw [State.rg_halt_none _ hrun' hr, State.rg_wdCapture_ne s n]
      · rw [wdRegs_eq]
        exact hsub (by decide)
      · rw [discardedRegs_eq]
        exact hsub (by decide)
  · rw [exec_watchdogExpire, if_neg]
    rintro ⟨hlim, -, hwd⟩
    rcases hidle with h | h
    · exact hlim h
    · exact absurd hwd (Nat.not_le.mpr h)

end Sys2Proof.Machine
end

section
/-! SUPPORT. A bundle of one control op, from its fetch to its issue (O16, O17). -/

namespace Sys2Proof.Machine

open Sys2Proof

/-! ### The turn of the execute stream -/

theorem xsTurn_eq (s : State) (n : StnId) : xsTurn s n = (s.st n).act .xs := State.st_modSt_self _ _ _

theorem xsTurn_issCnt (s : State) (n : StnId) : (xsTurn s n).issCnt = (s.st n).issCnt := by simp [xsTurn_eq]

@[simp] theorem xsTurn_xs (s : State) (n : StnId) : (xsTurn s n).xs = (s.st n).xs := by simp [xsTurn_eq]

theorem Stn.fetch_congr {x y : Stn} (h : y.xsMem = x.xsMem) (red : Bool) (fuel pc : Nat) :
    y.fetch red fuel pc = x.fetch red fuel pc := by
  induction fuel generalizing pc with
  | zero => rfl
  | succ fuel ih => simp only [Stn.fetch, h, ih]

/-- The station in its turn with its program counter at the bundle found. -/
def xsAt (s : State) (n : StnId) (pc : Nat) : Stn := { xsTurn s n with xs := { (s.st n).xs with pc := pc } }

/-- The state in which the bundle at `pc` is offered. -/
def State.xsFound (s : State) (n : StnId) (pc : Nat) : State := s.setSt n (xsAt s n pc)

theorem State.xsFound_eq (s : State) (n : StnId) (pc : Nat) : (s.act n .xs).setXsPc n pc = s.xsFound n pc := by
  rw [State.setXsPc, State.act, State.modSt_modSt, State.xsFound, xsAt, xsTurn_eq]
  simp [State.modSt]

theorem State.st_xsFound (s : State) (n : StnId) (pc : Nat) : (s.xsFound n pc).st n = xsAt s n pc := State.st_setSt_self _ _ _

/-- The execute stream takes its turn with nothing to land. -/
theorem State.xsIssue_cycle {s : State} {n : StnId} (hact : s.mayAct n .xs = true) (hpend : (s.st n).xs.pend = []) :
    s.xsIssue n = if (s.st n).xs.idle ≠ 0 then
        (s.act n .xs).modSt n (fun y => { y with
          issCnt := y.issCnt + 1, xs := { y.xs with ic := y.xs.ic + 1, idle := y.xs.idle - 1 } })
      else match (s.st n).fetch (s.redStns.contains n) 2049 (s.st n).xs.pc with
        | .bad pc slot => (s.xsFound n pc).xsStop n pc slot ⟨⟨.stn, 7⟩, none, 0, 0, 4, none⟩
        | .bundle pc ops len => (s.xsFound n pc).xsOffer n pc ops len := by
  have hst : (s.act n .xs).st n = xsTurn s n := rfl
  have hred : (s.act n .xs).redStns = s.redStns := rfl
  have hfetch : ∀ b p, (xsTurn s n).fetch b 2049 p = (s.st n).fetch b 2049 p :=
    fun b p => Stn.fetch_congr (by rw [xsTurn_eq]; simp) b 2049 p
  rw [State.xsIssue, State.turn_of hact, State.xsCycle, State.landDue_none _ _ _ (by rw [hst, xsTurn_xs, hpend])]
  simp only [hst, xsTurn_xs, hred, hfetch, State.xsFound_eq] <;> rfl

/-! ### One control op -/

/-- Checked mode finds nothing in an op of the control slot while no result is pending (R102). -/
theorem Stn.checkTrap_ctl {x : Stn} (t : Nat) (w : Word) (hpend : x.xs.pend = []) : x.checkTrap t ⟨5, w⟩ = none := by
  have hT : (⟨5, w⟩ : XOp).readsT.find? (fun d => x.xs.pend.any (fun p => p.res.writesT d)) = none := by simp [hpend]
  have hX : (⟨5, w⟩ : XOp).readsX.find? (fun d => x.xs.pend.any (fun p => p.res.writesX d)) = none := by simp [hpend]
  simp only [Stn.checkTrap, hT, hX, Stn.meet, slotEngine]

theorem bundleNeed_ctl (w : Word) : bundleNeed [⟨5, w⟩] = 0 := by
  simp [bundleNeed, XOp.blocks]

/-- How a bundle of one control op is offered: at its step-end point, at its wait, or issued. -/
theorem State.xsOffer_ctl {u : State} {n : StnId} (pc len : Nat) (w : Word) (hpend : (u.st n).xs.pend = []) :
    u.xsOffer n pc [⟨5, w⟩] len =
      if (⟨5, w⟩ : XOp).op = 0x12 ∧ (u.st n).xs.stepRec = none then
        u.modSt n (fun y => { y with xs := { y.xs with wait := .stepEnd, obj := 0, stepRec := some u.stepCur } })
      else if (⟨5, w⟩ : XOp).op = 0x12 ∧ (u.st n).xs.stepRec = some u.stepCur then u.xsWait n .stepEnd 0
      else match (u.st n).bundleWait [⟨5, w⟩] with
        | some (k, o) => u.xsWait n k o
        | none => u.bundleIssue n (u.st n).xs.ic pc len [⟨5, w⟩] (u.st n).xs.got := by
  unfold State.xsOffer
  simp only [List.findSome?_cons, Stn.checkTrap_ctl _ _ hpend, Option.map_none, List.findSome?_nil, ite_self, bundleNeed_ctl,
    State.gatherBlocks, XOp.is, List.any_cons, List.any_nil, Bool.or_false, Bool.and_eq_true, beq_iff_eq, true_and, ne_eq,
    not_true_eq_false, false_and, if_false, Nat.zero_le, if_true, Option.isNone_iff_eq_none] <;> rfl

/-- The station after a bundle that has issued (R107, R108). -/
def Stn.issued (x : Stn) (next cycles : Nat) (was hit : Bool) : Stn :=
  { x with
    wd := 0, issCnt := x.issCnt + 1,
    cut := { x.cut with
      nb := x.cut.nb + 1, due := x.cut.due || hit, toIdle := !was && (x.cut.due || hit) && decide (1 < cycles) },
    xs := { x.xs with pc := next, ic := x.xs.ic + 1, idle := cycles - 1, order := x.xs.order + 1, wait := .none, obj := 0,
                      stepRec := none, got := [] } }

/-- The bundle that a station now counts is the one at which its cut freezes it (R108). -/
def State.nbHits (s : State) (n : StnId) (c : Cut) : Bool :=
  decide (s.rf (Reg.stnCutCtrl n.val) 0 2 = 1) && c.armed && c.nb + 1 == s.rg64 (Reg.stnCutAtLo n.val)

theorem State.bundleDone_eq (s : State) (n : StnId) (next cycles : Nat) (was : Bool) :
    s.bundleDone n next cycles was = s.setSt n ((s.st n).issued next cycles was (s.nbHits n (s.st n).cut)) := by
  have hhit : ∀ f : Stn → Stn, (f (s.st n)).cut.nb = (s.st n).cut.nb + 1 → (f (s.st n)).cut.armed = (s.st n).cut.armed →
      (decide ((s.modSt n f).rf (Reg.stnCutCtrl n.val) 0 2 = 1) && (s.modSt n f).cutHits n) = s.nbHits n (s.st n).cut := by
    intro f hnb harm
    have hrf : (s.modSt n f).rf (Reg.stnCutCtrl n.val) 0 2 = s.rf (Reg.stnCutCtrl n.val) 0 2 := rfl
    have hrg : (s.modSt n f).rg64 (Reg.stnCutAtLo n.val) = s.rg64 (Reg.stnCutAtLo n.val) := rfl
    rw [State.cutHits, State.cutCount, State.st_modSt_self, hrf, hrg, State.nbHits, hnb, harm]
    by_cases hm : s.rf (Reg.stnCutCtrl n.val) 0 2 = 1 <;> simp [hm]
  unfold State.bundleDone
  dsimp only
  rw [hhit _ rfl rfl, State.modSt_modSt]
  rfl

/-- A bundle of one control op that waits for nothing issues with its effect (R94). -/
theorem State.bundleIssue_ctl {u : State} {n : StnId} (t pc len : Nat) (w : Word) (bs : List Nat) {f : State → State}
    (hf : doCtl (u.st n) n t ⟨5, w⟩ = .ok f) :
    u.bundleIssue n t pc len [⟨5, w⟩] bs =
      (f u).bundleDone n ((⟨5, w⟩ : XOp).target (u.st n) pc (pc + len)) (bundleCycles [⟨5, w⟩]) (u.st n).cut.due := by
  have hreads : u.bundleReads n [⟨5, w⟩] = [] := by simp [State.bundleReads, XOp.payloads, XOp.is]
  unfold State.bundleIssue
  rw [hreads]
  simp only [State.checkReads, shareBlocks, opEffects, opEffect, if_true, hf, List.foldl_cons, List.foldl_nil]

/-! ### The command, for a bundle of one control op -/

/-- A bundle of the one control op `w` stands next, for a stream that may issue it, with no result pending. -/
structure xsCtl (s : State) (n : StnId) (pc len : Nat) (w : Word) : Prop where
  act : s.mayAct n .xs = true
  pend : (s.st n).xs.pend = []
  idle : (s.st n).xs.idle = 0
  fetch : (s.st n).fetch (s.redStns.contains n) 2049 (s.st n).xs.pc = .bundle pc [⟨5, w⟩] len

section
variable {s : State} {n : StnId} {pc len : Nat} {w : Word}

theorem State.setSt_modSt (s : State) (n : StnId) (x : Stn) (f : Stn → Stn) : (s.setSt n x).modSt n f = s.setSt n (f x) := by
  simp [State.modSt, State.setSt, State.st]

theorem State.setSt_setSt (s : State) (n : StnId) (x y : Stn) : (s.setSt n x).setSt n y = s.setSt n y := by
  simp [State.setSt]

theorem xsCtl.offer (h : xsCtl s n pc len w) : s.xsIssue n = (s.xsFound n pc).xsOffer n pc [⟨5, w⟩] len := by
  rw [State.xsIssue_cycle h.act h.pend, if_neg (not_not.mpr h.idle), h.fetch]

theorem xsAt_pend (h : xsCtl s n pc len w) : ((s.xsFound n pc).st n).xs.pend = [] := by
  rw [State.st_xsFound]; exact h.pend

/-- The waits of a control op (R95). -/
theorem Stn.bundleWait_ctl (x : Stn) (w : Word) :
    x.bundleWait [⟨5, w⟩] =
      if (⟨5, w⟩ : XOp).op = 0x03 then (if (x.headReady (⟨5, w⟩ : XOp).q).isNone then some (.queueEmpty, (⟨5, w⟩ : XOp).q.val) else none)
      else if (⟨5, w⟩ : XOp).op = 0x04 then (if !x.canPush (⟨5, w⟩ : XOp).q then some (.queueFull, (⟨5, w⟩ : XOp).q.val) else none)
      else if (⟨5, w⟩ : XOp).op = 0x08 then
        (if x.flagNow (⟨5, w⟩ : XOp).fl = bitOf w 5 then none else some (.flag, (⟨5, w⟩ : XOp).fl.val))
      else none := by
  have hslot : ¬ ((5 : Nat) = 3) := by decide
  simp only [Stn.bundleWait, List.findSome?_cons, List.findSome?_nil, XOp.is, Bool.and_eq_true, beq_iff_eq, true_and, hslot,
    false_and, if_false]
  split
  · next h => rw [h]
  · next h => rw [h]

/-- The bundle waits. -/
theorem xsCtl.waits (h : xsCtl s n pc len w) (hstep : (⟨5, w⟩ : XOp).op ≠ 0x12) {k : WaitKind} {obj : Nat}
    (hwait : (xsAt s n pc).bundleWait [⟨5, w⟩] = some (k, obj)) :
    s.xsIssue n = s.setSt n { xsTurn s n with xs := { (s.st n).xs with pc := pc, wait := k, obj := obj } } := by
  rw [h.offer, State.xsOffer_ctl pc len w (xsAt_pend h), if_neg (fun hs => hstep hs.1), if_neg (fun hs => hstep hs.1),
    State.st_xsFound, hwait]
  exact State.setSt_modSt _ _ _ _

/-- The bundle comes to its step-end point (R103). -/
theorem xsCtl.steps (h : xsCtl s n pc len w) (hop : (⟨5, w⟩ : XOp).op = 0x12) (hrec : (s.st n).xs.stepRec = none) :
    s.xsIssue n = s.setSt n { xsTurn s n with
      xs := { (s.st n).xs with pc := pc, wait := .stepEnd, obj := 0, stepRec := some s.stepCur } } := by
  rw [h.offer, State.xsOffer_ctl pc len w (xsAt_pend h), if_pos ⟨hop, by rw [State.st_xsFound]; exact hrec⟩]
  exact State.setSt_modSt _ _ _ _

/-- The bundle waits at its step-end point. -/
theorem xsCtl.stays (h : xsCtl s n pc len w) (hop : (⟨5, w⟩ : XOp).op = 0x12)
    (hrec : (s.st n).xs.stepRec = some s.stepCur) :
    s.xsIssue n = s.setSt n { xsTurn s n with xs := { (s.st n).xs with pc := pc, wait := .stepEnd, obj := 0 } } := by
  have hrec' : ((s.xsFound n pc).st n).xs.stepRec = some s.stepCur := by rw [State.st_xsFound]; exact hrec
  rw [h.offer, State.xsOffer_ctl pc len w (xsAt_pend h), if_neg (fun hs => by rw [hrec'] at hs; simp at hs), if_pos ⟨hop, hrec'⟩]
  exact State.setSt_modSt _ _ _ _

/-- The bundle issues: what its op does, and what every issue does. -/
theorem xsCtl.issues (h : xsCtl s n pc len w)
    (hstep : (⟨5, w⟩ : XOp).op ≠ 0x12 ∨ ∃ r, (s.st n).xs.stepRec = some r ∧ r ≠ s.stepCur)
    (hwait : (xsAt s n pc).bundleWait [⟨5, w⟩] = none) {f : State → State} {z : Stn}
    (hdo : doCtl (xsAt s n pc) n (s.st n).xs.ic ⟨5, w⟩ = .ok f) (hf : f (s.xsFound n pc) = s.setSt n z) :
    s.xsIssue n = s.setSt n (z.issued ((⟨5, w⟩ : XOp).target (xsAt s n pc) pc (pc + len)) (bundleCycles [⟨5, w⟩])
      (xsTurn s n).cut.due (s.nbHits n z.cut)) := by
  have hic : (xsAt s n pc).xs.ic = (s.st n).xs.ic := rfl
  have hcut : (xsAt s n pc).cut = (xsTurn s n).cut := rfl
  have hnone : ¬ ((⟨5, w⟩ : XOp).op = 0x12 ∧ ((s.xsFound n pc).st n).xs.stepRec = none) := by
    rintro ⟨hop, hnone⟩
    rw [State.st_xsFound] at hnone
    rcases hstep with hne | ⟨r, hr, -⟩
    · exact hne hop
    · exact absurd (hr.symm.trans hnone) (by simp)
  have hcur : ¬ ((⟨5, w⟩ : XOp).op = 0x12 ∧ ((s.xsFound n pc).st n).xs.stepRec = some (s.xsFound n pc).stepCur) := by
    rintro ⟨hop, hcur⟩
    rw [State.st_xsFound] at hcur
    rcases hstep with hne | ⟨r, hr, hne⟩
    · exact hne hop
    · exact hne (Option.some.inj (hr.symm.trans hcur))
  rw [h.offer, State.xsOffer_ctl pc len w (xsAt_pend h), if_neg hnone, if_neg hcur, State.st_xsFound, hwait]
  dsimp only
  rw [hic, State.bundleIssue_ctl _ pc len w _ (by rw [State.st_xsFound]; exact hdo), hf, State.st_xsFound, hcut,
    State.bundleDone_eq, State.st_setSt_self, State.setSt_setSt]
  rfl

end

end Sys2Proof.Machine
end

section
/-! SUPPORT. What a bundle of one control op does when it issues, and an illegal bundle (O16). -/

namespace Sys2Proof.Machine

open Sys2Proof

/-! ### The station after a control op -/

/-- The bundle that issues is the one at which the cut freezes the station (R108). -/
def xsHits (s : State) (n : StnId) : Bool :=
  decide (s.rf (Reg.stnCutCtrl n.val) 0 2 = 1) && (xsTurn s n).cut.armed && (s.st n).cut.nb + 1 == s.rg64 (Reg.stnCutAtLo n.val)

/-- Station `z` after a bundle of one control op that took `c` issue cycles and left the results `r` pending. -/
def xsIssued (s : State) (n : StnId) (next c : Nat) (r : List Result) (z : Stn) : Stn :=
  { z with
    wd := 0, issCnt := (s.st n).issCnt + 1,
    xs := { (s.st n).xs with
      pc := next, ic := (s.st n).xs.ic + 1, idle := c - 1, order := (s.st n).xs.order + 1, wait := .none, obj := 0,
      stepRec := none, got := [],
      pend := r.map (fun y => ⟨(s.st n).xs.ic + 1, (s.st n).xs.order, 5, y, 0, TH.zero, 0, 0⟩) },
    cut := { (xsTurn s n).cut with
      nb := (s.st n).cut.nb + 1, due := (s.st n).cut.due || xsHits s n,
      toIdle := !(s.st n).cut.due && xsHits s n && decide (1 < c) } }

/-- A turn neither counts a bundle nor makes a freeze due. -/
theorem Stn.act_cut (x : Stn) (u : Actor) : (x.act u).cut.nb = x.cut.nb ∧ (x.act u).cut.due = x.cut.due := by
  unfold Stn.act Stn.newCycle
  split <;> exact ⟨rfl, rfl⟩

theorem xsIssued_eq {s : State} {n : StnId} {next c pc : Nat} {r : List Result} {z : Stn} (hcut : z.cut = (xsTurn s n).cut)
    (hiss : z.issCnt = (s.st n).issCnt) :
    ({ z with xs := { (s.st n).xs with
        pc := pc, pend := r.map (fun y => ⟨(s.st n).xs.ic + 1, (s.st n).xs.order, 5, y, 0, TH.zero, 0, 0⟩) } } : Stn).issued
        next c (xsTurn s n).cut.due (s.nbHits n z.cut) = xsIssued s n next c r z := by
  obtain ⟨hnb, hdue⟩ := (s.st n).act_cut .xs
  rw [← xsTurn_eq] at hnb hdue
  have hidle (a b : Bool) : (!a && (a || b)) = (!a && b) := by cases a <;> rfl
  simp only [Stn.issued, xsIssued, State.nbHits, xsHits, hcut, hiss, hnb, hdue, hidle]

theorem bundleCycles_ctl (w : Word) : bundleCycles [⟨5, w⟩] = if (⟨5, w⟩ : XOp).op = 0x02 then fld w 0 16 else 1 := by
  by_cases h : (⟨5, w⟩ : XOp).op = 0x02 <;> simp [bundleCycles, XOp.is, h]

/-- The frame register that a control op reads. -/
abbrev Stn.ctlTile (x : Stn) (w : Word) : Option Tile := x.xs.t[(⟨5, w⟩ : XOp).tb.val]

/-- The X register that the field at bit `lo` of a control op names. -/
abbrev Stn.ctlWord (x : Stn) (w : Word) (lo : Nat) : Word := x.xs.x[((⟨5, w⟩ : XOp).x lo).val]'((⟨5, w⟩ : XOp).x lo).isLt

/-- The queue of a control op. -/
abbrev Stn.ctlQueue (x : Stn) (w : Word) : List QEntry := x.q[(⟨5, w⟩ : XOp).q.val]

/-- The station's queues, with that of a control op replaced. -/
abbrev Stn.withCtlQueue (x : Stn) (w : Word) (l : List QEntry) : Vector (List QEntry) 8 := x.q.set (⟨5, w⟩ : XOp).q.val l

theorem XOp.target_ctl (w : Word) (y : Stn) (pc next : Nat) :
    (⟨5, w⟩ : XOp).target y pc next =
      let there := (((pc : Int) + 2 * signed 16 (fld w 0 16)) % 2 ^ 32).toNat
      if (⟨5, w⟩ : XOp).op = 0x0D then there
      else if (⟨5, w⟩ : XOp).op = 0x0E then (if y.xs.x[((⟨5, w⟩ : XOp).x 16).val]'((⟨5, w⟩ : XOp).x 16).isLt = 0 then next else there)
      else if (⟨5, w⟩ : XOp).op = 0x0F then (if y.xs.x[((⟨5, w⟩ : XOp).x 21).val]'((⟨5, w⟩ : XOp).x 21).isLt = 1 then next else there)
      else next := by
  have hone (v : Word) : v - 1 = 0 ↔ v = 1 := sub_eq_zero
  simp only [XOp.target, if_true, XOp.imm, ne_eq, ite_not, hone]
  split
  · next h => simp [h]
  · next h => simp [h]
  · next h => simp [h]
  · next h1 h2 h3 => rw [if_neg h1, if_neg h2, if_neg h3]

/-- But for a branch, a bundle goes on to the next one. -/
theorem XOp.target_next {w : Word} {op : Nat} (y : Stn) (pc next : Nat) (hop : (⟨5, w⟩ : XOp).op = op)
    (h : op ∉ [0x0D, 0x0E, 0x0F]) : (⟨5, w⟩ : XOp).target y pc next = next := by
  simp only [List.mem_cons, List.not_mem_nil, or_false, not_or] at h
  obtain ⟨hjmp, hbeqz, hdbnz⟩ := h
  rw [XOp.target_ctl]
  simp only [hop, hjmp, hbeqz, hdbnz, if_false]

theorem bundleCycles_one {w : Word} {op : Nat} (hop : (⟨5, w⟩ : XOp).op = op) (h : op ≠ 0x02) : bundleCycles [⟨5, w⟩] = 1 := by
  rw [bundleCycles_ctl, hop, if_neg h]

section
variable {s : State} {n : StnId} {pc len next c : Nat} {w : Word}

/-- What a control op does that goes on at `next` after `c` issue cycles with `r` pending, in station `z`. -/
def xsGoes (s : State) (n : StnId) (next c : Nat) (r : List Result) (z : Stn) : Prop :=
  s.xsIssue n = s.setSt n (xsIssued s n next c r z)

/-- A control op that leaves no result and makes station `z`. -/
theorem xsCtl.plain (h : xsCtl s n pc len w)
    (hstep : (⟨5, w⟩ : XOp).op ≠ 0x12 ∨ ∃ r, (s.st n).xs.stepRec = some r ∧ r ≠ s.stepCur)
    (hwait : (xsAt s n pc).bundleWait [⟨5, w⟩] = none) {f : State → State} {z : Stn}
    (hdo : doCtl (xsAt s n pc) n (s.st n).xs.ic ⟨5, w⟩ = .ok f)
    (hf : f (s.xsFound n pc) = s.setSt n { z with xs := { (s.st n).xs with pc := pc } })
    (hcut : z.cut = (xsTurn s n).cut) (hiss : z.issCnt = (s.st n).issCnt)
    (hnext : (⟨5, w⟩ : XOp).target (xsAt s n pc) pc (pc + len) = next) (hc : bundleCycles [⟨5, w⟩] = c) :
    xsGoes s n next c [] z := by
  rw [xsGoes, h.issues hstep hwait hdo hf, ← xsIssued_eq (pc := pc) hcut hiss, List.map_nil, ← h.pend, hnext, hc]

theorem Stn.bundleWait_free {op : Nat} (x : Stn) (hop : (⟨5, w⟩ : XOp).op = op) (hfree : op ∉ [0x03, 0x04, 0x08]) :
    x.bundleWait [⟨5, w⟩] = none := by
  simp only [List.mem_cons, List.not_mem_nil, or_false, not_or] at hfree
  obtain ⟨h3, h4, h8⟩ := hfree
  rw [Stn.bundleWait_ctl, hop, if_neg h3, if_neg h4, if_neg h8]

/-- The ops that change no register and no flag. -/
theorem doCtl_moves {op k : Nat} {y : Stn} (hop : (⟨5, w⟩ : XOp).op = op) (h : op ∈ [0x01, 0x02, 0x08, 0x0D, 0x0E, 0x12]) :
    doCtl y n k ⟨5, w⟩ = .ok id := by
  simp only [List.mem_cons, List.not_mem_nil, or_false] at h
  rw [doCtl, hop]
  rcases h with rfl | rfl | rfl | rfl | rfl | rfl <;> rfl

/-- The result that an op on the X and T registers leaves pending. -/
def Stn.ctlLeaves (x : Stn) (w : Word) : Nat → Result
  | 0x05 => .empty (⟨5, w⟩ : XOp).td
  | 0x09 => .x ((⟨5, w⟩ : XOp).x 21) (BitVec.ofInt 32 (signed 16 (fld w 0 16)))
  | 0x0A => .x ((⟨5, w⟩ : XOp).x 21) (setFld (x.ctlWord w 21) 16 16 (fld w 0 16))
  | 0x0B => .x ((⟨5, w⟩ : XOp).x 21) (x.ctlWord w 16 + BitVec.ofInt 32 (signed 16 (fld w 0 16)))
  | 0x0C => .x ((⟨5, w⟩ : XOp).x 21) (x.ctlWord w 16 + x.ctlWord w 11)
  | _ => .x ((⟨5, w⟩ : XOp).x 21) (x.ctlWord w 21 - 1)

theorem doCtl_leaves {op k : Nat} {y : Stn} (hop : (⟨5, w⟩ : XOp).op = op) (h : op ∈ [0x05, 0x09, 0x0A, 0x0B, 0x0C, 0x0F]) :
    doCtl y n k ⟨5, w⟩ = .ok (fun u => u.ctlPend n k (y.ctlLeaves w op)) := by
  simp only [List.mem_cons, List.not_mem_nil, or_false] at h
  rw [doCtl, hop]
  rcases h with rfl | rfl | rfl | rfl | rfl | rfl <;> rfl

/-- The ops that change a flag. -/
theorem doCtl_flags {k : Nat} {y : Stn} :
    ((⟨5, w⟩ : XOp).op = 0x06 →
      doCtl y n k ⟨5, w⟩ = .ok (fun u => u.modSt n (fun x => x.setFlags (flagBit (⟨5, w⟩ : XOp).fl)))) ∧
    ((⟨5, w⟩ : XOp).op = 0x07 →
      doCtl y n k ⟨5, w⟩ = .ok (fun u => u.modSt n (fun x => x.clrFlags (flagBit (⟨5, w⟩ : XOp).fl)))) := by
  constructor <;> intro hop <;> rw [doCtl, hop] <;> rfl

theorem doCtl_readsHead {k : Nat} {y : Stn} {u : Tile} (hop : (⟨5, w⟩ : XOp).op = 0x10) (hu : y.ctlTile w = some u) :
    doCtl y n k ⟨5, w⟩ = .ok (fun v => v.ctlPend n k (.x ((⟨5, w⟩ : XOp).x 21) (u.th.get (fld w 0 3)))) := by
  rw [doCtl, hop]
  show (match y.ctlTile w with
    | none => Except.error (Stop.rule none)
    | some u => .ok (fun v : State => v.ctlPend n k (.x ((⟨5, w⟩ : XOp).x 21) (u.th.get (fld w 0 3))))) = _
  rw [hu]

theorem doCtl_writesHead {k : Nat} {y : Stn} {u : Tile} (hop : (⟨5, w⟩ : XOp).op = 0x11) (hu : y.ctlTile w = some u) :
    doCtl y n k ⟨5, w⟩ =
      .ok (fun v => v.ctlPend n k (.thWord (⟨5, w⟩ : XOp).tb (Fin.ofNat 8 (fld w 0 3)) (y.ctlWord w 16))) := by
  rw [doCtl, hop]
  show (match y.ctlTile w with
    | none => Except.error (Stop.rule none)
    | some _ => .ok (fun v : State => v.ctlPend n k (.thWord (⟨5, w⟩ : XOp).tb (Fin.ofNat 8 (fld w 0 3)) (y.ctlWord w 16)))) = _
  rw [hu]

/-- A control op that moves the program counter at most. -/
theorem xsCtl.moves {op : Nat} (h : xsCtl s n pc len w) (hop : (⟨5, w⟩ : XOp).op = op) (hfree : op ∉ [0x03, 0x04, 0x08])
    (hmoves : op ∈ [0x01, 0x02, 0x08, 0x0D, 0x0E, 0x12])
    (hstep : op ≠ 0x12 ∨ ∃ r, (s.st n).xs.stepRec = some r ∧ r ≠ s.stepCur)
    (hnext : (⟨5, w⟩ : XOp).target (xsAt s n pc) pc (pc + len) = next) (hc : bundleCycles [⟨5, w⟩] = c) :
    xsGoes s n next c [] (xsTurn s n) :=
  h.plain (hop ▸ hstep) (Stn.bundleWait_free _ hop hfree) (doCtl_moves hop hmoves) rfl rfl (xsTurn_issCnt s n) hnext hc

/-- A control op whose result lands one issue cycle after. -/
theorem xsCtl.pends {op : Nat} (h : xsCtl s n pc len w) (hop : (⟨5, w⟩ : XOp).op = op)
    (hfree : op ∉ [0x02, 0x03, 0x04, 0x08, 0x12]) {r : Result}
    (hdo : doCtl (xsAt s n pc) n (s.st n).xs.ic ⟨5, w⟩ = .ok (fun u => u.ctlPend n (s.st n).xs.ic r))
    (hnext : (⟨5, w⟩ : XOp).target (xsAt s n pc) pc (pc + len) = next) : xsGoes s n next 1 [r] (xsTurn s n) := by
  simp only [List.mem_cons, List.not_mem_nil, or_false, not_or] at hfree
  obtain ⟨h2, h3, h4, h8, hstep⟩ := hfree
  rw [xsGoes, h.issues (Or.inl (hop ▸ hstep)) (Stn.bundleWait_free _ hop (by simp [h3, h4, h8])) hdo (State.setSt_modSt _ _ _ _),
    ← xsIssued_eq (pc := pc) rfl (xsTurn_issCnt s n), hnext, bundleCycles_ctl, hop, if_neg h2]
  show s.setSt n (Stn.issued { xsTurn s n with xs := { (s.st n).xs with pc := pc, pend := (s.st n).xs.pend ++ [_] } } _ _ _ _) = _
  rw [h.pend]
  rfl

/-- The turn of the execute stream, as one change of its station. -/
theorem exec_xsBundleIssue {z : Stn} (h : s.xsIssue n = s.setSt n z) :
    ∃ t, exec (.xsBundleIssue n) s = .next t ∧ t = { s with stn := t.stn } ∧ stnsBut n s t ∧ t.st n = z :=
  ⟨s.setSt n z, congrArg Host.Outcome.next h, rfl, fun _ hm => State.st_setSt_ne s z hm, State.st_setSt_self s n z⟩

theorem xsGoes.exec {r : List Result} {z : Stn} (h : xsGoes s n next c r z) :
    ∃ t, exec (.xsBundleIssue n) s = .next t ∧ t = { s with stn := t.stn } ∧ stnsBut n s t ∧
      t.st n = xsIssued s n next c r z := exec_xsBundleIssue h

end

theorem Stn.headReady_xsAt (s : State) (n : StnId) (pc : Nat) (q : Fin 8) :
    (xsAt s n pc).headReady q = (xsTurn s n).headReady q := rfl

theorem Stn.canPush_xsAt (s : State) (n : StnId) (pc : Nat) (q : Fin 8) :
    (xsAt s n pc).canPush q = (xsTurn s n).canPush q := rfl

theorem Stn.flagNow_xsAt (s : State) (n : StnId) (pc : Nat) (f : Fin 32) :
    (xsAt s n pc).flagNow f = (xsTurn s n).flagNow f := rfl

/-- The low half stays and the high half is replaced. -/
theorem setFld_high (v : Word) {k : Nat} (hk : k < 2 ^ 16) : setFld v 16 16 k = word (v.toNat % 2 ^ 16 + k * 2 ^ 16) := by
  have hhigh : v.toNat / 2 ^ 16 < 2 ^ 16 := Nat.div_lt_of_lt_mul v.isLt
  have hlow : v.toNat - v.toNat / 2 ^ 16 % 2 ^ 16 * 2 ^ 16 = v.toNat % 2 ^ 16 := by
    rw [Nat.mod_eq_of_lt hhigh]
    exact Nat.mod_eq_sub_div_mul.symm
  rw [setFld, fld, Nat.shiftLeft_eq, Nat.shiftLeft_eq, Nat.shiftRight_eq_div_pow, hlow, Nat.mod_eq_of_lt hk]
  rfl

/-! ### What each control op does (Table 3.9) -/

section
variable {s : State} {n : StnId} {pc len : Nat} {w : Word}

/-- Where a control op branches to. -/
def xsThere (pc : Nat) (w : Word) : Nat := (((pc : Int) + 2 * signed 16 (fld w 0 16)) % 2 ^ 32).toNat

theorem xsCtl.nop (h : xsCtl s n pc len w) (hop : (⟨5, w⟩ : XOp).op = 0x01) : xsGoes s n (pc + len) 1 [] (xsTurn s n) :=
  h.moves hop (by decide) (by decide) (Or.inl (by decide)) (XOp.target_next _ _ _ hop (by decide))
    (bundleCycles_one hop (by decide))

theorem xsCtl.idles (h : xsCtl s n pc len w) (hop : (⟨5, w⟩ : XOp).op = 0x02) :
    xsGoes s n (pc + len) (fld w 0 16) [] (xsTurn s n) :=
  h.moves hop (by decide) (by decide) (Or.inl (by decide)) (XOp.target_next _ _ _ hop (by decide))
    (by rw [bundleCycles_ctl, if_pos hop])

theorem xsCtl.pop_waits (h : xsCtl s n pc len w) (hop : (⟨5, w⟩ : XOp).op = 0x03)
    (hq : (xsTurn s n).headReady (⟨5, w⟩ : XOp).q = none) : 
    s.xsIssue n = s.setSt n { xsTurn s n with xs := { (s.st n).xs with pc := pc, wait := .queueEmpty, obj := (⟨5, w⟩ : XOp).q.val } } :=
  h.waits (by rw [hop]; decide) (by simp [Stn.bundleWait_ctl, hop, Stn.headReady_xsAt, hq])

theorem xsCtl.push_waits (h : xsCtl s n pc len w) (hop : (⟨5, w⟩ : XOp).op = 0x04)
    (hq : (xsTurn s n).canPush (⟨5, w⟩ : XOp).q = false) : 
    s.xsIssue n = s.setSt n { xsTurn s n with xs := { (s.st n).xs with pc := pc, wait := .queueFull, obj := (⟨5, w⟩ : XOp).q.val } } :=
  h.waits (by rw [hop]; decide) (by simp [Stn.bundleWait_ctl, hop, Stn.canPush_xsAt, hq])

theorem xsCtl.frees (h : xsCtl s n pc len w) (hop : (⟨5, w⟩ : XOp).op = 0x05) :
    xsGoes s n (pc + len) 1 [.empty (⟨5, w⟩ : XOp).td] (xsTurn s n) :=
  h.pends hop (by decide) (doCtl_leaves hop (by decide)) (XOp.target_next _ _ _ hop (by decide))

theorem xsCtl.setsFlag (h : xsCtl s n pc len w) (hop : (⟨5, w⟩ : XOp).op = 0x06) :
    xsGoes s n (pc + len) 1 [] ((xsTurn s n).setFlags (flagBit (⟨5, w⟩ : XOp).fl)) :=
  h.plain (Or.inl (by rw [hop]; decide)) (Stn.bundleWait_free _ hop (by decide)) (doCtl_flags.1 hop)
    (State.setSt_modSt _ _ _ _) rfl (xsTurn_issCnt s n) (XOp.target_next _ _ _ hop (by decide))
    (bundleCycles_one hop (by decide))

theorem xsCtl.clearsFlag (h : xsCtl s n pc len w) (hop : (⟨5, w⟩ : XOp).op = 0x07) :
    xsGoes s n (pc + len) 1 [] ((xsTurn s n).clrFlags (flagBit (⟨5, w⟩ : XOp).fl)) :=
  h.plain (Or.inl (by rw [hop]; decide)) (Stn.bundleWait_free _ hop (by decide)) (doCtl_flags.2 hop)
    (State.setSt_modSt _ _ _ _) rfl (xsTurn_issCnt s n) (XOp.target_next _ _ _ hop (by decide))
    (bundleCycles_one hop (by decide))

theorem xsCtl.flag_met (h : xsCtl s n pc len w) (hop : (⟨5, w⟩ : XOp).op = 0x08)
    (hf : (xsTurn s n).flagNow (⟨5, w⟩ : XOp).fl = bitOf w 5) : xsGoes s n (pc + len) 1 [] (xsTurn s n) :=
  h.plain (Or.inl (by rw [hop]; decide)) (by simp [Stn.bundleWait_ctl, hop, Stn.flagNow_xsAt, hf]) 
    (doCtl_moves hop (by decide)) rfl rfl (xsTurn_issCnt s n) (XOp.target_next _ _ _ hop (by decide))
    (bundleCycles_one hop (by decide))

theorem xsCtl.flag_waits (h : xsCtl s n pc len w) (hop : (⟨5, w⟩ : XOp).op = 0x08)
    (hf : (xsTurn s n).flagNow (⟨5, w⟩ : XOp).fl ≠ bitOf w 5) : 
    s.xsIssue n = s.setSt n { xsTurn s n with xs := { (s.st n).xs with pc := pc, wait := .flag, obj := (⟨5, w⟩ : XOp).fl.val } } :=
  h.waits (by rw [hop]; decide) (by simp [Stn.bundleWait_ctl, hop, Stn.flagNow_xsAt, hf])

theorem xsCtl.li (h : xsCtl s n pc len w) (hop : (⟨5, w⟩ : XOp).op = 0x09) :
    xsGoes s n (pc + len) 1 [.x ((⟨5, w⟩ : XOp).x 21) (BitVec.ofInt 32 (signed 16 (fld w 0 16)))] (xsTurn s n) :=
  h.pends hop (by decide) (doCtl_leaves hop (by decide)) (XOp.target_next _ _ _ hop (by decide))

theorem xsCtl.lih (h : xsCtl s n pc len w) (hop : (⟨5, w⟩ : XOp).op = 0x0A) :
    xsGoes s n (pc + len) 1 [.x ((⟨5, w⟩ : XOp).x 21) (word (((s.st n).ctlWord w 21).toNat % 2 ^ 16 + fld w 0 16 * 2 ^ 16))]
      (xsTurn s n) := by
  rw [← setFld_high _ (fld_lt w 0 16)]
  exact h.pends hop (by decide) (doCtl_leaves hop (by decide)) (XOp.target_next _ _ _ hop (by decide))

theorem xsCtl.addi (h : xsCtl s n pc len w) (hop : (⟨5, w⟩ : XOp).op = 0x0B) :
    xsGoes s n (pc + len) 1 [.x ((⟨5, w⟩ : XOp).x 21) ((s.st n).ctlWord w 16 + BitVec.ofInt 32 (signed 16 (fld w 0 16)))]
      (xsTurn s n) :=
  h.pends hop (by decide) (doCtl_leaves hop (by decide)) (XOp.target_next _ _ _ hop (by decide))

theorem xsCtl.add (h : xsCtl s n pc len w) (hop : (⟨5, w⟩ : XOp).op = 0x0C) :
    xsGoes s n (pc + len) 1 [.x ((⟨5, w⟩ : XOp).x 21) ((s.st n).ctlWord w 16 + (s.st n).ctlWord w 11)] (xsTurn s n) :=
  h.pends hop (by decide) (doCtl_leaves hop (by decide)) (XOp.target_next _ _ _ hop (by decide))

theorem xsCtl.jmp (h : xsCtl s n pc len w) (hop : (⟨5, w⟩ : XOp).op = 0x0D) :
    xsGoes s n (xsThere pc w) 1 [] (xsTurn s n) :=
  h.moves hop (by decide) (by decide) (Or.inl (by decide)) (by rw [XOp.target_ctl, hop]; rfl)
    (bundleCycles_one hop (by decide))

theorem xsCtl.beqz (h : xsCtl s n pc len w) (hop : (⟨5, w⟩ : XOp).op = 0x0E) :
    xsGoes s n (if (s.st n).ctlWord w 16 = 0 then pc + len else xsThere pc w) 1 [] (xsTurn s n) :=
  h.moves hop (by decide) (by decide) (Or.inl (by decide)) (by rw [XOp.target_ctl, hop]; rfl)
    (bundleCycles_one hop (by decide))

theorem xsCtl.dbnz (h : xsCtl s n pc len w) (hop : (⟨5, w⟩ : XOp).op = 0x0F) :
    xsGoes s n (if (s.st n).ctlWord w 21 = 1 then pc + len else xsThere pc w) 1
      [.x ((⟨5, w⟩ : XOp).x 21) ((s.st n).ctlWord w 21 - 1)] (xsTurn s n) :=
  h.pends hop (by decide) (doCtl_leaves hop (by decide)) (by rw [XOp.target_ctl, hop]; rfl)

theorem xsCtl.readsHead {u : Tile} (h : xsCtl s n pc len w) (hop : (⟨5, w⟩ : XOp).op = 0x10)
    (hu : (s.st n).ctlTile w = some u) :
    xsGoes s n (pc + len) 1 [.x ((⟨5, w⟩ : XOp).x 21) (u.th.get (fld w 0 3))] (xsTurn s n) := by
  have hread : (xsAt s n pc).ctlTile w = some u := hu
  exact h.pends hop (by decide) (doCtl_readsHead hop hread) (XOp.target_next _ _ _ hop (by decide))

theorem xsCtl.writesHead {u : Tile} (h : xsCtl s n pc len w) (hop : (⟨5, w⟩ : XOp).op = 0x11)
    (hu : (s.st n).ctlTile w = some u) :
    xsGoes s n (pc + len) 1 [.thWord (⟨5, w⟩ : XOp).tb (Fin.ofNat 8 (fld w 0 3)) ((s.st n).ctlWord w 16)] (xsTurn s n) := by
  have hread : (xsAt s n pc).ctlTile w = some u := hu
  exact h.pends hop (by decide) (doCtl_writesHead hop hread) (XOp.target_next _ _ _ hop (by decide))

theorem xsCtl.step_passed {r} (h : xsCtl s n pc len w) (hop : (⟨5, w⟩ : XOp).op = 0x12)
    (hrec : (s.st n).xs.stepRec = some r) (hne : r ≠ s.stepCur) : xsGoes s n (pc + len) 1 [] (xsTurn s n) :=
  h.moves hop (by decide) (by decide) (Or.inr ⟨r, hrec, hne⟩) (XOp.target_next _ _ _ hop (by decide))
    (bundleCycles_one hop (by decide))

end

/-- What follows the turn of the execute stream is one change of its station. -/
theorem State.act_xs_modSt (s : State) (n : StnId) (f : Stn → Stn) :
    (s.act n .xs).modSt n f = s.setSt n (f (xsTurn s n)) := by
  rw [xsTurn_eq, State.act, State.modSt_modSt]; rfl

/-! ### An illegal bundle (R100) -/

theorem mem_slotsOf_lt {i mask : Nat} (h : i ∈ slotsOf mask) : i < 6 := List.mem_range.mp (List.mem_filter.mp h).1

/-- The slot that fetch names for an illegal bundle fits its field of STN_TRAP. -/
theorem Stn.fetch_bad_slot {x : Stn} {red : Bool} {fuel pc p slot : Nat} (h : x.fetch red fuel pc = .bad p slot) : slot < 8 := by
  induction fuel generalizing pc with
  | zero => cases h; decide
  | succ fuel ih =>
    simp only [Stn.fetch] at h
    split at h
    · cases h; decide
    · split at h
      · exact ih h
      · split at h
        · cases h; decide
        · split at h
          · next o ho =>
            cases h
            obtain ⟨a, ha, rfl⟩ := List.mem_map.mp (List.mem_of_find?_eq_some ho)
            exact (mem_slotsOf_lt (List.fst_mem_of_mem_zipIdx ha)).trans (by decide)
          · exact absurd h (by simp)

/-- An illegal bundle halts the station, with the slot that says so in STN_TRAP. -/
theorem State.xsStop_spec {s : State} {n : StnId} (pc p slot cause : Nat) (hcause : cause ≠ 0) (hrun : (s.st n).st = .running) :
    let u := s.xsFound n pc
    let t := u.xsStop n p slot ⟨⟨.stn, 7⟩, none, 0, 0, cause, none⟩
    haltedBy n ⟨.stn, 7⟩ u t ∧
      t.rg (Reg.stnTrap n.val) = word (p / 2 % 2 ^ 16 + slot * 2 ^ 16 + 0 * 2 ^ 20 + 0 * 2 ^ 25 + cause * 2 ^ 27) := by
  intro u t
  have ht : t = ((u.modSt n Stn.dropGot).setTrap n (p / 2) slot 0 0 cause).halt n ⟨.stn, 7⟩ none := by
    simp only [t, State.xsStop, hcause, if_false]
  have hst : ((u.modSt n Stn.dropGot).st n).st = .running := by
    have hturn : (xsTurn s n).st = .running := by rw [xsTurn_eq, (Stn.act_frame _ _).2.2.2.1, hrun]
    rw [State.st_modSt_self, Stn.dropGot_shape, State.st_xsFound]
    exact hturn
  obtain ⟨hhalt, hraised, hothers, hplace⟩ := State.setTrap_halt_haltedBy (p / 2) slot 0 0 cause none (Or.inl hst)
    (c := ⟨.stn, 7⟩) (by decide)
  rw [ht]
  refine ⟨⟨hhalt, raised.of_later hraised rfl rfl (catGrows.modSt u n _), fun hh m hm => ?_, ?_⟩, ?_⟩
  · rw [hothers hh m hm, State.st_modSt_ne _ _ hm]
  · rw [hplace, State.st_modSt_self, Stn.place_dropGot]
  · rw [State.rg_trap_halt, State.rg_setTrap]

/-- The fields of STN_TRAP (Table 3.15), for a bundle whose op has no object. -/
theorem trap_fields {p slot cause : Nat} (hp : p < 2 ^ 16) (hslot : slot < 8) (hcause : cause < 8) :
    (p + slot * 2 ^ 16 + 0 * 2 ^ 20 + 0 * 2 ^ 25 + cause * 2 ^ 27) % 2 ^ 16 = p ∧
    (p + slot * 2 ^ 16 + 0 * 2 ^ 20 + 0 * 2 ^ 25 + cause * 2 ^ 27) / 2 ^ 16 % 2 ^ 3 = slot ∧
    (p + slot * 2 ^ 16 + 0 * 2 ^ 20 + 0 * 2 ^ 25 + cause * 2 ^ 27) / 2 ^ 27 % 2 ^ 3 = cause := by
  have hnest : p + slot * 2 ^ 16 + 0 * 2 ^ 20 + 0 * 2 ^ 25 + cause * 2 ^ 27 = p + (slot + cause * 2 ^ 8 * 8) * 2 ^ 16 := by ring
  obtain ⟨hmod, hdiv⟩ := unpack (slot + cause * 2 ^ 8 * 8) hp
  obtain ⟨hmod', hdiv'⟩ := unpack (cause * 2 ^ 8) hslot
  rw [hnest]
  refine ⟨hmod, by rw [hdiv]; exact hmod', ?_⟩
  rw [show (2 : Nat) ^ 27 = 2 ^ 16 * 8 * 2 ^ 8 by decide, ← Nat.div_div_eq_div_mul, ← Nat.div_div_eq_div_mul, hdiv, hdiv',
    Nat.mul_div_cancel _ (by decide)]
  exact Nat.mod_eq_of_lt hcause

theorem fld_trap (p cause : Nat) {slot : Nat} (hslot : slot < 8) (hcause : cause < 8) :
    fld (word (p % 2 ^ 16 + slot * 2 ^ 16 + 0 * 2 ^ 20 + 0 * 2 ^ 25 + cause * 2 ^ 27)) 0 16 = p % 2 ^ 16 ∧
    fld (word (p % 2 ^ 16 + slot * 2 ^ 16 + 0 * 2 ^ 20 + 0 * 2 ^ 25 + cause * 2 ^ 27)) 16 3 = slot % 8 ∧
    fld (word (p % 2 ^ 16 + slot * 2 ^ 16 + 0 * 2 ^ 20 + 0 * 2 ^ 25 + cause * 2 ^ 27)) 27 3 = cause := by
  rw [fld_word _ (by decide), fld_word _ (by decide), fld_word _ (by decide), pow_zero, Nat.div_one, Nat.mod_eq_of_lt hslot]
  exact trap_fields (Nat.mod_lt _ (by decide)) hslot hcause

/-- The turn of a station whose next bundle is illegal. -/
theorem State.xsIssue_bad {s : State} {n : StnId} {pc slot : Nat} (hact : s.mayAct n .xs = true) (hpend : (s.st n).xs.pend = [])
    (hidle : (s.st n).xs.idle = 0) (hbad : (s.st n).fetch (s.redStns.contains n) 2049 (s.st n).xs.pc = .bad pc slot) :
    let t := (s.xsFound n pc).xsStop n pc slot ⟨⟨.stn, 7⟩, none, 0, 0, 4, none⟩
    s.xsIssue n = t ∧ ((t.st n).st = .halted ∨ (t.st n).st = .fenced) ∧
      t.rf (Reg.stnTrap n.val) 0 16 = pc / 2 % 2 ^ 16 ∧ t.rf (Reg.stnTrap n.val) 16 3 = slot % 8 ∧
      t.rf (Reg.stnTrap n.val) 27 3 = 4 ∧ raised ⟨.stn, 7⟩ (uStn n) s t ∧ (t.st n).xs.pc = pc ∧
      (t.st n).cut.nb = (s.st n).cut.nb ∧ ((t.st n).st = .halted → stnsBut n s t) := by
  intro t
  obtain ⟨⟨hhalt, hraised, hothers, hplace⟩, htrap⟩ := State.xsStop_spec pc pc slot 4 (by decide) (State.running_of_mayAct hact)
  obtain ⟨hpc, hslot, hcause⟩ := fld_trap (pc / 2) 4 (Stn.fetch_bad_slot hbad) (by decide)
  rw [State.st_xsFound] at hplace
  obtain ⟨-, -, -, hxpc, hnb⟩ := Stn.place_eq hplace
  have hturn : (xsTurn s n).cut.nb = (s.st n).cut.nb := by rw [xsTurn_eq]; exact ((s.st n).act_cut .xs).1
  refine ⟨?_, hhalt, ?_, ?_, ?_, raised.of_later hraised rfl rfl (.of_cat rfl), hxpc, hnb.trans hturn,
    fun hh m hm => (hothers hh m hm).trans (State.st_setSt_ne s _ hm)⟩
  · rw [State.xsIssue_cycle hact hpend, if_neg (not_not.mpr hidle), hbad]
  · rw [State.rf, htrap, hpc]
  · rw [State.rf, htrap, hslot]
  · rw [State.rf, htrap, hcause]

/-! ### The statement -/

/-- Settles O16: each control op waits (`xsCtl.waits`), goes on (`xsCtl.moves`, `xsCtl.plain`), leaves a result pending
(`xsCtl.pends`) or meets its step-end point (`xsCtl.steps`, `xsCtl.stays`); an illegal bundle halts (`State.xsStop_spec`). -/
theorem controlBundles : Obligations.ControlBundles := by
  unfold Obligations.ControlBundles
  intro s n pc len w x y o hact hpend
  refine ⟨fun hidle hfetch => ?_, fun hidle => ?_, fun slot hidle hbad => ?_⟩
  · have h : xsCtl s n pc len w := ⟨hact, hpend, hidle, hfetch⟩
    intro hit xs issues waits there xd xa next
    exact ⟨fun hop => (h.nop hop).exec, fun hop => (h.idles hop).exec, fun hop hq => exec_xsBundleIssue (h.pop_waits hop hq),
      fun hop hq => exec_xsBundleIssue (h.push_waits hop hq), fun hop => (h.frees hop).exec, fun hop => (h.setsFlag hop).exec,
      fun hop => (h.clearsFlag hop).exec, fun hop hf => (h.flag_met hop hf).exec,
      fun hop hf => exec_xsBundleIssue (h.flag_waits hop hf), fun hop => (h.li hop).exec, fun hop => (h.lih hop).exec,
      fun hop => (h.addi hop).exec, fun hop => (h.add hop).exec, fun hop => (h.jmp hop).exec, fun hop => (h.beqz hop).exec,
      fun hop => (h.dbnz hop).exec, fun u hop hu => (h.readsHead hop hu).exec, fun u hop hu => (h.writesHead hop hu).exec,
      fun hop hrec => exec_xsBundleIssue (h.steps hop hrec), fun hop hrec => exec_xsBundleIssue (h.stays hop hrec),
      fun r hop hrec hne => (h.step_passed hop hrec hne).exec⟩
  · refine exec_xsBundleIssue ?_
    rw [State.xsIssue_cycle hact hpend, if_pos hidle, State.act_xs_modSt, xsTurn_xs, xsTurn_issCnt]
  · obtain ⟨hexec, hhalt, hpc, hslot, hcause, hraised, hxpc, hnb, hothers⟩ := State.xsIssue_bad hact hpend hidle hbad
    exact ⟨_, congrArg Host.Outcome.next hexec, hhalt, hpc, hslot, hcause, hraised, hxpc, hnb, hothers⟩

end Sys2Proof.Machine
end

section
/-! SUPPORT. Frames that the execute stream pops, pushes and frees, and the order in which results land (O17). -/

namespace Sys2Proof.Machine

open Sys2Proof

/-! ### A frame is popped (R77, R107) -/

/-- A pop is one change of its station: the head leaves, and the cut may count it. -/
theorem State.popped_eq (s : State) (n : StnId) (q : Fin 8) :
    ∃ c : Cut, c.nb = (s.st n).cut.nb ∧ s.popped n q = s.setSt n { (s.st n).pop q with cut := c } := by
  unfold State.popped
  dsimp only
  split
  · split
    · exact ⟨{ (s.st n).cut with nt := (s.st n).cut.nt + 1, due := true }, rfl, by rw [State.modSt_modSt, State.modSt_modSt]; rfl⟩
    · exact ⟨{ (s.st n).cut with nt := (s.st n).cut.nt + 1 }, rfl, by rw [State.modSt_modSt]; rfl⟩
  · exact ⟨(s.st n).cut, rfl, rfl⟩

/-- A queue whose head may be popped holds the frame at its head. -/
theorem Stn.head_of_headReady {x : Stn} {q : Fin 8} {u : Tile} (h : x.headReady q = some u) :
    ∃ e, (x.q[q.val]'q.isLt).head? = some e ∧ e.tile = u := by
  unfold Stn.headReady at h
  split at h
  · exact absurd h (by simp)
  · split at h
    · next e r hq =>
      refine ⟨e, by rw [hq]; rfl, ?_⟩
      split at h
      · exact Option.some.inj h
      · exact absurd h (by simp)
    · exact absurd h (by simp)

/-! ### c.pop, c.push and c.free -/

theorem doCtl_pop {n : StnId} {k : Nat} {w : Word} {y : Stn} {e : QEntry} (hop : (⟨5, w⟩ : XOp).op = 0x03)
    (he : (y.ctlQueue w).head? = some e) :
    doCtl y n k ⟨5, w⟩ = .ok (fun t => (t.popped n (⟨5, w⟩ : XOp).q).ctlPend n k (.frame (⟨5, w⟩ : XOp).td e.tile)) := by
  rw [doCtl, hop]
  show Except.ok (fun t : State => match (y.ctlQueue w).head? with
    | some e => (t.popped n (⟨5, w⟩ : XOp).q).ctlPend n k (.frame (⟨5, w⟩ : XOp).td e.tile)
    | none => t) = _
  rw [he]

theorem doCtl_push {n : StnId} {k : Nat} {w : Word} {y : Stn} {u : Tile} (hop : (⟨5, w⟩ : XOp).op = 0x04)
    (hu : y.ctlTile w = some u) :
    doCtl y n k ⟨5, w⟩ = .ok (fun t => t.modSt n (fun x => { x.push (⟨5, w⟩ : XOp).q ⟨u, .ready⟩ with
      xs := { x.xs with t := x.xs.t.set (⟨5, w⟩ : XOp).tb.val none } })) := by
  rw [doCtl, hop]
  show (match y.ctlTile w with
    | none => Except.error (Stop.rule none)
    | some u => .ok (fun t : State => t.modSt n (fun x => { x.push (⟨5, w⟩ : XOp).q ⟨u, .ready⟩ with
        xs := { x.xs with t := x.xs.t.set (⟨5, w⟩ : XOp).tb.val none } }))) = _
  rw [hu]

section
variable {s : State} {n : StnId} {pc len : Nat} {w : Word}

/-- What every bundle of one control op that goes on leaves. -/
def xsWent (s : State) (n : StnId) (next : Nat) (t : State) : Prop :=
  t = { s with stn := t.stn } ∧ stnsBut n s t ∧ (t.st n).xs.pc = next ∧ (t.st n).xs.ic = (s.st n).xs.ic + 1 ∧
  (t.st n).cut.nb = (s.st n).cut.nb + 1 ∧ (t.st n).as = (s.st n).as ∧ (t.st n).used = (s.st n).used

/-- A control op that makes station `z`, but for what every issue does. -/
theorem xsCtl.went {op : Nat} (h : xsCtl s n pc len w) (hop : (⟨5, w⟩ : XOp).op = op)
    (hfree : op ∉ [0x02, 0x0D, 0x0E, 0x0F, 0x12]) (hwait : (xsAt s n pc).bundleWait [⟨5, w⟩] = none) {f : State → State} {z : Stn}
    (hdo : doCtl (xsAt s n pc) n (s.st n).xs.ic ⟨5, w⟩ = .ok f) (hf : f (s.xsFound n pc) = s.setSt n z)
    (hic : z.xs.ic = (s.st n).xs.ic) (hnb : z.cut.nb = (s.st n).cut.nb) (has : z.as = (s.st n).as)
    (hused : z.used = (s.st n).used) {ql : Vector (List QEntry) 8} {pl : List Pend} {tl : Vector (Option Tile) 16}
    (hq : z.q = ql) (hpend : z.xs.pend = pl) (ht : z.xs.t = tl) :
    ∃ t, exec (.xsBundleIssue n) s = .next t ∧ xsWent s n (pc + len) t ∧ (t.st n).q = ql ∧
      (t.st n).xs.pend = pl ∧ (t.st n).xs.t = tl := by
  simp only [List.mem_cons, List.not_mem_nil, or_false, not_or] at hfree
  obtain ⟨h2, hjmp, hbeqz, hdbnz, hstep⟩ := hfree
  have hissue := h.issues (Or.inl (hop ▸ hstep)) hwait hdo hf
  rw [XOp.target_next _ _ _ hop (by simp [hjmp, hbeqz, hdbnz]), bundleCycles_one hop h2] at hissue
  refine ⟨_, congrArg Host.Outcome.next hissue, ⟨rfl, fun m hm => State.st_setSt_ne s _ hm, ?_⟩, ?_⟩ <;> rw [State.st_setSt_self]
  · exact ⟨rfl, congrArg (· + 1) hic, congrArg (· + 1) hnb, has, hused⟩
  · exact ⟨hq, hpend, ht⟩

theorem xsAt_q (s : State) (n : StnId) (pc : Nat) : (xsAt s n pc).q = (s.st n).q := by
  show (xsTurn s n).q = _
  simp [xsTurn_eq]

theorem xsAt_as (s : State) (n : StnId) (pc : Nat) : (xsAt s n pc).as = (s.st n).as := by
  show (xsTurn s n).as = _
  simp [xsTurn_eq]

theorem xsAt_used (s : State) (n : StnId) (pc : Nat) : (xsAt s n pc).used = (s.st n).used := by
  show (xsTurn s n).used = _
  simp [xsTurn_eq]

theorem xsAt_nb (s : State) (n : StnId) (pc : Nat) : (xsAt s n pc).cut.nb = (s.st n).cut.nb := by
  show (xsTurn s n).cut.nb = _
  rw [xsTurn_eq]
  exact ((s.st n).act_cut .xs).1

theorem Stn.withCtlQueue_congr {x y : Stn} (h : x.q = y.q) (w : Word) (f : List QEntry → List QEntry) :
    x.withCtlQueue w (f (x.ctlQueue w)) = y.withCtlQueue w (f (y.ctlQueue w)) :=
  congrArg (fun l : Vector (List QEntry) 8 =>
    l.set (⟨5, w⟩ : XOp).q.val (f (l[(⟨5, w⟩ : XOp).q.val]'(⟨5, w⟩ : XOp).q.isLt)) (⟨5, w⟩ : XOp).q.isLt) h

/-- The result of a control op, pending for the end of the next issue cycle. -/
def ctlResult (s : State) (n : StnId) (r : Result) : Pend := ⟨(s.st n).xs.ic + 1, (s.st n).xs.order, 5, r, 0, TH.zero, 0, 0⟩

theorem xsCtl.pop {u : Tile} (h : xsCtl s n pc len w) (hop : (⟨5, w⟩ : XOp).op = 0x03)
    (hhead : (xsTurn s n).headReady (⟨5, w⟩ : XOp).q = some u) :
    ∃ t, exec (.xsBundleIssue n) s = .next t ∧ xsWent s n (pc + len) t ∧
      (t.st n).q = (s.st n).withCtlQueue w ((s.st n).ctlQueue w).tail ∧
      (t.st n).xs.pend = [ctlResult s n (.frame (⟨5, w⟩ : XOp).td u)] ∧ (t.st n).xs.t = (s.st n).xs.t := by
  obtain ⟨e, he, rfl⟩ := Stn.head_of_headReady hhead
  obtain ⟨c, hnb, hpop⟩ := (s.xsFound n pc).popped_eq n (⟨5, w⟩ : XOp).q
  have hhead' : ((xsAt s n pc).ctlQueue w).head? = some e := he
  rw [State.st_xsFound] at hpop hnb
  refine h.went hop (by decide)
    (by rw [Stn.bundleWait_ctl, if_pos hop, Stn.headReady_xsAt, hhead]; rfl)
    (f := fun t => (t.popped n (⟨5, w⟩ : XOp).q).ctlPend n (s.st n).xs.ic (.frame (⟨5, w⟩ : XOp).td e.tile))
    (doCtl_pop hop hhead')
    ((congrArg (fun t => State.ctlPend t n _ _) hpop).trans ((State.setSt_modSt _ _ _ _).trans (State.setSt_setSt _ _ _ _)))
    rfl (hnb.trans (xsAt_nb s n pc)) (xsAt_as s n pc) (xsAt_used s n pc) ?_ (congrArg (· ++ [_]) h.pend) rfl
  exact Stn.withCtlQueue_congr (xsAt_q s n pc) w List.tail

theorem xsCtl.push {u : Tile} (h : xsCtl s n pc len w) (hop : (⟨5, w⟩ : XOp).op = 0x04)
    (hroom : (xsTurn s n).canPush (⟨5, w⟩ : XOp).q = true) (hsrc : (s.st n).ctlTile w = some u) :
    ∃ t, exec (.xsBundleIssue n) s = .next t ∧ xsWent s n (pc + len) t ∧
      (t.st n).q = (s.st n).withCtlQueue w ((s.st n).ctlQueue w ++ [⟨u, .ready⟩]) ∧
      (t.st n).xs.t = (s.st n).xs.t.set (⟨5, w⟩ : XOp).tb.val none ∧ (t.st n).xs.pend = [] := by
  have hsrc' : (xsAt s n pc).ctlTile w = some u := hsrc
  obtain ⟨t, hexec, hwent, hq, hpend, ht⟩ := h.went hop (by decide)
    (by simp [Stn.bundleWait_ctl, hop, Stn.canPush_xsAt, hroom])
    (f := fun t => t.modSt n (fun x => { x.push (⟨5, w⟩ : XOp).q ⟨u, .ready⟩ with
      xs := { x.xs with t := x.xs.t.set (⟨5, w⟩ : XOp).tb.val none } }))
    (doCtl_push hop hsrc')
    (State.setSt_modSt _ _ _ _) rfl (xsAt_nb s n pc) (xsAt_as s n pc) (xsAt_used s n pc) rfl h.pend rfl
  exact ⟨t, hexec, hwent, hq.trans (Stn.withCtlQueue_congr (xsAt_q s n pc) w (fun l => l ++ [(⟨u, .ready⟩ : QEntry)])), ht, hpend⟩

theorem xsCtl.free (h : xsCtl s n pc len w) (hop : (⟨5, w⟩ : XOp).op = 0x05) :
    ∃ t, exec (.xsBundleIssue n) s = .next t ∧ xsWent s n (pc + len) t ∧ (t.st n).q = (s.st n).q ∧
      (t.st n).xs.pend = [ctlResult s n (.empty (⟨5, w⟩ : XOp).td)] ∧ (t.st n).xs.t = (s.st n).xs.t := by
  exact h.went hop (by decide) (Stn.bundleWait_free _ hop (by decide))
    (f := fun t => t.ctlPend n (s.st n).xs.ic (.empty (⟨5, w⟩ : XOp).td)) (doCtl_leaves hop (by decide))
    (State.setSt_modSt _ _ _ _) rfl (xsAt_nb s n pc) (xsAt_as s n pc) (xsAt_used s n pc) (xsAt_q s n pc)
    (congrArg (· ++ [_]) h.pend) rfl

end

/-! ### Results land (R97, R99) -/

/-- The station when `p` lands, a result that takes no part in the running maximum. -/
def Stn.landed (x : Stn) (p : Pend) : Stn :=
  (({ x with xs := { x.xs with pend := x.xs.pend.erase p } } : Stn).landRes p.res).settleAcc p.res.accOf p.order

theorem State.numFlags_zero (s : State) (n : StnId) (th : TH) : s.numFlags n 0 th = s := by
  unfold State.numFlags
  exact foldl_inv (fun t => t = s) _ (fun t i ht => by simpa using ht) _ _ rfl

/-- The earliest result in the order of landing lands. -/
theorem exec_engineResultLand {s : State} {n : StnId} {p : Pend}
    (hfirst : (Pend.sort ((s.st n).xs.pend.filter (fun p => decide (p.land < (s.st n).xs.ic)))).head? = some p)
    (hruns : p.res.runs = false) (hflags : p.flags = 0) (hrecs : p.recs = 0) (hkept : p.kept = 0) :
    exec (.engineResultLand n) s = .next (s.setSt n ((s.st n).landed p)) := by
  have hexec : exec (.engineResultLand n) s = .next (match (Pend.sort ((s.st n).xs.pend.filter
      (fun p => decide (p.land < (s.st n).xs.ic)))).head? with
    | none => s
    | some p => (s.modSt n (fun x => { x with xs := { x.xs with pend := x.xs.pend.erase p } })).landOne n p) := rfl
  rw [hexec, hfirst]
  refine congrArg Host.Outcome.next ?_
  unfold State.landOne
  simp only [hruns, Bool.false_and, Bool.false_eq_true, if_false, hrecs, hkept, if_true, hflags, State.numFlags_zero,
    State.modSt_modSt]
  rfl

/-- An accumulator to which no pending result gives way. -/
theorem Stn.settleAcc_of_kept (x : Stn) {a : Option (Nat × Nat)} {o : Nat} (h : ∀ q ∈ x.xs.pend, q.supersede a o = q) :
    x.settleAcc a o = x := by
  have hmap : x.xs.pend.map (Pend.supersede a o) = x.xs.pend := (List.map_congr_left h).trans (List.map_id' _)
  rw [Stn.settleAcc, hmap]

/-! ### A frame or nothing lands in a T register -/

theorem Stn.xs_freeTile (x : Stn) (b : Option Nat) : (x.freeTile b).xs = x.xs := by rw [Stn.freeTile_shape]

theorem Stn.xs_replaceT (x : Stn) (d : Fin 16) (t : Option Tile) :
    (x.replaceT d t).xs = { x.xs with t := x.xs.t.set d.val t } := by
  unfold Stn.replaceT
  dsimp only
  rw [Stn.xs_freeTile]

/-- The frame that a T register takes from a result. -/
def Result.content : Result → Option Tile
  | .frame _ u => some u
  | _ => none

/-- The one pending result lands in the T register `d`. -/
theorem Stn.landed_frame {x : Stn} {p : Pend} {d : Fin 16} (hpend : x.xs.pend = [p])
    (hres : p.res = .empty d ∨ ∃ u, p.res = .frame d u) :
    x.landed p = ({ x with xs := { x.xs with pend := [] } } : Stn).replaceT d p.res.content := by
  have hset (y : Stn) (o : Nat) (h : y.xs.pend = []) : y.settleAcc none o = y :=
    y.settleAcc_of_kept (fun q hq => by rw [h] at hq; simp at hq)
  unfold Stn.landed
  rw [hpend, List.erase_cons_head]
  have hkeep (y : Stn) (u : Option Tile) (h : y.xs.pend = []) : (y.replaceT d u).xs.pend = [] :=
    (congrArg XsState.pend (y.xs_replaceT d u)).trans h
  rcases hres with hres | ⟨u, hres⟩ <;> rw [hres] <;> exact hset _ _ (hkeep _ _ rfl)

theorem Stn.used_freeTile_some {x : Stn} {i : Nat} (b : Nat) (hi : x.lay.tilePool = some i) :
    (x.freeTile (some b)).used = x.used.set i ((x.usedOf i).erase b) := by
  simp only [Stn.freeTile, hi, Stn.freeBlk]

theorem Stn.used_replaceT (x : Stn) {d : Fin 16} (t : Option Tile) {o : Option Tile} (h : x.xs.t[d.val] = o) :
    (x.replaceT d t).used = (x.freeTile (o.bind Tile.blk)).used := by
  subst h
  unfold Stn.replaceT
  cases x.xs.t[d.val] <;> rfl

/-- The block of the frame that a T register held is freed. -/
theorem Stn.used_replaceT_freed {x : Stn} {d : Fin 16} {t : Option Tile} {u : Tile} {b i : Nat}
    (hu : x.xs.t[d.val] = some u) (hb : u.blk = some b) (hi : x.lay.tilePool = some i) :
    (x.replaceT d t).used = x.used.set i ((x.usedOf i).erase b) := by
  rw [x.used_replaceT t hu, Option.bind_some, hb, Stn.used_freeTile_some b hi]

theorem Stn.used_replaceT_kept {x : Stn} {d : Fin 16} {t : Option Tile}
    (h : x.xs.t[d.val] = none ∨ ∃ u, x.xs.t[d.val] = some u ∧ u.blk = none) : (x.replaceT d t).used = x.used := by
  rcases h with hu | ⟨u, hu, hb⟩
  · exact x.used_replaceT t hu
  · rw [x.used_replaceT t hu, Option.bind_some, hb, Stn.freeTile]

/-- The one pending result, a frame or nothing, lands. -/
theorem State.land_frame {s : State} {n : StnId} {p : Pend} {d : Fin 16} (hpend : (s.st n).xs.pend = [p])
    (hres : p.res = .empty d ∨ ∃ u, p.res = .frame d u) (hland : p.land < (s.st n).xs.ic) (hflags : p.flags = 0)
    (hrecs : p.recs = 0) (hkept : p.kept = 0) :
    ∃ t, exec (.engineResultLand n) s = .next t ∧ t = { s with stn := t.stn } ∧ stnsBut n s t ∧
      t.st n = ({ s.st n with xs := { (s.st n).xs with pend := [] } } : Stn).replaceT d p.res.content := by
  have hdue : (Pend.sort ((s.st n).xs.pend.filter (fun p => decide (p.land < (s.st n).xs.ic)))).head? = some p := by
    rw [hpend]
    simp [hland, Pend.sort, Pend.insert]
  have hruns : p.res.runs = false := by rcases hres with hr | ⟨u, hr⟩ <;> rw [hr] <;> rfl
  refine ⟨_, exec_engineResultLand hdue hruns hflags hrecs hkept, rfl, fun m hm => State.st_setSt_ne s _ hm, ?_⟩
  rw [State.st_setSt_self, Stn.landed_frame hpend hres]

theorem Stn.t_landRes_frame (x : Stn) (d : Fin 16) (u : Tile) (a : Option (Nat × Nat)) (o : Nat) :
    ((x.landRes (.frame d u)).settleAcc a o).xs.t[d.val] = some u := by
  have hset : ((x.replaceT d (some u)).xs).t[d.val]'d.isLt = some u := by
    rw [Stn.xs_replaceT]
    exact Vector.getElem_set_self _
  exact hset

/-! ### Two results land in order -/

/-- `p` lands before `q`: issue cycle, then order of issue, then slot (R99). -/
def Pend.before (p q : Pend) : Prop :=
  p.land < q.land ∨ (p.land = q.land ∧ (p.order < q.order ∨ (p.order = q.order ∧ p.slot < q.slot)))

theorem Pend.before.le {p q : Pend} (h : p.before q) : p.le q = true ∧ q.le p = false := by
  rcases h with hland | ⟨hland, horder | ⟨horder, hslot⟩⟩
  · simp [Pend.le, hland, hland.ne', hland.not_gt]
  · simp [Pend.le, hland, horder, horder.ne', horder.not_gt]
  · simp [Pend.le, hland, horder, hslot, hslot.le]

theorem Pend.before.ne {p q : Pend} (h : p.before q) : p ≠ q := by
  rintro rfl
  rcases h with h | ⟨-, h | ⟨-, h⟩⟩ <;> exact lt_irrefl _ h

/-- Of two pending results the earlier one is first in the order of landing. -/
theorem Pend.head_sort {p q : Pend} (h : p.before q) {l : List Pend} (hl : l = [p, q] ∨ l = [q, p]) :
    (Pend.sort l).head? = some p ∧ l.erase p = [q] := by
  obtain ⟨hpq, hqp⟩ := h.le
  rcases hl with rfl | rfl
  · simp [Pend.sort, Pend.insert, hpq]
  · refine ⟨by simp [Pend.sort, Pend.insert, hqp], ?_⟩
    rw [List.erase_cons_tail (by simpa using h.ne.symm), List.erase_cons_head]

/-- The results of one register, and those of ops that overtake no accumulator, do not give way to one another. -/
theorem Pend.supersede_of_le {a : Option (Nat × Nat)} {o : Nat} {q : Pend} (h : a = none ∨ o ≤ q.order) :
    q.supersede a o = q := by
  unfold Pend.supersede
  rcases h with rfl | h
  · rfl
  · rw [decide_eq_false (Nat.not_lt.mpr h), Bool.and_false, if_neg (by simp)]

/-- A result that goes to a register leaves the other pending results and the count of issue cycles. -/
theorem Stn.landRes_keeps (x : Stn) {r : Result} (h : (∃ d v, r = .x d v) ∨ (∃ i a, r = .acc i a) ∨ (∃ i a, r = .ea i a) ∨
    ∃ d f, r = .frame d f) : (x.landRes r).xs.pend = x.xs.pend ∧ (x.landRes r).xs.ic = x.xs.ic := by
  rcases h with ⟨d, v, rfl⟩ | ⟨i, a, rfl⟩ | ⟨i, a, rfl⟩ | ⟨d, f, rfl⟩
  · exact ⟨rfl, rfl⟩
  · exact ⟨rfl, rfl⟩
  · exact ⟨rfl, rfl⟩
  · show (x.replaceT d (some f)).xs.pend = _ ∧ (x.replaceT d (some f)).xs.ic = _
    rw [Stn.xs_replaceT]
    exact ⟨rfl, rfl⟩

section
variable {s : State} {n : StnId} {p q : Pend}

/-- Two results land, `p` first, where `q` does not give way: `p` in its register, then `q` in its own. -/
theorem State.land_two (hpend : (s.st n).xs.pend = [p, q] ∨ (s.st n).xs.pend = [q, p]) (hp : p.land < (s.st n).xs.ic)
    (hq : q.land < (s.st n).xs.ic) (hflags : p.flags = 0 ∧ q.flags = 0) (hrecs : p.recs = 0 ∧ q.recs = 0)
    (hkept : p.kept = 0 ∧ q.kept = 0) (h : p.before q) {t u : State} (ht : exec (.engineResultLand n) s = .next t)
    (hu : exec (.engineResultLand n) t = .next u)
    (hresp : (∃ d v, p.res = .x d v) ∨ (∃ i a, p.res = .acc i a) ∨ (∃ i a, p.res = .ea i a) ∨ ∃ d f, p.res = .frame d f)
    (hrunsq : q.res.runs = false) (hkeep : q.supersede p.res.accOf p.order = q) :
    ∃ y : Stn, u.st n = (y.landRes q.res).settleAcc q.res.accOf q.order := by
  have hrunsp : p.res.runs = false := by
    rcases hresp with ⟨d, v, hr⟩ | ⟨i, a, hr⟩ | ⟨i, a, hr⟩ | ⟨d, f, hr⟩ <;> rw [hr] <;> rfl
  obtain ⟨hfirst, herase⟩ := Pend.head_sort h hpend
  have hall : (s.st n).xs.pend.filter (fun p => decide (p.land < (s.st n).xs.ic)) = (s.st n).xs.pend := by
    rcases hpend with hl | hl <;> simp [hl, hp, hq]
  have hlanded : ((s.st n).landed p).xs.pend = [q] ∧ ((s.st n).landed p).xs.ic = (s.st n).xs.ic := by
    obtain ⟨hkpend, hkic⟩ := Stn.landRes_keeps ({ s.st n with xs := { (s.st n).xs with pend := (s.st n).xs.pend.erase p } } : Stn) hresp
    exact ⟨by rw [Stn.landed, Stn.settleAcc, hkpend, herase, List.map_cons, hkeep]; rfl, hkic⟩
  have ht' : (t.st n) = (s.st n).landed p := by
    have hexec := exec_engineResultLand (by rw [hall]; exact hfirst) hrunsp hflags.1 hrecs.1 hkept.1
    rw [← Host.Outcome.next.inj (hexec.symm.trans ht), State.st_setSt_self]
  rw [← ht'] at hlanded
  obtain ⟨hpend', hic'⟩ := hlanded
  have hdue : (Pend.sort ((t.st n).xs.pend.filter (fun p => decide (p.land < (t.st n).xs.ic)))).head? = some q := by
    rw [hpend', hic']
    simp [hq, Pend.sort, Pend.insert]
  have hexec := exec_engineResultLand hdue hrunsq hflags.2 hrecs.2 hkept.2
  rw [← Host.Outcome.next.inj (hexec.symm.trans hu), State.st_setSt_self]
  exact ⟨_, rfl⟩

end

/-! ### The statement -/

/-- Settles O17: a frame goes from its queue into a pending result (`xsCtl.pop`), from a register into a queue
(`xsCtl.push`) or out (`xsCtl.free`); a result lands in its T register (`Stn.landed_frame`), and of two the later one
(`State.land_two`). -/
theorem popPushFreeAndLandingOrder : Obligations.PopPushFreeAndLandingOrder := by
  unfold Obligations.PopPushFreeAndLandingOrder
  intro s n
  refine ⟨fun pc len w hact hidle hpend hfetch => ?_, fun p r d hpend hr hres hland hflags hrecs hkept => ?_,
    fun p q hpend hp hq hfp hfq hrp hrq hkp hkq horder => ?_⟩
  · have h : xsCtl s n pc len w := ⟨hact, hpend, hidle, hfetch⟩
    refine ⟨fun u hop hhead => ?_, fun u hop hroom hsrc => ?_, fun hop => ?_⟩
    · exact h.pop hop hhead
    · obtain ⟨t, hexec, hwent, hq, ht, hres⟩ := h.push hop hroom hsrc
      exact ⟨t, hexec, hwent, hq, ht, hres⟩
    · exact h.free hop
  · subst hr
    obtain ⟨t, hexec, hframe, hothers, ht⟩ := State.land_frame hpend hres hland hflags hrecs hkept
    refine ⟨t, hexec, hframe, hothers, ?_⟩
    rw [ht, Stn.xs_replaceT]
    exact ⟨rfl, rfl, fun u b i hu hb hi => Stn.used_replaceT_freed hu hb hi, fun hnone => Stn.used_replaceT_kept hnone⟩
  · have hnext (v : State) : ∃ t, exec (.engineResultLand n) v = .next t := ⟨_, rfl⟩
    obtain ⟨t, ht⟩ := hnext s
    obtain ⟨u, hu⟩ := hnext t
    have hland := State.land_two hpend hp hq ⟨hfp, hfq⟩ ⟨hrp, hrq⟩ ⟨hkp, hkq⟩ horder ht hu
    refine ⟨t, u, ht, hu, fun d v v' hpr hqr => ?_, fun hle i a a' hpr hqr => ?_, fun hle i a a' hpr hqr => ?_,
      fun d f f' hpr hqr => ?_⟩
    · obtain ⟨y, hy⟩ := hland (Or.inl ⟨d, v, hpr⟩) (by rw [hqr]; rfl) (Pend.supersede_of_le (Or.inl (by rw [hpr]; rfl)))
      rw [hy, hqr]
      exact Vector.getElem_set_self _
    · obtain ⟨y, hy⟩ := hland (Or.inr (Or.inl ⟨i, a, hpr⟩)) (by rw [hqr]; rfl) (Pend.supersede_of_le (Or.inr hle))
      rw [hy, hqr]
      exact Vector.getElem_set_self _
    · obtain ⟨y, hy⟩ := hland (Or.inr (Or.inr (Or.inl ⟨i, a, hpr⟩))) (by rw [hqr]; rfl) (Pend.supersede_of_le (Or.inr hle))
      rw [hy, hqr]
      exact Vector.getElem_set_self _
    · obtain ⟨y, hy⟩ := hland (Or.inr (Or.inr (Or.inr ⟨d, f, hpr⟩))) (by rw [hqr]; rfl)
        (Pend.supersede_of_le (Or.inl (by rw [hpr]; rfl)))
      rw [hy, hqr]
      exact Stn.t_landRes_frame y d f' none q.order

end Sys2Proof.Machine
end

section
/-! SUPPORT. The memories of a station program: what it reads and writes of DRAM and of its Vitrine (O8, O10, O11, O39). -/

namespace Sys2Proof.Machine

open Sys2Proof

/-! ### Runs of bytes -/

@[simp] theorem Cells.read_length {α : Type} (d : Nat → α) (m : Cells α) (k len : Nat) : (Cells.read d m k len).length = len := by
  induction len generalizing k with
  | zero => rfl
  | succ len ih => rw [Cells.read, List.length_cons, ih]

theorem Cells.nth_read {α : Type} (d : Nat → α) (m : Cells α) (k : Nat) {len i : Nat} (x : α) (h : i < len) :
    nth (Cells.read d m k len) i x = Cells.get d m (k + i) := by
  induction len generalizing k i with
  | zero => lia
  | succ len ih =>
    cases i with
    | zero => rfl
    | succ i =>
      have hstep : nth (Cells.read d m (k + 1) len) i x = Cells.get d m (k + 1 + i) := ih _ (by lia)
      rw [show k + (i + 1) = k + 1 + i by lia, ← hstep]
      rfl

theorem Cells.take_read {α : Type} (d : Nat → α) (m : Cells α) (k : Nat) {len i : Nat} (h : i ≤ len) :
    (Cells.read d m k len).take i = Cells.read d m k i := by
  induction i generalizing k len with
  | zero => rfl
  | succ i ih =>
    cases len with
    | zero => lia
    | succ len => rw [Cells.read, Cells.read, List.take_succ_cons, ih _ (by lia)]

/-! ### Reads of good words -/

/-- The words that a read of a station program touches are good. -/
def memClean (s : State) (n : StnId) (g : DWord) (len : Nat) : Prop :=
  if addrSpace g = 0 then dramClean s (addrOff g) len else vitClean s n (addrOff g) len

/-- The bytes that a station program reads. -/
def State.memBytes (s : State) (n : StnId) (g : DWord) (len : Nat) : List Byte :=
  Cells.read zeroByte (if addrSpace g = 0 then s.dram else (s.st n).vit) (addrOff g) len

theorem State.dramRead_bytes {s : State} {o len : Nat} {u : MemUser} (h : dramClean s o len) :
    s.dramRead o len u = ({ s with stk := (s.request o len u).stk }, some (Cells.read zeroByte s.dram o len)) := by
  obtain ⟨hfst, hsome⟩ := State.dramRead_clean (u := u) h
  refine Prod.ext hfst ?_
  have hdram : (s.dramRead o len u).1.dram = s.dram := by rw [hfst]
  unfold State.dramRead at hsome hdram ⊢
  simp only at hsome hdram ⊢
  split at hsome
  · next hok => rw [if_pos hok, hdram]
  · exact absurd hsome (by simp)

theorem State.vitRead_bytes {s : State} {n : StnId} {o len : Nat} (h : vitClean s n o len) :
    s.vitRead n o len = (s, some ((s.st n).vitBytes o len)) := by
  rw [State.vitRead, State.vitCheck_clean h]
  rfl

/-- A read of good words gives the bytes as they stand, and no more than a request waits at the stacks. -/
theorem State.memRead_clean {s : State} {n : StnId} {g : DWord} {len : Nat} (h : memClean s n g len) :
    ∃ k, s.memRead n g len = ({ s with stk := k }, some (s.memBytes n g len)) := by
  unfold memClean at h
  unfold State.memRead State.memBytes
  split at h
  · next hd => exact ⟨_, by rw [if_pos hd, if_pos hd, State.dramRead_bytes h]⟩
  · next hd => exact ⟨s.stk, by rw [if_neg hd, if_neg hd, State.vitRead_bytes h]; rfl⟩

/-! ### Writes -/

/-- A write of whole words touches DRAM, its check bits and the stacks. -/
theorem State.dramPutWords_eq (s : State) (o : Nat) (bs : List Byte) :
    s.dramPutWords o bs = { s with
      dram := Cells.write zeroByte s.dram o bs, dramBad := (s.dramPutWords o bs).dramBad, stk := (s.dramPutWords o bs).stk } := by
  unfold State.dramPutWords
  refine foldl_inv (fun t : State => t = { s with
    dram := Cells.write zeroByte s.dram o bs, dramBad := t.dramBad, stk := t.stk }) _ (fun t w ht => ?_) _ _ rfl
  split
  · exact ht
  · unfold State.setBad
    rw [ht]

theorem State.dramWriteWords_eq (s : State) (o : Nat) (bs : List Byte) (u : MemUser) :
    s.dramWriteWords o bs u = { s with
      dram := Cells.write zeroByte s.dram o bs, dramBad := (s.dramWriteWords o bs u).dramBad,
      stk := (s.dramWriteWords o bs u).stk } := by
  unfold State.dramWriteWords
  rw [State.dramPutWords_eq, s.request_frame]

/-- What a write of a station program leaves as it was. -/
theorem State.memWrite_frame (s : State) (n : StnId) (g : DWord) (bs : List Byte) :
    s.memWrite n g bs = { s with
      dram := (s.memWrite n g bs).dram, dramBad := (s.memWrite n g bs).dramBad, stk := (s.memWrite n g bs).stk,
      stn := (s.memWrite n g bs).stn } := by
  unfold State.memWrite
  split
  · rw [State.dramWriteWords_eq]
  · rfl

theorem State.st_memWrite (s : State) (n : StnId) (g : DWord) (bs : List Byte) (m : StnId) :
    (s.memWrite n g bs).st m = if m = n ∧ addrSpace g ≠ 0 then (s.st m).vitPut (addrOff g) bs else s.st m := by
  unfold State.memWrite
  split
  · next h =>
    rw [if_neg (by simp [h]), State.dramWriteWords_eq]
    rfl
  · next h =>
    by_cases hm : m = n
    · subst hm
      rw [if_pos ⟨rfl, h⟩, State.vitWrite, State.st_modSt_self]
    · rw [if_neg (fun hc => hm hc.1), State.vitWrite, State.st_modSt_ne s _ hm]

theorem State.dramByte_memWrite (s : State) (n : StnId) (g : DWord) (bs : List Byte) (a : Nat) :
    dramByte (s.memWrite n g bs) a =
      if addrSpace g = 0 ∧ addrOff g ≤ a ∧ a < addrOff g + bs.length then nth bs (a - addrOff g) 0 else dramByte s a := by
  unfold State.memWrite dramByte
  split
  · next h =>
    rw [State.dramWriteWords_eq, Cells.get_write_nth _ _ _ _ _ 0]
    simp only [h, true_and]
  · next h =>
    rw [if_neg (fun hc => h hc.1)]
    rfl

theorem Stn.vitByte_vitPut (x : Stn) (o : Nat) (bs : List Byte) (a : Nat) :
    Cells.get zeroByte (x.vitPut o bs).vit a =
      if o ≤ a ∧ a < o + bs.length then nth bs (a - o) 0 else Cells.get zeroByte x.vit a :=
  Cells.get_write_nth _ _ _ _ _ 0

theorem State.vitByte_memWrite (s : State) (n : StnId) (g : DWord) (bs : List Byte) (m : StnId) (a : Nat) :
    vitByte (s.memWrite n g bs) m a =
      if m = n ∧ addrSpace g ≠ 0 ∧ addrOff g ≤ a ∧ a < addrOff g + bs.length then nth bs (a - addrOff g) 0
      else vitByte s m a := by
  unfold vitByte
  rw [State.st_memWrite]
  by_cases h : m = n ∧ addrSpace g ≠ 0
  · rw [if_pos h, Stn.vitByte_vitPut]
    simp only [h.1, h.2, ne_eq, not_false_eq_true, true_and]
  · rw [if_neg h, if_neg (fun hc => h ⟨hc.1, hc.2.1⟩)]

end Sys2Proof.Machine
end

section
/-! SUPPORT. Copies of the access stream (O11). -/

namespace Sys2Proof.Machine

open Sys2Proof

/-! ### bcopy -/

theorem asTurn_addrOk (s : State) (n : StnId) (g : DWord) (len : Nat) : (asTurn s n).addrOk g len = (s.st n).addrOk g len := by
  simp [Stn.addrOk, Stn.rangeOk, asTurn_eq]

@[simp] theorem asTurn_bcopies (s : State) (n : StnId) : (asTurn s n).bcopies = (s.st n).bcopies := by simp [asTurn_eq]

section
variable {s : State} {n : StnId} {w : Word}

/-- The length that a bcopy names. -/
def copyLen (s : State) (n : StnId) (w : Word) : Nat := (asReg s n (asGT w)).toNat % 2 ^ 32

theorem exec_asBcopy (h : asAt s n w 0x18) (hlen : copyLen s n w % 64 = 0)
    (hdst : (s.st n).addrOk (asReg s n (asGD w)) (copyLen s n w) = true)
    (hsrc : (s.st n).addrOk (asReg s n (asGS w)) (copyLen s n w) = true) :
    exec (.asBcopy n) s = .next (
      if copyLen s n w = 0 then ((s.act n .as).modSt n (fun y => y.setFlag (asFL w) true)).asRetire n
      else if 4 ≤ ((s.st n).bcopies.filter (fun b => b.live)).length then (s.act n .as).asWait n .bcopySlot 0
      else ((s.act n .as).modSt n (fun y => { y.setFlag (asFL w) false with
        bcopies := y.bcopies ++ [⟨asReg s n (asGS w), asReg s n (asGD w), copyLen s n w, asFL w, true⟩] })).asRetire n) := by
  unfold copyLen at hlen hdst hsrc ⊢
  refine congrArg Host.Outcome.next ((State.asIssue_at h _).trans ?_)
  simp only [State.st_act_as, asTurn_as, asTurn_addrOk, asTurn_bcopies, hlen, hdst, hsrc, bne_self_eq_false, Bool.not_true,
    Bool.or_false, Bool.false_eq_true, if_false]

/-! ### The completion of a copy (R86) -/

/-- The end of a copy, after its read: the copy is no longer outstanding and its bytes are written. -/
def State.copyEnd (s : State) (n : StnId) (k : Nat) (b : Bcopy) (q : Vector Stk 8) : State :=
  (({ s with stk := q } : State).modSt n (fun x => { x with bcopies := x.bcopies.eraseIdx k })).memWrite n b.dst
    (s.memBytes n b.src b.len)

/-- A copy whose words are good writes its bytes and sets its flag. -/
theorem State.bcopyDone_clean {k : Nat} {b : Bcopy} (hk : (s.st n).bcopies[k]? = some b) (hclean : memClean s n b.src b.len) :
    ∃ q, s.bcopyDone n k =
      if b.live then (s.copyEnd n k b q).modSt n (fun x => x.setFlag b.fl true) else s.copyEnd n k b q := by
  obtain ⟨q, hread⟩ := State.memRead_clean hclean
  refine ⟨q, ?_⟩
  unfold State.bcopyDone
  rw [hk]
  dsimp only
  rw [hread]
  rfl

theorem State.length_memBytes (s : State) (n : StnId) (g : DWord) (len : Nat) : (s.memBytes n g len).length = len :=
  Cells.read_length _ _ _ _

theorem State.nth_memBytes (s : State) (n : StnId) (g : DWord) {len i : Nat} (h : i < len) :
    nth (s.memBytes n g len) i 0 = if addrSpace g = 0 then dramByte s (i + addrOff g) else vitByte s n (i + addrOff g) := by
  rw [State.memBytes, Cells.nth_read _ _ _ _ h, Nat.add_comm]
  split <;> rfl

/-- What the end of a copy leaves of its station. -/
theorem State.st_copyEnd (s : State) (n : StnId) (k : Nat) (b : Bcopy) (q : Vector Stk 8) :
    ((s.copyEnd n k b q).st n).bcopies = (s.st n).bcopies.eraseIdx k ∧ ((s.copyEnd n k b q).st n).as = (s.st n).as ∧
    ((s.copyEnd n k b q).st n).flags = (s.st n).flags ∧ ((s.copyEnd n k b q).st n).cyc = (s.st n).cyc := by
  have hself : (({ s with stk := q } : State).modSt n (fun x => { x with bcopies := x.bcopies.eraseIdx k })).st n =
      { s.st n with bcopies := (s.st n).bcopies.eraseIdx k } := State.st_modSt_self _ _ _
  rw [State.copyEnd, State.st_memWrite, hself]
  split <;> exact ⟨rfl, rfl, rfl, rfl⟩

theorem stnsBut.copyEnd (s : State) (n : StnId) (k : Nat) (b : Bcopy) (q : Vector Stk 8) :
    stnsBut n s (s.copyEnd n k b q) := by
  intro m hm
  rw [State.copyEnd, State.st_memWrite, if_neg (fun hc => hm hc.1), State.st_modSt_ne _ _ hm]
  rfl

theorem State.dramByte_copyEnd (s : State) (n : StnId) (k : Nat) (b : Bcopy) (q : Vector Stk 8) (a : Nat) :
    dramByte (s.copyEnd n k b q) a =
      if addrSpace b.dst = 0 ∧ addrOff b.dst ≤ a ∧ a < addrOff b.dst + b.len then
        (if addrSpace b.src = 0 then dramByte s (a - addrOff b.dst + addrOff b.src)
          else vitByte s n (a - addrOff b.dst + addrOff b.src))
      else dramByte s a := by
  rw [State.copyEnd, State.dramByte_memWrite, State.length_memBytes]
  split
  · next h => rw [State.nth_memBytes _ _ _ (Nat.sub_lt_left_of_lt_add h.2.1 h.2.2)]
  · rfl

theorem State.vitByte_copyEnd (s : State) (n : StnId) (k : Nat) (b : Bcopy) (q : Vector Stk 8) (m : StnId) (a : Nat) :
    vitByte (s.copyEnd n k b q) m a =
      if m = n ∧ addrSpace b.dst ≠ 0 ∧ addrOff b.dst ≤ a ∧ a < addrOff b.dst + b.len then
        (if addrSpace b.src = 0 then dramByte s (a - addrOff b.dst + addrOff b.src)
          else vitByte s n (a - addrOff b.dst + addrOff b.src))
      else vitByte s m a := by
  rw [State.copyEnd, State.vitByte_memWrite, State.length_memBytes]
  split
  · next h => rw [State.nth_memBytes _ _ _ (Nat.sub_lt_left_of_lt_add h.2.2.1 h.2.2.2)]
  · by_cases hm : m = n
    · subst hm
      rw [vitByte, State.st_modSt_self]
      rfl
    · rw [vitByte, State.st_modSt_ne _ _ hm]
      rfl

/-- The flag of a copy, after it is set. -/
theorem Stn.bitOf_setFlag_true_all (x : Stn) (g : Fin 32) {f : Nat} (hf : f < 32) :
    bitOf (x.setFlag g true).flags f = if f = g.val ∧ x.cyc.start = false then true else bitOf x.flags f := by
  by_cases h : f = g.val
  · subst h
    rw [Stn.bitOf_setFlag_true]
    cases x.cyc.start <;> simp
  · rw [Stn.bitOf_setFlag_ne _ _ _ hf h, if_neg (fun hc => h hc.1)]

end

/-! ### The statement -/

/-- Settles O11: a copy starts, waits or is done at once (`exec_asBcopy`), and one that completes writes the bytes that its
source holds (`State.bcopyDone_clean`). -/
theorem accessCopies : Obligations.AccessCopies := by
  unfold Obligations.AccessCopies
  intro s n w
  refine ⟨fun h hlen hdst hsrc hne hlive => ?_, fun h hlen hdst hsrc => ?_, fun h hlen hdst hsrc hne hlive => ?_,
    fun k b hk hdram hvit => ?_⟩
  · have hexec := exec_asBcopy h hlen hdst hsrc
    rw [if_neg (show copyLen s n w ≠ 0 from hne), if_neg (Nat.not_le.mpr hlive), State.asRetire_modSt s n _ (by
      rw [Stn.setFlag_eq]; exact congrArg AsState.pc (asTurn_as s n))] at hexec
    refine ⟨_, hexec, ?_⟩
    rw [State.st_setSt_self]
    refine ⟨?_, fun hset => ?_, rfl, ?_, fun m hm => State.st_setSt_ne s _ hm, rfl⟩
    · show (asTurn s n).bcopies ++ _ = _
      rw [asTurn_bcopies]
      rfl
    · show bitOf ((asTurn s n).setFlag (asFL w) false).flags (asFL w).val = false
      rw [Stn.bitOf_setFlag_false, hset, Bool.and_false]
    · show (asTurn s n).vit = _
      simp [asTurn_eq]
  · have hzero : copyLen s n w = 0 := hlen
    have hexec := exec_asBcopy h (by rw [hzero]) (by rw [hzero]; exact hdst) (by rw [hzero]; exact hsrc)
    rw [if_pos hzero, State.asRetire_modSt s n _ (by
      rw [Stn.setFlag_eq]; exact congrArg AsState.pc (asTurn_as s n))] at hexec
    refine ⟨_, hexec, ?_⟩
    rw [State.st_setSt_self]
    refine ⟨asTurn_bcopies s n, fun hstart => ?_, rfl⟩
    show bitOf ((asTurn s n).setFlag (asFL w) true).flags (asFL w).val = true
    rw [Stn.bitOf_setFlag_true, hstart, Bool.not_false, Bool.or_true]
  · have hexec := exec_asBcopy h hlen hdst hsrc
    rw [if_neg (show copyLen s n w ≠ 0 from hne), if_pos hlive] at hexec
    exact ⟨_, hexec, asWaits_wait s n _ _⟩
  · have hclean : memClean s n b.src b.len := by
      unfold memClean
      split
      · next hd => exact hdram hd
      · next hd => exact hvit hd
    obtain ⟨q, hdone⟩ := State.bcopyDone_clean hk hclean
    obtain ⟨hcopies, has, hflags, hcyc⟩ := s.st_copyEnd n k b q
    cases hlive : b.live
    · rw [hlive, if_neg Bool.false_ne_true] at hdone
      refine ⟨s.copyEnd n k b q, congrArg Host.Outcome.next hdone, hcopies, s.dramByte_copyEnd n k b q,
        s.vitByte_copyEnd n k b q, fun f _ => ?_, has, stnsBut.copyEnd s n k b q⟩
      rw [hflags, if_neg (by simp)]
    · rw [hlive, if_pos rfl] at hdone
      refine ⟨(s.copyEnd n k b q).modSt n (fun x => x.setFlag b.fl true), congrArg Host.Outcome.next hdone, ?_,
        s.dramByte_copyEnd n k b q, fun m a => ?_, fun f hf => ?_, ?_,
        fun m hm => (State.st_modSt_ne _ _ hm).trans (stnsBut.copyEnd s n k b q m hm)⟩
      · rw [State.st_modSt_self, Stn.setFlag_eq]
        exact hcopies
      · rw [← s.vitByte_copyEnd n k b q]
        by_cases hm : m = n
        · subst hm
          rw [vitByte, State.st_modSt_self, Stn.setFlag_eq]
          rfl
        · rw [vitByte, State.st_modSt_ne _ _ hm]
          rfl
      · rw [State.st_modSt_self, Stn.bitOf_setFlag_true_all _ _ hf, hflags, hcyc]
        simp
      · rw [State.st_modSt_self, Stn.setFlag_eq]
        exact has

end Sys2Proof.Machine
end

section
/-! SUPPORT. Frames that the access stream drops or stores (O8). -/

namespace Sys2Proof.Machine

open Sys2Proof

/-! ### The frame at the head of QA -/

@[simp] theorem asTurn_vit (s : State) (n : StnId) : (asTurn s n).vit = (s.st n).vit := by simp [asTurn_eq]

@[simp] theorem asTurn_lay (s : State) (n : StnId) : (asTurn s n).lay = (s.st n).lay := by simp [asTurn_eq]

@[simp] theorem asTurn_q (s : State) (n : StnId) : (asTurn s n).q = (s.st n).q := by simp [asTurn_eq]

@[simp] theorem asTurn_used (s : State) (n : StnId) : (asTurn s n).used = (s.st n).used := by simp [asTurn_eq]

section
variable {s : State} {n : StnId} {w : Word} {f : Tile}

theorem State.asPop_some {k : Tile → State} (h : (asTurn s n).asPopHead s.ht (asQA w) = some f) :
    (s.act n .as).asPop n w k = k f := by
  unfold State.asPop
  rw [State.st_act_as, show (s.act n .as).ht = s.ht from rfl, h]

theorem State.asPop_none {k : Tile → State} (h : (asTurn s n).asPopHead s.ht (asQA w) = none) :
    (s.act n .as).asPop n w k = (s.act n .as).asWait n .queueEmpty (asQA w).val := by
  unfold State.asPop
  rw [State.st_act_as, show (s.act n .as).ht = s.ht from rfl, h]

/-- A turn leaves the words of the Vitrine. -/
theorem vitClean.act {o len : Nat} (h : vitClean s n o len) : vitClean (s.act n .as) n o len := by
  intro v hv
  rw [State.st_act_as, Stn.vitBadAt, Stn.badIn, if_pos rfl, asTurn_eq, (Stn.act_frame _ _).2.2.2.2.2.2.2.1]
  exact h v hv

/-- A frame whose block is good is read, and nothing changes. -/
theorem State.goodBlock_clean {k : List Byte → State → State}
    (h : ∀ b, f.blk = some b → vitClean s n ((s.st n).lay.blkAddr b) f.th.bodyLen) :
    s.goodBlock n f k = k ((s.st n).body f) s := by
  unfold State.goodBlock Stn.body
  cases hb : f.blk with
  | none => rfl
  | some b => dsimp only; rw [State.vitRead_bytes (h b hb)]

/-! ### The pop of the access stream -/

/-- The station whose frame at the head of `q` is popped and whose block `blk` is freed. -/
def Stn.tookHead (x : Stn) (q : Fin 8) (c : Cut) : Stn := { x.pop q with cut := c }

theorem State.popped_act (s : State) (n : StnId) (q : Fin 8) :
    ∃ c : Cut, (s.act n .as).popped n q = s.setSt n ((asTurn s n).tookHead q c) := by
  obtain ⟨c, -, h⟩ := (s.act n .as).popped_eq n q
  refine ⟨c, h.trans ?_⟩
  rw [State.act, State.modSt, State.setSt_setSt]
  rfl

theorem Stn.tookHead_q (x : Stn) (q : Fin 8) (c : Cut) :
    (x.tookHead q c).q[q.val]'q.isLt = (x.q[q.val]'q.isLt).tail ∧
      ∀ p : Fin 8, p ≠ q → (x.tookHead q c).q[p.val]'p.isLt = x.q[p.val]'p.isLt := by
  refine ⟨Vector.getElem_set_self _, fun p hp => ?_⟩
  have hne : q.val ≠ p.val := fun h => hp (Fin.ext h.symm)
  exact Vector.getElem_set_ne q.isLt p.isLt hne

/-! ### tdrop -/

theorem exec_asTdrop (h : asAt s n w 0x16) :
    exec (.asTdrop n) s = .next ((s.act n .as).asPop n w (fun t =>
      (((s.act n .as).popped n (asQA w)).freeTile n t.blk).asRetire n)) :=
  congrArg Host.Outcome.next (State.asIssue_at h _)

/-- The blocks in use after a frame's is freed. -/
theorem Stn.used_freeTile_congr {x y : Stn} (hlay : x.lay = y.lay) (hused : x.used = y.used) (b : Option Nat) :
    (x.freeTile b).used = (y.freeTile b).used := by
  unfold Stn.freeTile Stn.freeBlk Stn.usedOf
  cases b with
  | none => exact hused
  | some b => rw [hlay]; cases y.lay.tilePool <;> simp [hused]

/-- A frame's block is freed and the stream goes on. -/
theorem State.freeTile_asRetire (v : State) (n : StnId) (b : Option Nat) :
    (v.freeTile n b).asRetire n = v.modSt n (fun x => (x.freeTile b).asGo ((v.st n).as.pc + 1)) := by
  have has : ((v.st n).freeTile b).as = (v.st n).as := by rw [Stn.freeTile_shape]
  rw [State.asRetire_eq, State.freeTile, State.st_modSt_self, has, State.modSt_modSt]

/-- What freeing a block and going on leaves of a station. -/
theorem Stn.freeTile_asGo (x : Stn) (b : Option Nat) (pc : Nat) :
    ((x.freeTile b).asGo pc).q = x.q ∧ ((x.freeTile b).asGo pc).as.pc = pc ∧ ((x.freeTile b).asGo pc).as.g = x.as.g ∧
    ((x.freeTile b).asGo pc).vit = x.vit := by
  rw [Stn.freeTile_shape]
  exact ⟨rfl, rfl, rfl, rfl⟩

/-! ### tst and tstp -/

theorem exec_asTst (h : asAt s n w 0x12) (hpop : (asTurn s n).asPopHead s.ht (asQA w) = some f)
    (hclean : ∀ b, f.blk = some b → vitClean s n ((s.st n).lay.blkAddr b) f.th.bodyLen)
    (hok : (s.st n).addrOk (asReg s n (asGD w)) (64 + f.th.bodyLen) = true) :
    exec (.asTst n) s = .next (((((s.act n .as).popped n (asQA w)).memWrite n (asReg s n (asGD w))
      (f.th.bytes ++ zeros 32 ++ (asTurn s n).body f)).freeTile n f.blk).asRetire n) := by
  refine congrArg Host.Outcome.next ((State.asIssue_at h _).trans ((State.asPop_some hpop).trans ?_))
  simp only [State.st_act_as, asTurn_as, asTurn_addrOk, hok, Bool.not_true, Bool.false_eq_true, if_false]
  exact State.goodBlock_clean (fun b hb => by rw [State.st_act_as, asTurn_lay]; exact vitClean.act (hclean b hb))

theorem exec_asTstp (h : asAt s n w 0x13) (hpop : (asTurn s n).asPopHead s.ht (asQA w) = some f)
    (hclean : ∀ b, f.blk = some b → vitClean s n ((s.st n).lay.blkAddr b) f.th.bodyLen)
    (hok : f.th.hdrOnly = true ∨ (s.st n).addrOk (asReg s n (asGD w)) f.th.bodyLen = true) :
    exec (.asTstp n) s = .next (((((s.act n .as).popped n (asQA w)).memWrite n (asReg s n (asGD w))
      ((asTurn s n).body f)).freeTile n f.blk).asRetire n) := by
  have hgood : (!f.th.hdrOnly && !(s.st n).addrOk (asReg s n (asGD w)) f.th.bodyLen) = false := by
    rcases hok with hh | hh <;> rw [hh] <;> simp
  refine congrArg Host.Outcome.next ((State.asIssue_at h _).trans ((State.asPop_some hpop).trans ?_))
  simp only [State.st_act_as, asTurn_as, asTurn_addrOk, hgood, Bool.false_eq_true, if_false]
  exact State.goodBlock_clean (fun b hb => by rw [State.st_act_as, asTurn_lay]; exact vitClean.act (hclean b hb))

/-- What a store leaves: the bytes at its address and nowhere else, the frame gone from its queue. -/
def stored (s : State) (n : StnId) (q : Fin 8) (g : DWord) (bs : List Byte) (t : State) : Prop :=
  (∀ a, dramByte t a = if addrSpace g = 0 ∧ addrOff g ≤ a ∧ a < addrOff g + bs.length then nth bs (a - addrOff g) 0
    else dramByte s a) ∧
  (∀ m a, vitByte t m a = if m = n ∧ addrSpace g = 1 ∧ addrOff g ≤ a ∧ a < addrOff g + bs.length then nth bs (a - addrOff g) 0
    else vitByte s m a) ∧
  (t.st n).q[q.val]'q.isLt = ((s.st n).q[q.val]'q.isLt).tail ∧
  (∀ p : Fin 8, p ≠ q → (t.st n).q[p.val]'p.isLt = (s.st n).q[p.val]'p.isLt) ∧
  (t.st n).as.pc = (s.st n).as.pc + 1 ∧ (t.st n).as.g = (s.st n).as.g ∧ stnsBut n s t ∧ t.flash = s.flash ∧ t.prt = s.prt

/-- The addresses that a station program may name lie in DRAM or in its program region (R81). -/
theorem Stn.addrOk_space {x : Stn} {g : DWord} {len : Nat} (h : x.addrOk g len = true) : addrSpace g = 0 ∨ addrSpace g = 1 := by
  simp only [Stn.addrOk, Stn.rangeOk, Bool.and_eq_true] at h
  obtain ⟨-, h⟩ := h
  split at h
  · next h0 => exact Or.inl h0
  · split at h
    · next h1 => exact Or.inr h1
    · exact absurd h (by simp)

/-- A write of a station program changes its station's Vitrine only. -/
theorem State.st_memWrite_shape (v : State) (n : StnId) (g : DWord) (bs : List Byte) :
    (v.memWrite n g bs).st n = { v.st n with
      vit := ((v.memWrite n g bs).st n).vit, vitBad := ((v.memWrite n g bs).st n).vitBad,
      vitBack := ((v.memWrite n g bs).st n).vitBack } := by
  rw [State.st_memWrite]
  split <;> rfl

/-- A change of a station that keeps its Vitrine. -/
theorem vitByte_modSt (v : State) (n : StnId) {g : Stn → Stn} (h : (g (v.st n)).vit = (v.st n).vit) (m : StnId) (a : Nat) :
    vitByte (v.modSt n g) m a = vitByte v m a := by
  by_cases hm : m = n
  · subst hm
    rw [vitByte, State.st_modSt_self, h]
    rfl
  · rw [vitByte, State.st_modSt_ne _ _ hm]
    rfl

theorem stored_of (s : State) (n : StnId) (q : Fin 8) {g : DWord} {bs : List Byte} (b : Option Nat)
    (h : bs = [] ∨ addrSpace g = 0 ∨ addrSpace g = 1) :
    stored s n q g bs (((((s.act n .as).popped n q).memWrite n g bs).freeTile n b).asRetire n) := by
  obtain ⟨c, hpop⟩ := s.popped_act n q
  obtain ⟨hhead, hrest⟩ := (asTurn s n).tookHead_q q c
  rw [hpop, State.freeTile_asRetire]
  generalize hx : (asTurn s n).tookHead q c = x at hhead hrest
  have hq : x.q[q.val]'q.isLt = ((s.st n).q[q.val]'q.isLt).tail := by rw [hhead]; simp only [asTurn_q]
  have has : x.as = (s.st n).as := by rw [← hx]; exact asTurn_as s n
  have hvit : x.vit = (s.st n).vit := by rw [← hx]; exact asTurn_vit s n
  have hv : (s.setSt n x).st n = x := State.st_setSt_self s n x
  have hshape := (s.setSt n x).st_memWrite_shape n g bs
  rw [hv] at hshape
  have hqs : (((s.setSt n x).memWrite n g bs).st n).q = x.q := by rw [hshape]
  have hass : (((s.setSt n x).memWrite n g bs).st n).as = x.as := by rw [hshape]
  obtain ⟨hfq, hfpc, hfg, hfvit⟩ := (((s.setSt n x).memWrite n g bs).st n).freeTile_asGo b
    ((((s.setSt n x).memWrite n g bs).st n).as.pc + 1)
  have hbyte (m : StnId) (a : Nat) : vitByte (s.setSt n x) m a = vitByte s m a :=
    vitByte_modSt s n (g := fun _ => x) hvit m a
  refine ⟨fun a => State.dramByte_memWrite (s.setSt n x) n g bs a, fun m a => ?_, ?_, fun p hp => ?_, ?_, ?_, fun m hm => ?_,
    ?_, ?_⟩
  · rw [vitByte_modSt _ _ hfvit, State.vitByte_memWrite, hbyte]
    rcases h with rfl | h0 | h1
    · rw [if_neg (by simp), if_neg (by simp)]
    · simp [h0]
    · simp [h1]
  · rw [State.st_modSt_self, hfq, hqs, hq]
  · rw [State.st_modSt_self, hfq, hqs, hrest p hp]
    simp only [asTurn_q]
  · rw [State.st_modSt_self, hfpc, hass, has]
  · rw [State.st_modSt_self, hfg, hass, has]
  · rw [State.st_modSt_ne _ _ hm, State.st_memWrite, if_neg (fun hc => hm hc.1), State.st_setSt_ne s x hm]
  · rw [State.memWrite_frame]
    rfl
  · rw [State.memWrite_frame]
    rfl

end

/-! ### The statement -/

/-- Settles O8: a frame that may be popped is dropped or stored (`stored_of`) and its block freed; else the stream waits. -/
theorem accessDropsAndStores : Obligations.AccessDropsAndStores := by
  unfold Obligations.AccessDropsAndStores
  refine ⟨fun s n w h => ⟨fun f hpop => ?_, fun hpop => ?_⟩, fun s n w f => ?_⟩
  · obtain ⟨c, hpopped⟩ := s.popped_act n (asQA w)
    obtain ⟨hhead, hrest⟩ := (asTurn s n).tookHead_q (asQA w) c
    obtain ⟨hfq, hfpc, hfg, hfvit⟩ := ((asTurn s n).tookHead (asQA w) c).freeTile_asGo f.blk ((s.st n).as.pc + 1)
    have has : ((asTurn s n).tookHead (asQA w) c).as = (s.st n).as := asTurn_as s n
    have hexec := (exec_asTdrop h).trans (congrArg Host.Outcome.next (State.asPop_some hpop))
    rw [hpopped, State.freeTile_asRetire, State.st_setSt_self, has, State.setSt_modSt] at hexec
    refine ⟨_, hexec, ?_⟩
    rw [State.st_setSt_self]
    refine ⟨?_, fun q hq => ?_, ?_, hfpc, ?_, ?_, fun m hm => State.st_setSt_ne s _ hm, rfl⟩
    · rw [hfq, hhead]; simp only [asTurn_q]
    · rw [hfq, hrest q hq]; simp only [asTurn_q]
    · exact Stn.used_freeTile_congr (x := (asTurn s n).tookHead (asQA w) c) (asTurn_lay s n) (asTurn_used s n) f.blk
    · rw [hfg, has]
    · rw [hfvit]; exact asTurn_vit s n
  · have hexec := (exec_asTdrop h).trans (congrArg Host.Outcome.next (State.asPop_none hpop))
    exact ⟨_, hexec, asWaits_wait s n _ _⟩
  · intro x g body hpop hclean
    have hbody : (asTurn s n).body f = body := by
      unfold Stn.body Stn.vitBytes
      rw [asTurn_vit, asTurn_lay]
      cases hb : f.blk <;> simp only [body, x, hb]
    rw [← hbody]
    refine ⟨fun h hok => ?_, fun h hok => ?_⟩
    · exact ⟨_, exec_asTst h hpop hclean hok, stored_of s n (asQA w) f.blk (Or.inr (Stn.addrOk_space hok))⟩
    · refine ⟨_, exec_asTstp h hpop hclean (hok.imp (fun hh => hh.1) (fun hh => hh.2)), stored_of s n (asQA w) f.blk ?_⟩
      rcases hok with ⟨-, hb⟩ | ⟨-, hok⟩
      · exact Or.inl (by rw [Stn.body, hb])
      · exact Or.inr (Stn.addrOk_space hok)

end Sys2Proof.Machine
end

section
/-! SUPPORT. Loads of the access stream (O10). -/

namespace Sys2Proof.Machine

open Sys2Proof

/-! ### The block that a load takes (R296, R297) -/

theorem firstBelow_some {n b : Nat} {p : Nat → Bool} (hlt : b < n) (hb : p b = true) (hmin : ∀ c, c < b → p c = false) :
    firstBelow n p = some b :=
  List.find?_range_eq_some.mpr ⟨hb, List.mem_range.mpr hlt, fun c hc => by rw [hmin c hc]; rfl⟩

theorem firstBelow_none {n : Nat} {p : Nat → Bool} (h : ∀ c, c < n → p c = false) : firstBelow n p = none :=
  List.find?_eq_none.mpr (fun c hc => by rw [h c (List.mem_range.mp hc)]; decide)

/-- FREE is followed down in its own register only. -/
theorem State.clkLow_frame (s : State) (n : StnId) (i : Nat) :
    s.clkLow n i = { s with regs := (s.clkLow n i).regs } ∧ regsBut [Reg.stnClkLow n.val i] s (s.clkLow n i) := by
  unfold State.clkLow
  dsimp only
  split
  · exact ⟨rfl, fun a ha => State.rg_setRf_ne s _ _ _ (fun h => ha (by simp [h]))⟩
  · exact ⟨rfl, fun _ _ => rfl⟩

/-- Block `b` of pool `i` is at hand for the access stream: the lowest that is free and was free at the start of the tick. -/
def asBlock (s : State) (n : StnId) (i b : Nat) : Prop :=
  (asTurn s n).cyc.given.contains i = false ∧ b < (s.st n).lay.count i ∧ b ∉ (s.st n).usedOf i ∧
  (i, b) ∉ (asTurn s n).cyc.freed ∧ ∀ c, c < b → c ∈ (s.st n).usedOf i ∨ (i, c) ∈ (asTurn s n).cyc.freed

section
variable {s : State} {n : StnId} {i b : Nat}

theorem asTurn_usedOf (s : State) (n : StnId) (i : Nat) : (asTurn s n).usedOf i = (s.st n).usedOf i := by
  rw [Stn.usedOf, asTurn_used, Stn.usedOf]

theorem Stn.lowestFree_asBlock (h : asBlock s n i b) : (asTurn s n).lowestFree i = some b := by
  obtain ⟨-, hlt, hused, hfreed, hmin⟩ := h
  rw [Stn.lowestFree, asTurn_lay, asTurn_usedOf]
  refine firstBelow_some hlt (by simp [hused, hfreed]) (fun c hc => ?_)
  rcases hmin c hc with hc | hc <;> simp [hc]

/-- What the access stream's request for a block leaves: the station with the block given, and FREE followed down. -/
structure asGiven (s : State) (n : StnId) (i b : Nat) (u : State) : Prop where
  frame : u = { s with regs := u.regs, stn := u.stn }
  regs : regsBut [Reg.stnClkLow n.val i] s u
  others : stnsBut n s u
  st : u.st n = (asTurn s n).giveBlk i b .as 0

theorem State.alloc_as {u : State} (hpool : (s.st n).lay.tilePool = some i) :
    (s.act n .as).allocTile n .as 0 = some (b, u) ↔
      ((asTurn s n).cyc.given.contains i || (asTurn s n).outranked s.ht i .as 0) = false ∧ (asTurn s n).lowestFree i = some b ∧
        u = ((s.act n .as).modSt n (fun x => x.giveBlk i b .as 0)).clkLow n i := by
  have hfit : ((s.act n .as).st n).lay.fitPool 4352 = some i := by rw [State.st_act_as, asTurn_lay]; exact hpool
  unfold State.allocTile State.alloc
  rw [hfit]
  dsimp only
  rw [State.st_act_as, show (s.act n .as).ht = s.ht from rfl]
  cases hbusy : (asTurn s n).cyc.given.contains i || (asTurn s n).outranked s.ht i .as 0
  · cases hlow : (asTurn s n).lowestFree i with
    | none => simp
    | some c =>
      simp only [Bool.false_eq_true, if_false, Option.some.injEq, Prod.mk.injEq, true_and]
      constructor
      · rintro ⟨rfl, rfl⟩; exact ⟨rfl, rfl⟩
      · rintro ⟨rfl, rfl⟩; exact ⟨rfl, rfl⟩
  · simp

theorem asBlock.given (h : asBlock s n i b) (hpool : (s.st n).lay.tilePool = some i)
    (hrank : (asTurn s n).outranked s.ht i .as 0 = false) :
    ∃ u, (s.act n .as).allocTile n .as 0 = some (b, u) ∧ asGiven s n i b u := by
  have hlow := Stn.lowestFree_asBlock h
  obtain ⟨hgiven, -⟩ := h
  refine ⟨_, (State.alloc_as hpool).mpr ⟨by rw [hgiven, hrank]; rfl, hlow, rfl⟩, ?_⟩
  obtain ⟨hframe, hregs⟩ := ((s.act n .as).modSt n (fun x => x.giveBlk i b .as 0)).clkLow_frame n i
  have hst (m : StnId) : (((s.act n .as).modSt n (fun x => x.giveBlk i b .as 0)).clkLow n i).st m =
      ((s.act n .as).modSt n (fun x => x.giveBlk i b .as 0)).st m := by rw [hframe]; rfl
  refine ⟨by rw [hframe]; rfl, hregs, fun m hm => ?_, ?_⟩
  · rw [hst, State.st_modSt_ne _ _ hm, State.act, State.st_modSt_ne _ _ hm]
  · rw [hst, State.st_modSt_self, State.st_act_as]

/-- No block of the pool is free. -/
theorem State.alloc_none (hpool : (s.st n).lay.tilePool = some i) (h : ∀ c, c < (s.st n).lay.count i → c ∈ (s.st n).usedOf i) :
    (s.act n .as).allocTile n .as 0 = none := by
  have hlow : (asTurn s n).lowestFree i = none := by
    rw [Stn.lowestFree, asTurn_lay, asTurn_usedOf]
    exact firstBelow_none (fun c hc => by simp [h c hc])
  cases halloc : (s.act n .as).allocTile n .as 0 with
  | none => rfl
  | some p =>
    obtain ⟨-, hsome, -⟩ := (State.alloc_as (b := p.1) (u := p.2) hpool).mp halloc
    exact absurd (hlow.symm.trans hsome) (by simp)

/-! ### The room that a load waits for (R77, R296) -/

theorem State.asReserve_eq (q : Fin 8) (k : Nat → State → State) (hpool : (s.st n).lay.tilePool = some i) :
    (s.act n .as).asReserve n q k =
      if (asTurn s n).canPush q = false then (s.act n .as).asWait n .queueFull q.val
      else ((s.act n .as).allocTile n .as 0).elim (((s.act n .as).clkWait n .as 0 4352).asWait n .tileBlock 0)
        (fun p => k p.1 p.2) := by
  unfold State.asReserve
  rw [State.st_act_as, asTurn_lay, hpool, if_neg (by simp)]
  cases hroom : (asTurn s n).canPush q
  · simp
  · simp only [Bool.not_true, Bool.false_eq_true, if_false, Bool.true_eq_false]
    cases (s.act n .as).allocTile n .as 0 <;> rfl

/-! ### A load is taken (R84) -/

/-- A station whose queue entry, load number and load are taken. -/
def Stn.tookLoad (x : Stn) (q : Fin 8) (b : Nat) (l : Nat → Load) : Stn :=
  { x.push q ⟨⟨TH.zero, some b⟩, .load x.loadId⟩ with loadId := x.loadId + 1, loads := x.loads ++ [l x.loadId] }

/-- The state after station `n` has taken a load: its stream's registers are `a`, and the stacks have had the reads. -/
def State.loaded (u : State) (n : StnId) (k : Vector Stk 8) (q : Fin 8) (b : Nat) (l : Nat → Load) (a : AsState) : State :=
  ({ u with stk := k } : State).setSt n { (u.st n).tookLoad q b l with wd := 0, as := a }

/-- What taking a load leaves, whatever the registers of the stream become. -/
def loadTaken (s : State) (n : StnId) (w : Word) (i b : Nat) (t : State) (l : Load) : Prop :=
  (t.st n).loads = (s.st n).loads ++ [l] ∧ l.id = (s.st n).loadId ∧ l.q = asQT w ∧ l.blk = b ∧
  l.addr = (asReg s n (asGD w)) ∧ l.bad = none ∧
  (t.st n).q[(asQT w).val]'(asQT w).isLt = (s.st n).q[(asQT w).val]'(asQT w).isLt ++ [⟨⟨TH.zero, some b⟩, .load (s.st n).loadId⟩] ∧
  (∀ q : Fin 8, q ≠ asQT w → (t.st n).q[q.val]'q.isLt = (s.st n).q[q.val]'q.isLt) ∧ (t.st n).usedOf i = b :: (s.st n).usedOf i ∧
  (t.st n).as.pc = (s.st n).as.pc + 1 ∧ (t.st n).as.g = (s.st n).as.g ∧ (t.st n).vit = (s.st n).vit ∧ stnsBut n s t ∧
  regsBut [Reg.stnClkLow n.val i] s t ∧ t = { s with regs := t.regs, stn := t.stn, stk := t.stk }

theorem nth_set_self {α : Type} (l : List α) {i : Nat} (v d : α) (h : i < l.length) : nth (l.set i v) i d = v := by
  simp [nth, h]

theorem asGiven.loadTaken {u : State} (h : asGiven s n i b u) (hi : i < (s.st n).used.length) {w : Word} {l : Nat → Load}
    {a : AsState} {k : Vector Stk 8} (hl : ∀ j, (l j).id = j ∧ (l j).q = asQT w ∧ (l j).blk = b ∧
      (l j).addr = (asReg s n (asGD w)) ∧ (l j).bad = none) (hpc : a.pc = (s.st n).as.pc + 1) (hg : a.g = (s.st n).as.g) :
    loadTaken s n w i b (u.loaded n k (asQT w) b l a) (l (s.st n).loadId) := by
  obtain ⟨hframe, hregs, hothers, hst⟩ := h
  have hloadId : (asTurn s n).loadId = (s.st n).loadId := by simp [asTurn_eq]
  have hloads : (asTurn s n).loads = (s.st n).loads := by simp [asTurn_eq]
  obtain ⟨hid, hq, hblk, haddr, hbad⟩ := hl (s.st n).loadId
  unfold Machine.loadTaken State.loaded
  rw [State.st_setSt_self, hst]
  refine ⟨?_, hid, hq, hblk, haddr, hbad, ?_, fun q hne => ?_, ?_, hpc, hg, asTurn_vit s n, fun m hm => ?_, ?_, ?_⟩
  · show (asTurn s n).loads ++ [l (asTurn s n).loadId] = _
    rw [hloads, hloadId]
  · refine (Vector.getElem_set_self _).trans ?_
    show (asTurn s n).q[(asQT w).val]'(asQT w).isLt ++ [⟨⟨TH.zero, some b⟩, .load (asTurn s n).loadId⟩] = _
    simp only [asTurn_q, hloadId]
  · have hval : (asQT w).val ≠ q.val := fun hv => hne (Fin.ext hv.symm)
    refine (Vector.getElem_set_ne (asQT w).isLt q.isLt hval).trans ?_
    show (asTurn s n).q[q.val]'q.isLt = _
    simp only [asTurn_q]
  · show nth ((asTurn s n).used.set i _) i [] = _
    rw [asTurn_used, nth_set_self _ _ _ hi, asTurn_usedOf]
  · rw [State.st_setSt_ne _ _ hm]; exact hothers m hm
  · exact hregs
  · rw [hframe]; rfl

/-! ### The read of a load (R84, R87) -/

/-- The map of DRAM and its check bits stay where the map's register does. -/
theorem dramClean.congr {t : State} {o len : Nat} (h : dramClean s o len) (hmap : t.rg (Reg.memMap 0) = s.rg (Reg.memMap 0))
    (hbad : t.dramBad = s.dramBad) : dramClean t o len := by
  intro v hv
  rw [State.badAt, State.loc, State.rf, hmap, hbad]
  exact h v hv

/-- The map of DRAM is not a station's FREE mark. -/
theorem memMap_not_clkLow (n : StnId) (i : Nat) : Reg.memMap 0 ∉ [Reg.stnClkLow n.val i] := fun h =>
  have hlow : 0x1000000 ≤ Reg.stnClkLow n.val i := (stnBase_ge n _).trans (Nat.le_add_right _ _)
  absurd (List.mem_singleton.mp h) (lt_of_lt_of_le (by decide) hlow).ne

/-- The read of a load takes the bytes as they stood at issue. -/
theorem asGiven.memRead {u : State} (h : asGiven s n i b u) {g : DWord} {len : Nat} (hg : addrSpace g = 0)
    (hclean : dramClean s (addrOff g) len) (k : Vector Stk 8) :
    ∃ k', ({ u with stk := k } : State).memRead n g len =
      ({ u with stk := k' }, some (Cells.read zeroByte s.dram (addrOff g) len)) := by
  have hmap : u.rg (Reg.memMap 0) = s.rg (Reg.memMap 0) := h.regs _ (memMap_not_clkLow n i)
  have hbad : u.dramBad = s.dramBad := by rw [h.frame]
  have hdram : u.dram = s.dram := by rw [h.frame]
  have hu : dramClean ({ u with stk := k } : State) (addrOff g) len := dramClean.congr hclean hmap hbad
  refine ⟨(({ u with stk := k } : State).request (addrOff g) len (.station n)).stk, ?_⟩
  rw [State.memRead, if_pos hg, State.dramRead_bytes hu, ← hdram]

/-- The address after a header in DRAM. -/
theorem addr_add_64 {g : DWord} (hspace : addrSpace g = 0) (hoff : addrOff g + 64 ≤ dramSize) :
    addrSpace (g + 64) = 0 ∧ addrOff (g + 64) = addrOff g + 64 := by
  have hroom : g.toNat % 2 ^ 46 + 64 < 2 ^ 46 := hoff.trans_lt (by decide)
  have hsplit : g.toNat + 64 = g.toNat % 2 ^ 46 + 64 + g.toNat / 2 ^ 46 * 2 ^ 46 := by
    rw [Nat.add_right_comm, Nat.mul_comm, Nat.mod_add_div]
  have hadd : (g + 64).toNat = g.toNat + 64 := by
    rw [BitVec.toNat_add, show (64 : DWord).toNat = 64 from rfl, Nat.mod_eq_of_lt]
    calc g.toNat + 64 < 2 ^ 46 + g.toNat / 2 ^ 46 * 2 ^ 46 := hsplit.trans_lt (Nat.add_lt_add_right hroom _)
      _ = (g.toNat / 2 ^ 46 + 1) * 2 ^ 46 := by rw [Nat.succ_mul, Nat.add_comm]
      _ ≤ 2 ^ 18 * 2 ^ 46 := Nat.mul_le_mul_right _ (Nat.div_lt_of_lt_mul g.isLt)
  obtain ⟨hmod, hdiv⟩ := unpack (g.toNat / 2 ^ 46) hroom
  rw [addrSpace, addrOff, hadd, hsplit, hmod, hdiv]
  exact ⟨hspace, rfl⟩

/-- The load of a tld, of the header `th`. -/
def tldLoad (s : State) (n : StnId) (w : Word) (b : Nat) (th : TH) (head body : List Byte) (j : Nat) : Load :=
  ⟨j, asQT w, false, (asReg s n (asGD w)), th, b, head, body, true, none⟩

/-- The load of a tldp, of the header `th`. -/
def tldpLoad (s : State) (n : StnId) (w : Word) (b : Nat) (th : TH) (body : List Byte) (j : Nat) : Load :=
  ⟨j, asQT w, true, (asReg s n (asGD w)), th, b, [], body, true, none⟩

/-- The stream's registers after a load that goes on with the templates `hs`. -/
def asLoaded (s : State) (n : StnId) (hs : Vector TH 8) : AsState :=
  { (s.st n).as with pc := (s.st n).as.pc + 1, wait := .none, obj := 0, stepRec := none, h := hs }

/-- The header that a tld reads. -/
def tldHead (s : State) (n : StnId) (w : Word) : TH :=
  (TH.ofBytes (Cells.read zeroByte s.dram (addrOff (asReg s n (asGD w))) 32)).loaded (asLst w) (asItin w) (asHop w)

theorem asGiven.asRetire {u : State} (h : asGiven s n i b u) {w : Word} {l : Nat → Load} (k : Vector Stk 8) :
    (({ u with stk := k } : State).takeLoad n (asQT w) b l).asRetire n =
      u.loaded n k (asQT w) b l (asLoaded s n (s.st n).as.h) := by
  have has : (u.st n).as = (s.st n).as := by rw [h.st]; exact asTurn_as s n
  rw [asLoaded, ← has]
  exact State.modSt_modSt _ _ _ _

theorem asGiven.asRetire_templates {u : State} (h : asGiven s n i b u) {w : Word} {l : Nat → Load} (k : Vector Stk 8)
    (f : Vector TH 8 → Vector TH 8) :
    ((({ u with stk := k } : State).takeLoad n (asQT w) b l).modSt n
        (fun x => { x with as := { x.as with h := f x.as.h } })).asRetire n =
      u.loaded n k (asQT w) b l (asLoaded s n (f (s.st n).as.h)) := by
  have has : (u.st n).as = (s.st n).as := by rw [h.st]; exact asTurn_as s n
  rw [asLoaded, ← has, State.asRetire_eq, State.st_modSt_self, State.modSt_modSt, State.takeLoad, State.modSt_modSt]
  simp only [State.st_modSt_self]
  rfl

/-- A tld whose header passes its check. -/
theorem exec_asTld {u : State} {w : Word} (h : asAt s n w 0x10) (hu : asGiven s n i b u)
    (halloc : (s.act n .as).allocTile n .as 0 = some (b, u)) (hpool : (s.st n).lay.tilePool = some i)
    (hroom : (asTurn s n).canPush (asQT w) = true) (hspace : addrSpace (asReg s n (asGD w)) = 0)
    (hhead : (s.st n).addrOk (asReg s n (asGD w)) 64 = true)
    (hbody : (s.st n).addrOk (asReg s n (asGD w)) (64 + (tldHead s n w).bodyLen) = true) (hok : (tldHead s n w).ok = true)
    (hclean : dramClean s (addrOff (asReg s n (asGD w))) 64)
    (hclean' : dramClean s (addrOff (asReg s n (asGD w)) + 64) (tldHead s n w).bodyLen) :
    ∃ k, exec (.asTld n) s = .next (u.loaded n k (asQT w) b
      (tldLoad s n w b (tldHead s n w) (Cells.read zeroByte s.dram (addrOff (asReg s n (asGD w))) 64)
        (if (tldHead s n w).hdrOnly then [] else
          Cells.read zeroByte s.dram (addrOff (asReg s n (asGD w)) + 64) (tldHead s n w).bodyLen))
      (asLoaded s n (s.st n).as.h)) := by
  obtain ⟨k1, hread⟩ := hu.memRead hspace hclean u.stk
  have hread : u.memRead n (asReg s n (asGD w)) 64 = _ := hread
  have hrange : addrOff (asReg s n (asGD w)) + 64 ≤ dramSize := by
    simp only [Stn.addrOk, Stn.rangeOk, hspace, if_true, Bool.and_eq_true, decide_eq_true_eq] at hhead
    exact hhead.2
  obtain ⟨hspace', hoff'⟩ := addr_add_64 hspace hrange
  obtain ⟨k2, hread'⟩ := hu.memRead hspace' (hoff' ▸ hclean') k1
  have hexec : exec (.asTld n) s = _ := congrArg Host.Outcome.next (State.asIssue_at h _)
  have hth : (TH.ofBytes ((Cells.read zeroByte s.dram (addrOff (asReg s n (asGD w))) 64).take 32)).loaded (asLst w)
      (asItin w) (asHop w) = tldHead s n w := by rw [Cells.take_read _ _ _ (by decide)]; rfl
  simp only [State.st_act_as, asTurn_as, asTurn_addrOk, hhead, Bool.not_true, Bool.false_eq_true, if_false,
    State.asReserve_eq _ _ hpool, hroom, Bool.true_eq_false, halloc, Option.elim_some, hread, hth, hok, hbody,
    Bool.false_or] at hexec
  cases hdr : (tldHead s n w).hdrOnly
  · simp only [hdr, Bool.false_eq_true, if_false, hread', hoff', Option.getD_some, reduceCtorEq] at hexec ⊢
    exact ⟨k2, hexec.trans (congrArg Host.Outcome.next (hu.asRetire k2))⟩
  · simp only [hdr, if_true] at hexec ⊢
    exact ⟨k1, hexec.trans (congrArg Host.Outcome.next (hu.asRetire k1))⟩

/-- The template of a tldp. -/
def tldpTmpl (s : State) (n : StnId) (w : Word) : TH := (s.st n).as.h[(asHT3 w).val]

/-- The header of a tldp. -/
def tldpHead (s : State) (n : StnId) (w : Word) : TH := (tldpTmpl s n w).loaded (asLst w) (asItin w) (asHop w)

/-- A tldp whose header passes its check. -/
theorem exec_asTldp {u : State} {w : Word} (h : asAt s n w 0x11) (hu : asGiven s n i b u)
    (halloc : (s.act n .as).allocTile n .as 0 = some (b, u)) (hpool : (s.st n).lay.tilePool = some i)
    (hroom : (asTurn s n).canPush (asQT w) = true) (hspace : addrSpace (asReg s n (asGD w)) = 0)
    (hok : (tldpHead s n w).ok = true) (hbody : (s.st n).addrOk (asReg s n (asGD w)) (tldpHead s n w).bodyLen = true)
    (hclean : dramClean s (addrOff (asReg s n (asGD w))) (tldpHead s n w).bodyLen) :
    ∃ k, exec (.asTldp n) s = .next (u.loaded n k (asQT w) b
      (tldpLoad s n w b (tldpHead s n w) (Cells.read zeroByte s.dram (addrOff (asReg s n (asGD w))) (tldpHead s n w).bodyLen))
      (asLoaded s n ((s.st n).as.h.set (asHT3 w).val ((tldpTmpl s n w).setSeq ((tldpTmpl s n w).seq + 1))))) := by
  obtain ⟨k, hread⟩ := hu.memRead hspace hclean u.stk
  have hread : u.memRead n (asReg s n (asGD w)) (tldpHead s n w).bodyLen = _ := hread
  have hexec : exec (.asTldp n) s = _ := congrArg Host.Outcome.next (State.asIssue_at h _)
  have hth : ((s.st n).as.h[(asHT3 w).val]).loaded (asLst w) (asItin w) (asHop w) = tldpHead s n w := rfl
  simp only [State.st_act_as, asTurn_as, asTurn_addrOk, hth, hok, if_true, hbody, Bool.not_true, Bool.false_eq_true, if_false,
    State.asReserve_eq _ _ hpool, hroom, Bool.true_eq_false, halloc, Option.elim_some, hread, Option.getD_some,
    reduceCtorEq] at hexec
  exact ⟨k, hexec.trans (congrArg Host.Outcome.next (hu.asRetire_templates k
    (fun v => v.set (asHT3 w).val ((tldpTmpl s n w).setSeq ((tldpTmpl s n w).seq + 1)))))⟩

end

/-! ### Waits of a load -/

section
variable {s : State} {n : StnId} {i : Nat} {w : Word}

theorem exec_asTld_reserve (h : asAt s n w 0x10) (haddr : (s.st n).addrOk (asReg s n (asGD w)) 64 = true)
    (hpool : (s.st n).lay.tilePool = some i) :
    ∃ k : Nat × State → State, exec (.asTld n) s = .next (
      if (asTurn s n).canPush (asQT w) = false then (s.act n .as).asWait n .queueFull (asQT w).val
      else ((s.act n .as).allocTile n .as 0).elim (((s.act n .as).clkWait n .as 0 4352).asWait n .tileBlock 0) k) := by
  have hexec : exec (.asTld n) s = _ := congrArg Host.Outcome.next (State.asIssue_at h _)
  simp only [State.st_act_as, asTurn_as, asTurn_addrOk, haddr, Bool.not_true, Bool.false_eq_true, if_false,
    State.asReserve_eq _ _ hpool] at hexec
  exact ⟨_, hexec⟩

/-- The stream waits for a block, and its request waits with it. -/
theorem clkWait_asWait (hpool : (s.st n).lay.tilePool = some i) :
    let t := ((s.act n .as).clkWait n .as 0 4352).asWait n .tileBlock 0
    (t.st n).as = { (s.st n).as with wait := .tileBlock, obj := 0 } ∧ (∃ r, r ∈ (t.st n).reqs ∧ r.pool = i ∧ r.who = .as) ∧
      (t.st n).q = (s.st n).q ∧ (t.st n).used = (s.st n).used ∧ stnsBut n s t ∧ t = { s with stn := t.stn } := by
  intro t
  have hfit : ((s.act n .as).st n).lay.fitPool 4352 = some i := by rw [State.st_act_as, asTurn_lay]; exact hpool
  have ht : t = s.setSt n { asTurn s n with
      reqs := ⟨i, .as, 0, (asTurn s n).reqMade s.ht i .as 0, s.ht⟩ ::
        (asTurn s n).reqs.filter (fun r => !(r.pool = i && r.of .as 0))
      as := { (asTurn s n).as with wait := .tileBlock, obj := 0 } } := by
    simp only [t, State.clkWait, hfit, State.asWait, State.act_modSt, State.setSt_modSt]
    rfl
  rw [ht, State.st_setSt_self, asTurn_as]
  exact ⟨rfl, ⟨_, List.mem_cons_self, rfl, rfl⟩, asTurn_q s n, asTurn_used s n, fun m hm => State.st_setSt_ne s _ hm, rfl⟩

end

/-! ### Data that arrive, and thld (R84, R80) -/

section
variable {s : State} {n : StnId} {l : Load} {rest : List Load}

/-- The oldest load is no longer outstanding. -/
def State.loadOff (s : State) (n : StnId) (rest : List Load) : State := s.modSt n (fun x => { x with loads := rest })

theorem State.st_loadOff (s : State) (n : StnId) (rest : List Load) :
    (s.loadOff n rest).st n = { s.st n with loads := rest } := State.st_modSt_self _ _ _

theorem exec_tldDataArrive_good (hl : (s.st n).loads = l :: rest) (hbad : l.bad = none) (hok : l.th.ok = true)
    (hext : l.extOk = true) (hdr : l.th.hdrOnly = false) :
    exec (.tldDataArrive n) s = .next ((s.loadOff n rest).modSt n (fun x =>
      (x.vitPut (x.lay.blkAddr l.blk) l.body).fillEntry l.q l.id ⟨l.th, some l.blk⟩)) := by
  have hexec : exec (.tldDataArrive n) s = execTldDataArrive n s := rfl
  rw [hexec, execTldDataArrive, hl]
  simp only [hbad, Option.isSome_none, Bool.false_eq_true, if_false, hok, Bool.not_true, hext, hdr]
  rfl

theorem exec_tldDataArrive_failed (hl : (s.st n).loads = l :: rest) (hbad : l.bad = none) (hok : l.th.ok = false) :
    exec (.tldDataArrive n) s =
      .next (((s.loadOff n rest).modSt n (fun x => x.dropEntry l.q l.id l.blk)).halt n ⟨.stn, 2⟩ (some l.th)) := by
  have hexec : exec (.tldDataArrive n) s = execTldDataArrive n s := rfl
  rw [hexec, execTldDataArrive, hl]
  simp only [hbad, Option.isSome_none, Bool.false_eq_true, if_false, hok, Bool.not_false, if_true]
  rfl

/-- An entry that is given up leaves the station's state and its streams. -/
theorem Stn.dropEntry_keeps (x : Stn) (q : Fin 8) (i b : Nat) :
    (x.dropEntry q i b).st = x.st ∧ (x.dropEntry q i b).as = x.as := by
  unfold Stn.dropEntry
  dsimp only
  rw [Stn.freeTile_shape]
  exact ⟨rfl, rfl⟩

/-- The header that a thld reads. -/
def thldHead (s : State) (n : StnId) (w : Word) : TH :=
  TH.ofBytes (Cells.read zeroByte s.dram (addrOff (asReg s n (asGD w))) 32)

theorem exec_asThld {w : Word} (h : asAt s n w 0x17) (haddr : (s.st n).addrOk (asReg s n (asGD w)) 32 = true)
    (hspace : addrSpace (asReg s n (asGD w)) = 0) (hclean : dramClean s (addrOff (asReg s n (asGD w))) 32) :
    ∃ k, exec (.asThld n) s = .next ((({ (s.act n .as) with stk := k } : State).modSt n (fun x =>
      { x with as := { x.as with h := x.as.h.set (asHT3 w).val (thldHead s n w) } })).asRetire n) := by
  have hact : dramClean (s.act n .as) (addrOff (asReg s n (asGD w))) 32 := dramClean.congr hclean rfl rfl
  have hread : (s.act n .as).memRead n (asReg s n (asGD w)) 32 = _ :=
    (if_pos hspace).trans (State.dramRead_bytes hact)
  have hexec : exec (.asThld n) s = _ := congrArg Host.Outcome.next (State.asIssue_at h _)
  simp only [State.st_act_as, asTurn_as, asTurn_addrOk, haddr, Bool.not_true, Bool.false_eq_true, if_false, hread] at hexec
  exact ⟨_, hexec⟩

end

/-! ### The statement -/

/-- Settles O10: a load takes its block, entry and bytes at issue (`exec_asTld`, `exec_asTldp`, `asGiven.loadTaken`) or waits
(`exec_asTld_reserve`, `clkWait_asWait`); its data fill the entry, or a header that fails its check halts the station. -/
theorem accessLoads : Obligations.AccessLoads := by
  unfold Obligations.AccessLoads
  refine ⟨fun s n w i b => ?_, fun s n => ⟨fun l rest hl hbad hok hext hdr => ?_, fun l rest hl hbad hok hst => ?_,
    fun w h hspace haddr hclean => ?_⟩⟩
  · intro x y g off tmpl th0 th1 taken hpool hi hspace hrank free
    refine ⟨fun h hroom hfree haddr haddr' hok hclean hclean' => ?_, fun h hroom hfree hok haddr hclean => ?_,
      fun h haddr hroom => ?_, fun h haddr hroom hnone => ?_⟩
    · obtain ⟨u, halloc, hu⟩ := asBlock.given hfree hpool hrank
      obtain ⟨k, hexec⟩ := exec_asTld h hu halloc hpool hroom hspace haddr haddr' hok hclean hclean'
      refine ⟨_, _, hexec, hu.loadTaken hi (fun j => ⟨rfl, rfl, rfl, rfl, rfl⟩) rfl rfl, rfl, rfl, fun hdr => ?_, ?_⟩
      · exact if_neg (by rw [show tldHead s n w = th1 from rfl, hdr]; decide)
      · rw [State.loaded, State.st_setSt_self]; rfl
    · obtain ⟨u, halloc, hu⟩ := asBlock.given hfree hpool hrank
      obtain ⟨k, hexec⟩ := exec_asTldp h hu halloc hpool hroom hspace hok haddr hclean
      refine ⟨_, _, hexec, hu.loadTaken hi (fun j => ⟨rfl, rfl, rfl, rfl, rfl⟩) rfl rfl, rfl, rfl, rfl, ?_⟩
      rw [State.loaded, State.st_setSt_self]
      exact Vector.getElem_set_self _
    · obtain ⟨k, hexec⟩ := exec_asTld_reserve h haddr hpool
      rw [if_pos hroom] at hexec
      exact ⟨_, hexec, asWaits_wait s n _ _⟩
    · obtain ⟨k, hexec⟩ := exec_asTld_reserve h haddr hpool
      rw [if_neg (by rw [hroom]; decide), State.alloc_none hpool hnone] at hexec
      exact ⟨_, hexec, clkWait_asWait hpool⟩
  · refine ⟨_, exec_tldDataArrive_good hl hbad hok hext hdr, ?_⟩
    have hst : ((s.loadOff n rest).modSt n (fun x =>
        (x.vitPut (x.lay.blkAddr l.blk) l.body).fillEntry l.q l.id ⟨l.th, some l.blk⟩)).st n =
        (({ s.st n with loads := rest } : Stn).vitPut ((s.st n).lay.blkAddr l.blk) l.body).fillEntry l.q l.id ⟨l.th, some l.blk⟩ := by
      rw [State.st_modSt_self, State.st_loadOff]
    refine ⟨?_, ?_, fun a => ?_, ?_, fun m hm => ?_, rfl⟩
    · rw [hst]; rfl
    · rw [hst]; exact Vector.getElem_set_self _
    · rw [vitByte, hst]
      exact Stn.vitByte_vitPut _ _ _ a
    · rw [hst]; rfl
    · rw [State.st_modSt_ne _ _ hm]
      exact State.st_modSt_ne _ _ hm
  · have hself : ((s.loadOff n rest).modSt n (fun x => x.dropEntry l.q l.id l.blk)).st n =
        ({ s.st n with loads := rest } : Stn).dropEntry l.q l.id l.blk := by
      rw [State.st_modSt_self, State.st_loadOff]
    obtain ⟨hkst, hkas⟩ := ({ s.st n with loads := rest } : Stn).dropEntry_keeps l.q l.id l.blk
    have hhalt := State.halt_haltedBy (c := ⟨.stn, 2⟩) (some l.th) (by rw [hself, hkst]; exact hst) (by decide)
    refine ⟨_, exec_tldDataArrive_failed hl hbad hok, hhalt.st, ?_⟩
    have hplace := hhalt.place
    rw [hself] at hplace
    exact (congrArg (fun p => p.1) hplace).trans (congrArg AsState.pc hkas)
  · obtain ⟨k, hexec⟩ := exec_asThld h haddr hspace hclean
    have hself : ({ (s.act n .as) with stk := k } : State).st n = asTurn s n := rfl
    refine ⟨_, hexec, ?_⟩
    rw [State.asRetire_eq, State.modSt_modSt, State.st_modSt_self, State.st_modSt_self, hself]
    refine ⟨?_, fun j hj => ?_, ?_, ?_, fun m hm => ?_, rfl⟩
    · exact Vector.getElem_set_self _
    · have hval : (asHT3 w).val ≠ j.val := fun hv => hj (Fin.ext hv.symm)
      refine (Vector.getElem_set_ne (asHT3 w).isLt j.isLt hval).trans ?_
      simp only [asTurn_as]
    · show (asTurn s n).as.pc + 1 = _
      rw [asTurn_as]
    · show (asTurn s n).as.g = _
      rw [asTurn_as]
    · rw [State.st_modSt_ne _ _ hm]
      exact State.st_modSt_ne s (fun x => x.act .as) hm

end Sys2Proof.Machine
end

section
/-! SUPPORT. Locked sequences of writes to good words of DRAM (O39). -/

namespace Sys2Proof.Machine

open Sys2Proof

/-! ### The pieces of a byte string -/

/-- The piece of a byte string at `o` that falls in the `c` bytes from `u`. -/
def gridPiece (c o : Nat) (bs : List Byte) (u : Nat) : Nat × List Byte :=
  (max u o, (bs.drop (max u o - o)).take (min (u + c) (o + bs.length) - max u o))

theorem unitPieces_eq (o : Nat) (bs : List Byte) : unitPieces o bs = (unitsOf o bs.length).map (gridPiece 64 o bs) := rfl

theorem wordPieces_eq (o : Nat) (bs : List Byte) : wordPieces o bs = (wordsOf o bs.length).map (gridPiece 8 o bs) := rfl

/-- `e` holds bytes of the string `bs` at `o`, each at its address. -/
structure pieceOf (o : Nat) (bs : List Byte) (e : Nat × List Byte) : Prop where
  low : o ≤ e.1
  high : e.1 + e.2.length ≤ o + bs.length
  bytes : ∀ j, j < e.2.length → nth e.2 j 0 = nth bs (e.1 - o + j) 0

/-- An address of a piece. -/
def inPiece (e : Nat × List Byte) (a : Nat) : Prop := e.1 ≤ a ∧ a < e.1 + e.2.length

/-- What a piece holds at one of its addresses. -/
theorem pieceOf.at_mem {o a : Nat} {bs : List Byte} {e : Nat × List Byte} (h : pieceOf o bs e) (ha : inPiece e a) :
    o ≤ a ∧ a < o + bs.length ∧ nth e.2 (a - e.1) 0 = nth bs (a - o) 0 := by
  obtain ⟨hlow, hhigh⟩ := ha
  refine ⟨h.low.trans hlow, hhigh.trans_le h.high, ?_⟩
  rw [h.bytes _ (Nat.sub_lt_left_of_lt_add hlow hhigh), Nat.add_comm, Nat.sub_add_sub_cancel hlow h.low]

theorem pieceOf.trans {o : Nat} {bs : List Byte} {e w : Nat × List Byte} (h : pieceOf o bs e) (k : pieceOf e.1 e.2 w) :
    pieceOf o bs w := by
  refine ⟨h.low.trans k.low, k.high.trans h.high, fun j hj => ?_⟩
  obtain ⟨-, -, hat⟩ := h.at_mem (a := w.1 + j) ⟨k.low.trans (Nat.le_add_right _ j), (Nat.add_lt_add_left hj _).trans_le k.high⟩
  rw [k.bytes j hj, ← Nat.sub_add_comm k.low, hat, Nat.sub_add_comm (h.low.trans k.low)]

theorem gridPiece_length {c o u : Nat} {bs : List Byte} :
    (gridPiece c o bs u).2.length = min (u + c) (o + bs.length) - max u o := by
  simp only [gridPiece, List.length_take, List.length_drop]
  refine Nat.min_eq_left ((Nat.sub_le_sub_right (Nat.min_le_right _ _) _).trans ?_)
  obtain ⟨k, hk⟩ := Nat.exists_eq_add_of_le (Nat.le_max_right u o)
  rw [hk, Nat.add_sub_add_left, Nat.add_sub_cancel_left]

/-- Where a piece that is not empty ends. -/
theorem gridPiece_end {c o u : Nat} {bs : List Byte} (h : max u o ≤ min (u + c) (o + bs.length)) :
    (gridPiece c o bs u).1 + (gridPiece c o bs u).2.length = min (u + c) (o + bs.length) := by
  rw [gridPiece_length]
  exact Nat.add_sub_of_le h

theorem pieceOf_grid {c o u : Nat} {bs : List Byte} (h : max u o ≤ min (u + c) (o + bs.length)) :
    pieceOf o bs (gridPiece c o bs u) := by
  refine ⟨Nat.le_max_right u o, (gridPiece_end h).trans_le (Nat.min_le_right _ _), fun j hj => ?_⟩
  rw [gridPiece_length] at hj
  simp only [gridPiece, nth, List.getD_eq_getElem?_getD, List.getElem?_take, List.getElem?_drop, if_pos hj]

theorem inPiece_grid {c o u a : Nat} {bs : List Byte} (hlow : o ≤ a) (hhigh : a < o + bs.length) (hu : u ≤ a) (hc : a < u + c) :
    inPiece (gridPiece c o bs u) a := by
  have hend : a < min (u + c) (o + bs.length) := lt_min hc hhigh
  have hstart : max u o ≤ a := max_le hu hlow
  exact ⟨hstart, hend.trans_eq (gridPiece_end (hstart.trans hend.le)).symm⟩

/-- The multiples of `c` whose `c` bytes touch the `len` bytes from `o`. -/
def gridOf (c o len : Nat) : List Nat := (List.range ((o + len + (c - 1)) / c - o / c)).map (fun i => (o / c + i) * c)

theorem wordsOf_eq (o len : Nat) : wordsOf o len = gridOf 8 o len := rfl

theorem unitsOf_eq {o len : Nat} (h : 0 < len) : unitsOf o len = gridOf 64 o len := if_neg h.ne'

theorem mem_gridOf {c o len w : Nat} (hc : 0 < c) : w ∈ gridOf c o len ↔ w % c = 0 ∧ o < w + c ∧ w < o + len := by
  have hstart (k : Nat) : o / c ≤ k ↔ o < k * c + c := by rw [← Nat.lt_succ_iff, Nat.div_lt_iff_lt_mul hc, Nat.succ_mul]
  have hend (k : Nat) : k < (o + len + (c - 1)) / c ↔ k * c < o + len := by
    rw [Nat.lt_iff_add_one_le, Nat.le_div_iff_mul_le hc, Nat.succ_mul, ← Nat.add_sub_assoc (Nat.succ_le_of_lt hc),
      Nat.le_sub_one_iff_lt (Nat.add_pos_right _ hc), Nat.add_lt_add_iff_right]
  simp only [gridOf, List.mem_map, List.mem_range]
  constructor
  · rintro ⟨i, hi, rfl⟩
    exact ⟨Nat.mul_mod_left _ _, (hstart _).mp (Nat.le_add_right _ _), (hend _).mp (Nat.add_lt_of_lt_sub' hi)⟩
  · rintro ⟨hw, hlow, hhigh⟩
    obtain ⟨k, rfl⟩ := Nat.dvd_of_mod_eq_zero hw
    rw [Nat.mul_comm c k] at hlow hhigh ⊢
    have hk := (hstart k).mpr hlow
    exact ⟨k - o / c, Nat.sub_lt_sub_right hk ((hend k).mpr hhigh), by rw [Nat.add_sub_of_le hk]⟩

/-- The multiple of `c` below an address touches what the address is in. -/
theorem floor_mem_gridOf {c o len a : Nat} (hc : 0 < c) (hlow : o ≤ a) (hhigh : a < o + len) : a / c * c ∈ gridOf c o len :=
  (mem_gridOf hc).mpr ⟨Nat.mul_mod_left _ _, hlow.trans_lt (Nat.lt_div_mul_add hc), (Nat.div_mul_le_self a c).trans_lt hhigh⟩

/-- The pieces of a grid hold the whole string. -/
theorem gridPieces_spec {c o : Nat} {bs : List Byte} (hc : 0 < c) (h : 0 < bs.length) :
    (∀ e ∈ (gridOf c o bs.length).map (gridPiece c o bs), pieceOf o bs e ∧ 0 < e.2.length) ∧
    ∀ a, o ≤ a → a < o + bs.length → ∃ e ∈ (gridOf c o bs.length).map (gridPiece c o bs), inPiece e a := by
  refine ⟨fun e he => ?_, fun a hlow hhigh => ⟨_, List.mem_map_of_mem (floor_mem_gridOf hc hlow hhigh), ?_⟩⟩
  · obtain ⟨u, hu, rfl⟩ := List.mem_map.mp he
    obtain ⟨-, hlow, hhigh⟩ := (mem_gridOf hc).mp hu
    have hpos : max u o < min (u + c) (o + bs.length) :=
      lt_min (max_lt (Nat.lt_add_of_pos_right hc) hlow) (max_lt hhigh (Nat.lt_add_of_pos_right h))
    refine ⟨pieceOf_grid hpos.le, ?_⟩
    rw [gridPiece_length]
    exact Nat.sub_pos_of_lt hpos
  · exact inPiece_grid hlow hhigh (Nat.div_mul_le_self a c) (Nat.lt_div_mul_add hc)

/-- The pieces of the words hold the whole string. -/
theorem wordPieces_spec {o : Nat} {bs : List Byte} (h : 0 < bs.length) :
    (∀ e ∈ wordPieces o bs, pieceOf o bs e ∧ 0 < e.2.length) ∧
    ∀ a, o ≤ a → a < o + bs.length → ∃ e ∈ wordPieces o bs, inPiece e a := by
  rw [wordPieces_eq, wordsOf_eq]
  exact gridPieces_spec (by decide) h

/-- Few units touch a run of bytes. -/
theorem gridOf_few (o len : Nat) : 2 * ((o + len + (64 - 1)) / 64 - o / 64) ≤ len / 32 + 4 := by
  have hfirst : o + 1 ≤ 64 * (o / 64) + 64 := Nat.lt_mul_div_succ o (by decide)
  have hlast : o + len + (64 - 1) ≤ 64 * (o / 64) + (len + 128) := by lia
  calc 2 * ((o + len + (64 - 1)) / 64 - o / 64)
      ≤ 2 * ((len + 128) / 64) :=
        Nat.mul_le_mul_left 2 (Nat.sub_le_of_le_add (by
          rw [Nat.add_comm ((len + 128) / 64), ← Nat.mul_add_div (by decide)]
          exact Nat.div_le_div_right hlast))
    _ = 2 * ((len + 128) / 32 / 2) := by rw [Nat.div_div_eq_div_mul]
    _ ≤ (len + 128) / 32 := Nat.mul_div_le _ 2
    _ = len / 32 + 4 := Nat.add_mul_div_right len 4 (by decide : 0 < 32)

/-- The pieces of the units hold the whole string; there are few of them. -/
theorem unitPieces_spec (o : Nat) (bs : List Byte) :
    (∀ e ∈ unitPieces o bs, pieceOf o bs e ∧ 0 < e.2.length) ∧
    (∀ a, o ≤ a → a < o + bs.length → ∃ e ∈ unitPieces o bs, inPiece e a) ∧
    2 * (unitPieces o bs).length ≤ bs.length / 32 + 4 := by
  rw [unitPieces_eq]
  by_cases h : 0 < bs.length
  · rw [unitsOf_eq h]
    obtain ⟨hpieces, hcover⟩ := gridPieces_spec (c := 64) (o := o) (by decide) h
    refine ⟨hpieces, hcover, ?_⟩
    rw [List.length_map, gridOf, List.length_map, List.length_range]
    exact gridOf_few o bs.length
  · have hzero : bs.length = 0 := Nat.eq_zero_of_not_pos h
    rw [hzero]
    exact ⟨fun e he => absurd he List.not_mem_nil, fun a hlow hhigh => absurd hhigh (Nat.not_lt.mpr hlow), Nat.zero_le _⟩

/-! ### The check bits of a word -/

/-- The bytes below the quarter-local part are dealt out over the stacks. -/
theorem dramMap_dealt {l o : Nat} (h : o < (576 - 8 * l) * 2 ^ 30) :
    dramMap l o = ⟨stackId ((o / 2 ^ 12 % 8) ^^^ (o / 2 ^ 21 % 8)), o / 2 ^ 7 % 32, o / 32768 * 4096 + o % 4096⟩ := if_pos h

/-- The bytes of the quarter-local part, `r` from its start. -/
theorem dramMap_local {l o : Nat} (h : ¬ o < (576 - 8 * l) * 2 ^ 30) :
    dramMap l o =
      ⟨stackId (2 * ((o - (576 - 8 * l) * 2 ^ 30) / (2 * l * 2 ^ 30)) +
          (((o - (576 - 8 * l) * 2 ^ 30) % (2 * l * 2 ^ 30) / 2 ^ 12 % 2) ^^^
            ((o - (576 - 8 * l) * 2 ^ 30) % (2 * l * 2 ^ 30) / 2 ^ 21 % 2))),
        (o - (576 - 8 * l) * 2 ^ 30) % (2 * l * 2 ^ 30) / 2 ^ 7 % 32,
        (72 - l) * 2 ^ 30 + (o - (576 - 8 * l) * 2 ^ 30) % (2 * l * 2 ^ 30) / 8192 * 4096 +
          (o - (576 - 8 * l) * 2 ^ 30) % (2 * l * 2 ^ 30) % 4096⟩ := if_neg h

/-- A multiple of 8 does not separate the bytes of a word. -/
theorem floor8_div (v k : Nat) : v / 8 * 8 / (8 * k) = v / (8 * k) := by
  rw [← Nat.div_div_eq_div_mul, Nat.mul_div_cancel _ (by decide), Nat.div_div_eq_div_mul]

theorem floor8_mod (v k : Nat) : v / 8 * 8 % (8 * k) = v % (8 * k) / 8 * 8 := by
  rw [Nat.mul_comm (v / 8) 8, Nat.mul_mod_mul_left, Nat.mod_mul_right_div_self, Nat.mul_comm]

theorem floor8_le {v k : Nat} (h : 8 * k ≤ v) : 8 * k ≤ v / 8 * 8 := by
  rw [Nat.mul_comm (v / 8)]
  exact Nat.mul_le_mul_left 8 ((Nat.le_div_iff_mul_le (by decide)).mpr (by rwa [Nat.mul_comm]))

theorem floor8_sub (v k : Nat) : v / 8 * 8 - 8 * k = (v - 8 * k) / 8 * 8 := by
  rw [Nat.sub_mul_div, Nat.sub_mul, Nat.mul_comm k]

/-- The word of the byte `v` of a row, counted from a multiple of 8. -/
theorem floor8_row (v x : Nat) : (8 * x + v / 8 * 8 % 4096) / 8 = (8 * x + v % 4096) / 8 := by
  rw [show 4096 = 8 * 512 from rfl, floor8_mod, Nat.mul_add_div (by decide), Nat.mul_add_div (by decide),
    Nat.mul_div_cancel _ (by decide)]

theorem wordKey_dealt (o : Nat) :
    wordKey (stackId ((o / 8 * 8 / 2 ^ 12 % 8) ^^^ (o / 8 * 8 / 2 ^ 21 % 8))) (o / 8 * 8 / 32768 * 4096 + o / 8 * 8 % 4096) =
      wordKey (stackId ((o / 2 ^ 12 % 8) ^^^ (o / 2 ^ 21 % 8))) (o / 32768 * 4096 + o % 4096) := by
  have haddr (y : Nat) : y * 4096 = 8 * (y * 512) := by ring
  rw [wordKey, wordKey, show 2 ^ 12 = 8 * 512 from rfl, show 2 ^ 21 = 8 * 2 ^ 18 from rfl, show 32768 = 8 * 4096 from rfl,
    floor8_div, floor8_div, floor8_div, haddr, floor8_row]

/-- Every byte of a word shares the word's check bits. -/
theorem wordKey_dramMap (l o : Nat) :
    wordKey (dramMap l (o / 8 * 8)).stack (dramMap l (o / 8 * 8)).addr = wordKey (dramMap l o).stack (dramMap l o).addr := by
  by_cases h : o < (576 - 8 * l) * 2 ^ 30
  · rw [dramMap_dealt h, dramMap_dealt (l := l) (Nat.lt_of_le_of_lt (Nat.div_mul_le_self o 8) h)]
    exact wordKey_dealt o
  · have hm : 2 * l * 2 ^ 30 = 8 * (2 * l * 2 ^ 27) := by ring
    have hstart : (576 - 8 * l) * 2 ^ 30 = 8 * ((576 - 8 * l) * 2 ^ 27) := by ring
    have hlow : ¬ o / 8 * 8 < (576 - 8 * l) * 2 ^ 30 := by
      rw [hstart] at h ⊢
      exact Nat.not_lt.mpr (floor8_le (Nat.not_lt.mp h))
    have hsub : o / 8 * 8 - (576 - 8 * l) * 2 ^ 30 = (o - (576 - 8 * l) * 2 ^ 30) / 8 * 8 := by rw [hstart, floor8_sub]
    rw [dramMap_local h, dramMap_local hlow, wordKey, wordKey, hsub, hm, floor8_div, floor8_mod]
    generalize (o - (576 - 8 * l) * 2 ^ 30) % (8 * (2 * l * 2 ^ 27)) = v
    have haddr (y : Nat) : (72 - l) * 2 ^ 30 + y * 4096 = 8 * ((72 - l) * 2 ^ 27 + y * 512) := by ring
    rw [haddr, haddr, floor8_row, show 2 ^ 12 = 8 * 512 by decide, show 2 ^ 21 = 8 * 262144 by decide,
      show 8192 = 8 * 1024 by decide, floor8_div, floor8_div, floor8_div]

theorem State.badAt_word (s : State) (o : Nat) : s.badAt (o / 8 * 8) = s.badAt o := by
  unfold State.badAt State.loc
  rw [wordKey_dramMap]

/-- Every byte of a run of good words is good. -/
theorem dramClean.byte {s : State} {o len a : Nat} (h : dramClean s o len) (hlow : o ≤ a) (hhigh : a < o + len) :
    s.badAt a = 0 := by
  rw [← State.badAt_word]
  refine h _ ?_
  rw [wordsOf_eq]
  exact floor_mem_gridOf (by decide) hlow hhigh

/-! ### Bytes written over a run of good words -/

/-- A register in which the Porters count the Curator's grants and waits. -/
def curatorCount (a : Nat) : Prop := ∃ k, a = Reg.memGrants k 8 ∨ a = Reg.memWaitMax k 8

/-- The Curator is writing `bs` at `o`: the bytes at `cov` stand there, none apart from the run is written, good words stay
good, and nothing changes besides but the Porters' part. -/
structure writing (s : State) (o : Nat) (bs : List Byte) (cov : Nat → Prop) (t : State) : Prop where
  frame : t = { s with regs := t.regs, evts := t.evts, stk := t.stk, dram := t.dram, dramBad := t.dramBad }
  regs : ∀ a, ¬ curatorCount a → t.rg a = s.rg a
  clean : ∀ w, s.badAt w = 0 → t.badAt w = 0
  inside : ∀ a, cov a → dramByte t a = nth bs (a - o) 0
  outside : ∀ a, ¬ (o ≤ a ∧ a < o + bs.length) → dramByte t a = dramByte s a

section
variable {s t : State} {o : Nat} {bs : List Byte} {cov : Nat → Prop} {e : Nat × List Byte}

theorem writing.refl (s : State) (o : Nat) (bs : List Byte) : writing s o bs (fun _ => False) s :=
  ⟨rfl, fun _ _ => rfl, fun _ h => h, fun _ h => h.elim, fun _ _ => rfl⟩

theorem writing.mono {cov' : Nat → Prop} (h : writing s o bs cov t) (hc : ∀ a, cov' a → cov a) : writing s o bs cov' t :=
  ⟨h.frame, h.regs, h.clean, fun a ha => h.inside a (hc a ha), h.outside⟩

/-- The registers of the map and of the limits are no counts. -/
theorem not_curatorCount {a : Nat} (h : a < 0x200040 ∨ ∃ k : Nat, a = 0x200000 + 0x20000 * k + 0x14) : ¬ curatorCount a := by
  have hplace (k : Nat) {i : Nat} (hi : i < 0x20000) : (0x200000 + 0x20000 * k + i) % 0x20000 = i := by
    rw [show 0x200000 + 0x20000 * k + i = 0x20000 * (16 + k) + i by ring, Nat.mul_add_mod, Nat.mod_eq_of_lt hi]
  have hcount {k i : Nat} (hlow : 0x40 ≤ i) (hhigh : i < 0x20000) : a ≠ 0x200000 + 0x20000 * k + i := by
    rintro rfl
    rcases h with h | ⟨j, h⟩
    · exact absurd h (Nat.not_lt.mpr (Nat.add_le_add (Nat.le_add_right _ _) hlow))
    · have hi : i = 0x14 := by rw [← hplace k hhigh, h, hplace j (by decide)]
      exact absurd hlow (by rw [hi]; decide)
  rintro ⟨k, hk | hk⟩
  · exact hcount (i := 0xA0) (by decide) (by decide) hk
  · exact hcount (i := 0x60) (by decide) (by decide) hk

theorem badAt_congr {u : State} (hmap : u.rg (Reg.memMap 0) = t.rg (Reg.memMap 0)) (hbad : u.dramBad = t.dramBad) (w : Nat) :
    u.badAt w = t.badAt w := by
  rw [State.badAt, State.badAt, State.loc, State.loc, State.rf, State.rf, hmap, hbad]

theorem writing.setBad (h : writing s o bs cov t) (w : Nat) : writing s o bs cov (t.setBad w 0) := by
  refine ⟨?_, h.regs, fun v hv => ?_, h.inside, h.outside⟩
  · unfold State.setBad
    rw [h.frame]
  · have hv' := h.clean v hv
    unfold State.badAt at hv' ⊢
    show Cells.get zeroNat (Cells.set zeroNat t.dramBad (wordKey (t.loc w).stack (t.loc w).addr) 0)
      (wordKey (t.loc v).stack (t.loc v).addr) = 0
    by_cases hk : wordKey (t.loc v).stack (t.loc v).addr = wordKey (t.loc w).stack (t.loc w).addr
    · rw [hk, Cells.get_set_self]
    · rw [Cells.get_set_ne _ _ _ hk, hv']

theorem writing.dramPut (h : writing s o bs cov t) (he : pieceOf o bs e) :
    writing s o bs (fun a => cov a ∨ inPiece e a) (t.dramPut e.1 e.2) := by
  have hbyte (a : Nat) : dramByte (t.dramPut e.1 e.2) a =
      if e.1 ≤ a ∧ a < e.1 + e.2.length then nth e.2 (a - e.1) 0 else dramByte t a :=
    Cells.get_write_nth _ _ _ _ _ 0
  refine ⟨?_, h.regs, h.clean, fun a ha => ?_, fun a ha => ?_⟩
  · unfold State.dramPut
    rw [h.frame]
  · rw [hbyte]
    by_cases hin : e.1 ≤ a ∧ a < e.1 + e.2.length
    · obtain ⟨-, -, hat⟩ := he.at_mem hin
      rw [if_pos hin, hat]
    · rw [if_neg hin, h.inside a (ha.resolve_right hin)]
  · have hout : ¬ (e.1 ≤ a ∧ a < e.1 + e.2.length) := fun hin =>
      have ⟨hlow, hhigh, _⟩ := he.at_mem hin
      ha ⟨hlow, hhigh⟩
    rw [hbyte, if_neg hout, h.outside a ha]

theorem writing.dramPutWords (h : writing s o bs cov t) (he : pieceOf o bs e) :
    writing s o bs (fun a => cov a ∨ inPiece e a) (t.dramPutWords e.1 e.2) := by
  unfold State.dramPutWords
  refine foldl_inv (writing s o bs (fun a => cov a ∨ inPiece e a)) _ (fun u w hu => ?_) _ _ (h.dramPut he)
  split
  · exact hu
  · exact hu.setBad w

/-- A part of a good word is written. -/
theorem State.dramMerge_clean {u : MemUser} (h : t.badAt e.1 = 0) : t.dramMerge e.1 e.2 u = (t.dramPut e.1 e.2, true) := by
  unfold State.dramMerge
  dsimp only
  rw [h, if_pos (by decide), if_pos rfl]

/-- One word of a piece is written. -/
def State.putWord (u : MemUser) (p : State × Bool) (w : Nat × List Byte) : State × Bool :=
  if w.2.length = 8 then (p.1.dramPutWords w.1 w.2, p.2)
  else ((p.1.dramMerge w.1 w.2 u).1, p.2 && (p.1.dramMerge w.1 w.2 u).2)

theorem writing.putWord {u : MemUser} {p : State × Bool} {w : Nat × List Byte} (h : writing s o bs cov p.1) (hok : p.2 = true)
    (hw : pieceOf o bs w) (hbad : p.1.badAt w.1 = 0) :
    (State.putWord u p w).2 = true ∧ writing s o bs (fun a => cov a ∨ inPiece w a) (State.putWord u p w).1 := by
  unfold State.putWord
  split
  · exact ⟨hok, h.dramPutWords hw⟩
  · rw [State.dramMerge_clean hbad, hok]
    exact ⟨rfl, h.dramPut hw⟩

/-- What the first of some pieces covers, apart from what the others do. -/
theorem covered_cons {c : Nat → Prop} {w : Nat × List Byte} {l : List (Nat × List Byte)} {a : Nat}
    (h : c a ∨ ∃ v ∈ w :: l, inPiece v a) : (c a ∨ inPiece w a) ∨ ∃ v ∈ l, inPiece v a := by
  rwa [List.exists_mem_cons_iff, ← or_assoc] at h

/-- A piece of one unit is written, word by word. -/
theorem writing.dramPiece {u : MemUser} (h : writing s o bs cov t) (he : pieceOf o bs e) (hpos : 0 < e.2.length)
    (hclean : dramClean s o bs.length) :
    (t.dramPiece e u).2 = true ∧ writing s o bs (fun a => cov a ∨ inPiece e a) (t.dramPiece e u).1 := by
  obtain ⟨hpieces, hcover⟩ := wordPieces_spec (o := e.1) hpos
  have hfold : ∀ (l : List (Nat × List Byte)) (p : State × Bool) (c : Nat → Prop), (∀ w ∈ l, pieceOf e.1 e.2 w ∧ 0 < w.2.length) →
      p.2 = true → writing s o bs c p.1 →
      (l.foldl (State.putWord u) p).2 = true ∧
      writing s o bs (fun a => c a ∨ ∃ w ∈ l, inPiece w a) (l.foldl (State.putWord u) p).1 := by
    intro l
    induction l with
    | nil => exact fun p c _ hok hw => ⟨hok, hw.mono (fun a ha => ha.resolve_right (by simp))⟩
    | cons w l ih =>
      intro p c hl hok hw
      obtain ⟨hwe, hwpos⟩ := hl w List.mem_cons_self
      have hwo := he.trans hwe
      have hbad : p.1.badAt w.1 = 0 :=
        hw.clean _ (dramClean.byte hclean hwo.low ((Nat.lt_add_of_pos_right hwpos).trans_le hwo.high))
      obtain ⟨hok', hw'⟩ := hw.putWord (u := u) hok hwo hbad
      obtain ⟨hokl, hwl⟩ := ih _ _ (fun v hv => hl v (List.mem_cons_of_mem _ hv)) hok' hw'
      exact ⟨hokl, hwl.mono (fun a ha => covered_cons ha)⟩
  obtain ⟨hok, hw⟩ := hfold (wordPieces e.1 e.2) (t, true) cov hpieces rfl h
  refine ⟨hok, hw.mono (fun a ha => ha.imp_right (fun ha => ?_))⟩
  exact hcover a ha.1 ha.2

/-! ### The Porters' part of a locked sequence (R341, R342) -/

theorem writing.porter {u : State} (h : writing s o bs cov t) (hu : u = { t with regs := u.regs, evts := u.evts, stk := u.stk })
    (hregs : ∀ a, ¬ curatorCount a → u.rg a = t.rg a) : writing s o bs cov u := by
  have hdram : u.dram = t.dram := by rw [hu]
  have hbad : u.dramBad = t.dramBad := by rw [hu]
  refine ⟨?_, fun a ha => (hregs a ha).trans (h.regs a ha), fun w hw => ?_, fun a ha => ?_, fun a ha => ?_⟩
  · rw [hu, h.frame]
  · rw [badAt_congr (hregs _ (not_curatorCount (Or.inl (by decide)))) hbad]
    exact h.clean w hw
  · rw [dramByte, hdram]; exact h.inside a ha
  · rw [dramByte, hdram]; exact h.outside a ha

theorem writing.waited (h : writing s o bs cov t) (k : StackId) (n : Nat) :
    writing s o bs cov (t.waited k MemUser.curator.index n) := by
  refine h.porter rfl (fun a ha => State.rg_setRg_ne t _ (fun he => ha ⟨k.val, Or.inr he⟩))

theorem writing.seqGrants (h : writing s o bs cov t) (k : StackId) (c at_ n : Nat) :
    writing s o bs cov (t.seqGrants k c at_ n .curator) := by
  refine h.porter rfl (fun a ha => State.rg_setRg_ne t _ (fun he => ha ⟨k.val, Or.inl he⟩))

/-- The limit on a locked sequence stands while it is written, and is met before any grant before one that meets it. -/
theorem writing.inHold (h : writing s o bs cov t) {k : StackId} {i j : Nat} (hi : s.inHold k i = true) (hj : j ≤ i) :
    t.inHold k j = true := by
  have hpwr : t.rg Reg.pwrStatus = s.rg Reg.pwrStatus := h.regs _ (not_curatorCount (Or.inl (by decide)))
  have hmax : t.rg (Reg.memHoldMax k.val) = s.rg (Reg.memHoldMax k.val) := h.regs _ (not_curatorCount (Or.inr ⟨k.val, rfl⟩))
  have hcur : t.cur = s.cur := by rw [h.frame]
  have hrate : t.grantRate k = s.grantRate k := by unfold State.grantRate State.rf; rw [hcur, hpwr]
  have hhold : t.holdMax k = s.holdMax k := by unfold State.holdMax State.rf; rw [hmax]
  unfold State.inHold at hi ⊢
  rw [hrate, hhold]
  refine decide_eq_true (Nat.le_trans ?_ (of_decide_eq_true hi))
  exact Nat.div_le_div_right (Nat.sub_le_sub_right (Nat.add_le_add_right (Nat.mul_le_mul_left 8 hj) _) 1)

/-- A locked write after `n` pieces that the limit has allowed. -/
structure lockedTo (s : State) (o : Nat) (bs : List Byte) (cov : Nat → Prop) (n : Nat) (r : LockRun) : Prop where
  writes : writing s o bs cov r.s
  cut : r.cut = []
  ok : r.ok = true
  past : r.past = false
  made : ∀ key, Cells.get zeroNat r.made key ≤ 2 * n

theorem lockedTo.next {r : LockRun} {n i : Nat} (h : lockedTo s o bs cov n r) (he : pieceOf o bs e) (hpos : 0 < e.2.length)
    (hclean : dramClean s o bs.length) (hroom : ∀ k, s.inHold k i = true) (hn : 2 * n + 1 ≤ i) :
    lockedTo s o bs (fun a => cov a ∨ inPiece e a) (n + 1) (r.next .curator e) := by
  have hgrants : pieceGrants e ≤ 2 := by unfold pieceGrants; split <;> decide
  unfold LockRun.next
  dsimp only
  generalize hl : r.s.loc e.1 = l
  have hmade := h.made (l.stack.val * 32 + l.chan)
  generalize hm : Cells.get zeroNat r.made (l.stack.val * 32 + l.chan) = m at hmade
  generalize hs1 : (if m = 0 then r.s.waited l.stack MemUser.curator.index
    ((if m = 0 then r.s.seqStart l.stack l.chan (r.s.holdMax l.stack) .curator
      else (r.s.sk l.stack).freeFrom l.chan r.s.ctlCycle) - r.s.ctlCycle) else r.s) = s1
  have hs : writing s o bs cov s1 := by
    rw [← hs1]
    split
    · exact h.writes.waited _ _
    · exact h.writes
  rw [h.cut, if_neg (by simp), if_pos (hs.inHold (hroom _) (Nat.sub_le_of_le_add ((Nat.add_le_add hmade hgrants).trans (Nat.succ_le_succ hn))))]
  obtain ⟨hok, hw⟩ := (hs.seqGrants l.stack l.chan (if m = 0 then r.s.seqStart l.stack l.chan (r.s.holdMax l.stack) .curator
    else (r.s.sk l.stack).freeFrom l.chan r.s.ctlCycle) (pieceGrants e)).dramPiece (u := .curator) he hpos hclean
  refine ⟨hw, rfl, by rw [h.ok, hok]; rfl, h.past, fun key => ?_⟩
  dsimp only
  by_cases hk : key = l.stack.val * 32 + l.chan
  · rw [hk, Cells.get_set_self]
    exact Nat.add_le_add hmade hgrants
  · rw [Cells.get_set_ne _ _ _ hk]
    exact (h.made key).trans (Nat.mul_le_mul_left 2 (Nat.le_succ n))

/-- A locked write that the limit allows, of good words. -/
theorem State.lockedWrite_clean (s : State) (o : Nat) (bs : List Byte) (hclean : dramClean s o bs.length)
    (hroom : ∀ k, s.inHold k (bs.length / 32 + 4) = true) :
    let r := s.lockedWrite .curator (unitPieces o bs)
    r.ok = true ∧ r.past = false ∧ writing s o bs (fun a => o ≤ a ∧ a < o + bs.length) r.s := by
  obtain ⟨hpieces, hcover, hfew⟩ := unitPieces_spec o bs
  have hfold : ∀ (l : List (Nat × List Byte)) (r : LockRun) (c : Nat → Prop) (n : Nat), (∀ e ∈ l, pieceOf o bs e ∧ 0 < e.2.length) →
      lockedTo s o bs c n r → 2 * (n + l.length) ≤ bs.length / 32 + 4 →
      lockedTo s o bs (fun a => c a ∨ ∃ e ∈ l, inPiece e a) (n + l.length) (l.foldl (fun r e => r.next .curator e) r) := by
    intro l
    induction l with
    | nil => exact fun r c n _ h _ => ⟨h.writes.mono (fun a ha => ha.resolve_right (by simp)), h.cut, h.ok, h.past, h.made⟩
    | cons e l ih =>
      intro r c n hl h hn
      rw [List.length_cons] at hn ⊢
      obtain ⟨he, hpos⟩ := hl e List.mem_cons_self
      have hcount : n + 1 + l.length = n + (l.length + 1) := Nat.add_right_comm n 1 _
      have hfits : 2 * n + 1 ≤ bs.length / 32 + 4 := le_trans (by lia) hn
      have hstep := ih (r.next .curator e) _ (n + 1) (fun v hv => hl v (List.mem_cons_of_mem _ hv))
        (h.next he hpos hclean hroom hfits) (by rwa [hcount])
      rw [hcount] at hstep
      exact ⟨hstep.writes.mono (fun a ha => covered_cons ha), hstep.cut, hstep.ok, hstep.past, hstep.made⟩
  have hrun := hfold (unitPieces o bs) ⟨s, [], [], true, false⟩ (fun _ => False) 0 hpieces
    ⟨.refl s o bs, rfl, rfl, rfl, fun _ => Nat.le_refl _⟩ (by rwa [Nat.zero_add])
  exact ⟨hrun.ok, hrun.past, hrun.writes.mono (fun a ha => Or.inr (hcover a ha.1 ha.2))⟩

end

end Sys2Proof.Machine
end

section
/-! SUPPORT. Mailbox commands and their completion (O39). -/

namespace Sys2Proof.Machine

open Sys2Proof

/-! ### The bytes that a command puts into DRAM (Table 15.1) -/

section
variable {s : State} {m : Mail}

theorem State.mailIs_of (hmail : s.cur.mail = some m) (hready : s.curReady = true) (hdone : m.done = none) {op : Nat}
    (hop : m.op = op) : s.mailIs op = true := by
  unfold State.mailIs
  rw [hready, hmail]
  simp [hdone, hop]

/-- What a command leaves that ends with status `st` and response `rsp`. -/
def mailEnds (m : Mail) (st : Nat) (rsp : List Word) (t : State) : Prop := t.cur.mail = some { m with done := some (st, rsp) }

theorem mailEnds_mailDone (hmail : s.cur.mail = some m) (st : Nat) (rsp : List Word) : mailEnds m st rsp (s.mailDone st rsp) := by
  show s.cur.mail.map _ = _
  rw [hmail]
  rfl

/-- What a command leaves that puts `bs` at `d` of DRAM, and nothing else anywhere. -/
def mailPuts (s : State) (d : Nat) (bs : List Byte) (t : State) : Prop :=
  (∀ a, dramByte t a = if d ≤ a ∧ a < d + bs.length then nth bs (a - d) 0 else dramByte s a) ∧
  t.stn = s.stn ∧ t.prt = s.prt ∧ t.flash = s.flash ∧ t.out = s.out ∧ t.cat = s.cat ∧
  (∀ a, (∀ k, a ≠ Reg.memGrants k 8 ∧ a ≠ Reg.memWaitMax k 8) → t.rg a = s.rg a)

theorem writing.mailPuts {v : State} {d : Nat} {bs : List Byte} (h : writing s d bs (fun a => d ≤ a ∧ a < d + bs.length) v)
    (st : Nat) (rsp : List Word) : mailPuts s d bs (v.mailDone st rsp) := by
  have hframe := h.frame
  refine ⟨fun a => ?_, ?_, ?_, ?_, ?_, ?_, fun a ha => h.regs a ?_⟩
  · by_cases hin : d ≤ a ∧ a < d + bs.length
    · rw [if_pos hin]; exact h.inside a hin
    · rw [if_neg hin]; exact h.outside a hin
  · show v.stn = _; rw [hframe]
  · show v.prt = _; rw [hframe]
  · show v.flash = _; rw [hframe]
  · show v.out = _; rw [hframe]
  · show v.cat = _; rw [hframe]
  · rintro ⟨k, hk⟩
    obtain ⟨hgrants, hwait⟩ := ha k
    exact hk.elim hgrants hwait

/-- A command's bytes go to good words within the limit. -/
theorem State.mailPut_clean {d : Nat} {bs : List Byte} (rsp : List Word) (hclean : dramClean s d bs.length)
    (hroom : ∀ k, s.inHold k (bs.length / 32 + 4) = true) :
    ∃ v, writing s d bs (fun a => d ≤ a ∧ a < d + bs.length) v ∧ s.mailPut d bs rsp = v.mailDone 0 rsp := by
  obtain ⟨hok, hpast, hw⟩ := s.lockedWrite_clean d bs hclean hroom
  refine ⟨_, hw, ?_⟩
  unfold State.mailPut
  dsimp only
  rw [hok, hpast]
  rfl

/-! ### FLASH_READ, MIRROR_READ and ATTEST -/

/-- The arguments of a FLASH_READ are in range. -/
def flashFits (s : State) : Prop :=
  s.arg 0 % 64 = 0 ∧ s.arg 1 % 64 = 0 ∧ s.arg64 2 % 64 = 0 ∧ s.arg 1 ≤ 65536 ∧ s.arg 0 + s.arg 1 ≤ 0x10000000 ∧
  s.arg64 2 + s.arg 1 ≤ dramSize

theorem flashFits_iff (s : State) : ¬ (s.arg 0 % 64 ≠ 0 ∨ s.arg 1 % 64 ≠ 0 ∨ s.arg64 2 % 64 ≠ 0 ∨ 65536 < s.arg 1 ∨
    0x10000000 < s.arg 0 + s.arg 1 ∨ dramSize < s.arg64 2 + s.arg 1) ↔ flashFits s := by
  simp only [flashFits, not_or, not_lt, ne_eq, not_not]

theorem State.length_flashRead (s : State) (o n : Nat) : (s.flashRead o n).length = n := by
  unfold State.flashRead
  split
  · exact Cells.read_length _ _ _ _
  · rw [List.length_map, List.length_range]

theorem exec_flashRead_fits (hmail : s.mailIs 0x10 = true) (hfits : flashFits s) (hring : s.ringUp = true) :
    exec .flashRead s = .next (if (s.fresh 1).1 = 1 then (s.fresh 1).2.mailDone mailFlash []
      else (s.fresh 1).2.mailPut (s.arg64 2) ((s.fresh 1).2.flashRead (s.arg 0) (s.arg 1)) []) := by
  refine congrArg Host.Outcome.next ((if_pos hmail).trans ((if_neg ((flashFits_iff s).mpr hfits)).trans (if_neg ?_)))
  rw [hring]
  decide

theorem exec_flashRead_unfit (hmail : s.mailIs 0x10 = true) (hfits : ¬ flashFits s) :
    exec .flashRead s = .next (s.mailDone 2 []) :=
  congrArg Host.Outcome.next ((if_pos hmail).trans (if_pos (not_not.mp (fun h => hfits ((flashFits_iff s).mp h)))))

/-- The entries that a MIRROR_READ takes. -/
def mirrorCount (s : State) : Nat := min (s.arg 2) s.cur.mirrors.length

/-- The bytes of those entries. -/
def mirrorBytes (s : State) : List Byte := ((s.cur.mirrors.take (mirrorCount s)).map Mirror.entry).flatten

/-- The state in which those entries have left the ring. -/
def mirrorsOff (s : State) : State := { s with cur := { s.cur with mirrors := s.cur.mirrors.drop (mirrorCount s) } }

theorem exec_mirrorRead_fits (hmail : s.mailIs 0x20 = true) (hfits : s.arg64 0 + 320 * mirrorCount s ≤ dramSize)
    (hring : s.ringUp = true) :
    exec .mirrorRead s = .next ((mirrorsOff s).mailPut (s.arg64 0) (mirrorBytes s)
      [word (mirrorCount s), word (s.cur.mirrors.length - mirrorCount s)]) := by
  rw [← List.length_drop]
  refine congrArg Host.Outcome.next ((if_pos hmail).trans ((if_neg (Nat.not_lt.mpr hfits)).trans (if_neg ?_)))
  rw [hring]
  decide

/-- The nonce of an ATTEST. -/
def attestNonce (s : State) : List Byte := wordsToBytes ((List.range 8).map (fun i => s.rg (Reg.curArg i)))

theorem exec_attest_fits (hmail : s.mailIs 0x30 = true) (hfits : s.arg64 8 + 288 ≤ dramSize) (hring : s.ringUp = true) :
    exec .attest s = .next (s.mailPut (s.arg64 8) (s.report (attestNonce s)) []) := by
  refine congrArg Host.Outcome.next ((if_pos hmail).trans ((if_neg (Nat.not_lt.mpr hfits)).trans (if_neg ?_)))
  rw [hring]
  decide

theorem fit_length (n : Nat) (bs : List Byte) : (fit n bs).length = n := by
  rw [fit, zeros, List.length_append, List.length_take, List.length_replicate, Nat.add_comm, Nat.sub_add_min_cancel]

theorem wordsToBytes_length (l : List Word) : (wordsToBytes l).length = 4 * l.length := by
  induction l with
  | nil => rfl
  | cons w l ih => rw [wordsToBytes, List.length_append, toLE_length, ih, List.length_cons]; exact Nat.add_comm _ _

theorem State.length_report (s : State) (nonce : List Byte) : (s.report nonce).length = 288 := by
  unfold State.report State.reportBody
  simp only [List.length_append, fit_length, toLE_length, wordsToBytes_length, List.length_map, List.length_range, zeros,
    List.length_replicate]

/-- A command that puts its bytes into DRAM, with the response `rsp`. -/
theorem State.mailPut_ends {d : Nat} {bs : List Byte} (rsp : List Word) (hmail : s.cur.mail = some m)
    (hclean : dramClean s d bs.length) (hroom : ∀ k, s.inHold k (bs.length / 32 + 4) = true) :
    mailEnds m 0 rsp (s.mailPut d bs rsp) ∧ mailPuts s d bs (s.mailPut d bs rsp) ∧
      (s.mailPut d bs rsp).cur.mirrors = s.cur.mirrors := by
  obtain ⟨v, hw, hput⟩ := State.mailPut_clean rsp hclean hroom
  have hcur : v.cur = s.cur := by rw [hw.frame]
  rw [hput]
  refine ⟨mailEnds_mailDone (by rw [hcur, hmail]) 0 rsp, hw.mailPuts 0 rsp, ?_⟩
  show v.cur.mirrors = _
  rw [hcur]

end

/-- The commands of Table 15.1 that answer, or move bytes into DRAM. -/
theorem mailboxCommands : ∀ (s : State) (m : Mail), s.cur.mail = some m → s.curReady = true → m.done = none →
    let room (len : Nat) : Prop := s.ringUp = true ∧ ∀ k, s.inHold k (len / 32 + 4) = true
    (m.op = 0x01 → ∃ t, exec .echo s = .next t ∧
      mailEnds m 0 ((List.range (min 64 m.argw)).map (fun i => s.rg (Reg.curArg i))) t ∧
      t = { s with cur := { s.cur with mail := t.cur.mail } }) ∧
    (m.op = 0x02 → ∃ t, exec .info s = .next t ∧
      mailEnds m 0 [word Config.serial.toNat, word (Config.serial.toNat / 2 ^ 32), Config.firmwareVersion s.cur.fwCopy,
        word s.cur.fwCopy, word ((s.cycle - s.cur.relAt) / 1250000), word ((s.cycle - s.cur.relAt) / 1250000 / 2 ^ 32)] t ∧
      t = { s with cur := { s.cur with mail := t.cur.mail } }) ∧
    (m.op = 0x10 → flashFits s → room (s.arg 1) → dramClean s (s.arg64 2) (s.arg 1) → ∃ t, exec .flashRead s = .next t ∧
      if (s.fresh 1).1 = 1 then mailEnds m 6 [] t ∧ t = { (s.fresh 1).2 with cur := { s.cur with mail := t.cur.mail } }
      else mailEnds m 0 [] t ∧ mailPuts s (s.arg64 2) (s.flashRead (s.arg 0) (s.arg 1)) t) ∧
    (m.op = 0x10 → ¬ flashFits s → ∃ t, exec .flashRead s = .next t ∧ mailEnds m 2 [] t ∧
      t = { s with cur := { s.cur with mail := t.cur.mail } }) ∧
    (m.op = 0x20 → s.arg64 0 + 320 * mirrorCount s ≤ dramSize → room (mirrorBytes s).length →
      dramClean s (s.arg64 0) (mirrorBytes s).length → ∃ t, exec .mirrorRead s = .next t ∧
        mailEnds m 0 [word (mirrorCount s), word (s.cur.mirrors.length - mirrorCount s)] t ∧
        mailPuts s (s.arg64 0) (mirrorBytes s) t ∧ t.cur.mirrors = s.cur.mirrors.drop (mirrorCount s)) ∧
    (m.op = 0x30 → s.arg64 8 + 288 ≤ dramSize → room 288 → dramClean s (s.arg64 8) 288 → ∃ t, exec .attest s = .next t ∧
      mailEnds m 0 [] t ∧ mailPuts s (s.arg64 8) (s.report (attestNonce s)) t) := by
  intro s m hmail hready hdone room
  refine ⟨fun hop => ?_, fun hop => ?_, fun hop hfits hroom hclean => ?_, fun hop hfits => ?_,
    fun hop hfits hroom hclean => ?_, fun hop hfits hroom hclean => ?_⟩
  · refine ⟨_, congrArg Host.Outcome.next (if_pos (State.mailIs_of hmail hready hdone hop)), ?_, rfl⟩
    simp only [hmail]
    exact mailEnds_mailDone hmail 0 _
  · exact ⟨_, congrArg Host.Outcome.next (if_pos (State.mailIs_of hmail hready hdone hop)), mailEnds_mailDone hmail 0 _, rfl⟩
  · refine ⟨_, exec_flashRead_fits (State.mailIs_of hmail hready hdone hop) hfits hroom.1, ?_⟩
    by_cases herr : (s.fresh 1).1 = 1
    · rw [if_pos herr, if_pos herr]
      exact ⟨mailEnds_mailDone (s := (s.fresh 1).2) hmail 6 [], rfl⟩
    · rw [if_neg herr, if_neg herr]
      have hlen := (s.fresh 1).2.length_flashRead (s.arg 0) (s.arg 1)
      obtain ⟨hends, hputs, -⟩ := State.mailPut_ends (s := (s.fresh 1).2) (d := s.arg64 2)
        (bs := (s.fresh 1).2.flashRead (s.arg 0) (s.arg 1)) [] hmail (by rw [hlen]; exact hclean) (by rw [hlen]; exact hroom.2)
      exact ⟨hends, hputs⟩
  · exact ⟨_, exec_flashRead_unfit (State.mailIs_of hmail hready hdone hop) hfits, mailEnds_mailDone hmail 2 [], rfl⟩
  · obtain ⟨hends, hputs, hmirrors⟩ := State.mailPut_ends (s := mirrorsOff s) (d := s.arg64 0) (bs := mirrorBytes s)
      [word (mirrorCount s), word (s.cur.mirrors.length - mirrorCount s)] hmail hclean hroom.2
    exact ⟨_, exec_mirrorRead_fits (State.mailIs_of hmail hready hdone hop) hfits hroom.1, hends, hputs, hmirrors⟩
  · have hlen := s.length_report (attestNonce s)
    obtain ⟨hends, hputs, -⟩ := State.mailPut_ends (d := s.arg64 8) (bs := s.report (attestNonce s)) [] hmail
      (by rw [hlen]; exact hclean) (by rw [hlen]; exact hroom.2)
    exact ⟨_, exec_attest_fits (State.mailIs_of hmail hready hdone hop) hfits hroom.1, hends, hputs⟩

/-! ### The answer of a command (R380) -/

/-- The response words are written. -/
def State.putRsp (s : State) (l : List (Word × Nat)) : State :=
  l.foldl (fun t e => if e.2 < 64 then t.setRg (Reg.curRspWord e.2) e.1 else t) s

theorem State.putRsp_frame (s : State) (l : List (Word × Nat)) : s.putRsp l = { s with regs := (s.putRsp l).regs } := by
  refine foldl_inv (fun t : State => t = { s with regs := t.regs }) _ (fun t e ht => ?_) l s rfl
  split
  · unfold State.setRg
    rw [ht]
  · exact ht

/-- The response words touch their registers only. -/
theorem State.rg_putRsp_ne (s : State) (l : List (Word × Nat)) {a : Nat} (h : a ∉ (List.range 64).map Reg.curRspWord) :
    (s.putRsp l).rg a = s.rg a := by
  refine foldl_inv (fun t : State => t.rg a = s.rg a) _ (fun t e ht => ?_) l s rfl
  split
  · next hlt =>
    rw [State.rg_setRg_ne _ _ (fun he => h (List.mem_map.mpr ⟨e.2, List.mem_range.mpr hlt, he.symm⟩)), ht]
  · exact ht

theorem State.rg_putRsp (rsp : List Word) {i : Nat} (hi : i < 64) (k : Nat) (s : State) :
    (s.putRsp (rsp.zipIdx k)).rg (Reg.curRspWord i) =
      if k ≤ i then nth rsp (i - k) (s.rg (Reg.curRspWord i)) else s.rg (Reg.curRspWord i) := by
  induction rsp generalizing k s with
  | nil => simp [State.putRsp, nth]
  | cons w rsp ih =>
    have hstep : s.putRsp ((w :: rsp).zipIdx k) =
        (if k < 64 then s.setRg (Reg.curRspWord k) w else s).putRsp (rsp.zipIdx (k + 1)) := rfl
    rw [hstep, ih]
    by_cases hk : k = i
    · subst hk
      rw [if_neg (Nat.not_succ_le_self k), if_pos (Nat.le_refl k), if_pos hi, State.rg_setRg_self, Nat.sub_self]
      rfl
    · have hrg : (if k < 64 then s.setRg (Reg.curRspWord k) w else s).rg (Reg.curRspWord i) = s.rg (Reg.curRspWord i) := by
        split
        · exact State.rg_setRg_ne s _ (fun h => hk (Nat.eq_of_mul_eq_mul_left (by decide) (Nat.add_left_cancel h)).symm)
        · rfl
      rw [hrg]
      by_cases hlt : k ≤ i
      · have hlt' : k + 1 ≤ i := Nat.lt_of_le_of_ne hlt hk
        rw [if_pos hlt, if_pos hlt', show i - k = i - (k + 1) + 1 from (Nat.sub_add_cancel (Nat.sub_pos_of_lt hlt')).symm]
        rfl
      · rw [if_neg hlt, if_neg (fun h => hlt (Nat.le_of_succ_le h))]

section
variable {s : State} {m : Mail}

/-- What the answer of a command leaves. -/
def mailAnswered (s : State) (m : Mail) (st : Nat) (rsp : List Word) (t : State) : Prop :=
  t.rg Reg.curRsp = word (st + m.tag * 2 ^ 8 + min 64 rsp.length * 2 ^ 16 + 2 ^ 31) ∧
  (∀ i, i < 64 → t.rg (Reg.curRspWord i) = nth rsp i (s.rg (Reg.curRspWord i))) ∧
  t.rbit Reg.curEvent 0 = true ∧ t.cur = { s.cur with mail := none } ∧
  regsButInt (Reg.curRsp :: Reg.curEvent :: (List.range 64).map Reg.curRspWord) s t ∧
  t = { s with regs := t.regs, evts := t.evts, out := t.out, cur := t.cur }

/-- The word of CUR_RSP. -/
def rspWord (m : Mail) (st : Nat) (rsp : List Word) : Word := word (st + m.tag * 2 ^ 8 + min 64 rsp.length * 2 ^ 16 + 2 ^ 31)

/-- The registers of an answer, before its event. -/
def mailAnswer (s : State) (v : Word) (rsp : List Word) : State :=
  { (s.putRsp rsp.zipIdx).setRg Reg.curRsp v with cur := { s.cur with mail := none } }

theorem State.answerMail_eq (s : State) (m : Mail) (st : Nat) (rsp : List Word) :
    s.answerMail m st rsp = (mailAnswer s (rspWord m st rsp) rsp).curEvent 0 := by
  have hcur (v : Word) : ((s.putRsp rsp.zipIdx).setRg Reg.curRsp v).cur = s.cur := by rw [State.setRg, State.putRsp_frame]
  unfold mailAnswer State.answerMail
  rw [← rspWord, ← State.putRsp]
  simp only [hcur]

theorem State.curEvent_eq (u : State) (i : Nat) :
    u.curEvent i = { u with regs := (u.curEvent i).regs, evts := (u.curEvent i).evts, out := (u.curEvent i).out } := by
  apply State.eq_of <;> simp

theorem rg_mailAnswer (s : State) (v : Word) (rsp : List Word) (a : Nat) :
    (mailAnswer s v rsp).rg a = if a = Reg.curRsp then v else (s.putRsp rsp.zipIdx).rg a := State.rg_setRg _ _ _ _

/-- What changes registers and the Curator's part only. -/
def curOnly (s u : State) : Prop := u = { s with regs := u.regs, cur := u.cur }

theorem curOnly.curEvent {s u t : State} (h : curOnly s u)
    (ht : t = { u with regs := t.regs, evts := t.evts, out := t.out }) :
    t = { s with regs := t.regs, evts := t.evts, out := t.out, cur := t.cur } := by
  unfold curOnly at h
  rw [ht, h]

theorem mailAnswer_frame (s : State) (v : Word) (rsp : List Word) : curOnly s (mailAnswer s v rsp) := by
  unfold curOnly mailAnswer State.setRg
  rw [State.putRsp_frame]

/-- A register of the Curator's is no interrupt register. -/
theorem not_intReg_cur {a : Nat} (hlow : 0x40000 ≤ a) : ¬ intReg a := by
  rintro (⟨-, h⟩ | ⟨-, h⟩) <;> exact absurd h (Nat.not_lt.mpr (le_trans (by decide) hlow))

theorem mailAnswered_answerMail (s : State) (m : Mail) (st : Nat) (rsp : List Word) :
    mailAnswered s m st rsp (s.answerMail m st rsp) := by
  rw [State.answerMail_eq]
  have hother {a : Nat} (hint : ¬ intReg a) (hne : a ≠ Reg.curEvent) :
      ((mailAnswer s (rspWord m st rsp) rsp).curEvent 0).rg a = (mailAnswer s (rspWord m st rsp) rsp).rg a :=
    State.rg_setStatus _ (by decide) hint hne
  refine ⟨?_, fun i hi => ?_, ?_, ?_, fun a ha hint => ?_, ?_⟩
  · rw [hother (not_intReg_cur (by decide)) (by decide), rg_mailAnswer, if_pos rfl]
    rfl
  · have hlow : 0x40200 ≤ Reg.curRspWord i := Nat.le_add_right _ _
    have hne : Reg.curRspWord i ≠ Reg.curRsp := (lt_of_lt_of_le (by decide) hlow).ne'
    have hnev : Reg.curRspWord i ≠ Reg.curEvent := (lt_of_lt_of_le (by decide) hlow).ne'
    rw [hother (not_intReg_cur (le_trans (by decide) hlow)) hnev, rg_mailAnswer, if_neg hne, State.rg_putRsp rsp hi 0 s,
      if_pos (Nat.zero_le i), Nat.sub_zero]
  · have hself := State.rg_setStatus_self (mailAnswer s (rspWord m st rsp) rsp) (a := Reg.curEvent) (i := 0) (v := 64)
      (by decide) (not_intReg_cur (by decide))
    rw [State.curEvent, State.rbit, hself]
    exact bitOf_set_self _ _ (by decide)
  · simp only [State.curEvent_frame]
    rfl
  · simp only [List.mem_cons, not_or] at ha
    obtain ⟨hrsp, hevent, hwords⟩ := ha
    rw [hother hint hevent, rg_mailAnswer, if_neg hrsp, State.rg_putRsp_ne _ _ hwords]
  · exact (mailAnswer_frame s (rspWord m st rsp) rsp).curEvent (State.curEvent_eq _ 0)

end

section
variable {s : State} {m : Mail}

theorem exec_mailboxComplete_done (hmail : s.cur.mail = some m) (hready : s.curReady = true) {st : Nat} {rsp : List Word}
    (hdone : m.done = some (st, rsp)) : exec .mailboxComplete s = .next (s.answerMail m st rsp) := by
  have hexec : exec .mailboxComplete s = execMailboxComplete s := rfl
  rw [hexec, execMailboxComplete, hmail]
  simp only [hready, Bool.not_true, Bool.false_eq_true, if_false, hdone]

theorem exec_mailboxComplete_waits (hmail : s.cur.mail = some m) (hready : s.curReady = true) (hdone : m.done = none) :
    exec .mailboxComplete s = .next (if m.op ∈ mailOps then s else s.answerMail m mailBadOp []) := by
  have hexec : exec .mailboxComplete s = execMailboxComplete s := rfl
  rw [hexec, execMailboxComplete, hmail]
  simp only [hready, Bool.not_true, Bool.false_eq_true, if_false, hdone, List.contains_iff_mem]

/-! ### STN_PROG (R72) -/

theorem Layout.fitPool_prog {l : Layout} (h : l.count 4 ≠ 0) : l.fitPool 65536 = some 4 := by
  refine firstBelow_some (by decide) (decide_eq_true ⟨Nat.pos_of_ne_zero h, by decide⟩) (fun c hc => decide_eq_false ?_)
  rintro ⟨-, hsize⟩
  have hsmall : ∀ c, c < 4 → poolSize c < 65536 := by decide
  exact absurd (hsmall c hc) (Nat.not_lt.mpr hsize)

/-- The staging block that the Curator takes and gives back. -/
def Stn.staged (x : Stn) (b at_ : Nat) (bs : List Byte) : Stn := ((x.giveBlk 4 b .curator 0).vitPut at_ bs).freeBlk 4 b

theorem Stn.usedOf_staged (x : Stn) (b at_ : Nat) (bs : List Byte) : (x.staged b at_ bs).usedOf 4 = x.usedOf 4 := by
  have hused : (x.staged b at_ bs).used =
      (x.used.set 4 (b :: nth x.used 4 [])).set 4 ((nth (x.used.set 4 (b :: nth x.used 4 [])) 4 []).erase b) := rfl
  rw [Stn.usedOf, hused, Stn.usedOf]
  by_cases h : 4 < x.used.length
  · rw [nth_set_self _ _ _ (by rw [List.length_set]; exact h), nth_set_self _ _ _ h, List.erase_cons_head]
  · simp [nth, h]

/-- What a program memory holds after `bs` are put at `o`. -/
theorem Stn.loadProg_spec (x : Stn) (mem o : Nat) (bs : List Byte) :
    (mem = 0 → (x.loadProg mem o bs).asMem = Cells.write zeroByte x.asMem o bs ∧ (x.loadProg mem o bs).xsMem = x.xsMem) ∧
    (mem = 1 → (x.loadProg mem o bs).xsMem = Cells.write zeroByte x.xsMem o bs ∧ (x.loadProg mem o bs).asMem = x.asMem) ∧
    (x.loadProg mem o bs).as = x.as ∧ (x.loadProg mem o bs).xs = x.xs ∧ (x.loadProg mem o bs).q = x.q ∧
    (x.loadProg mem o bs).used = x.used := by
  unfold Stn.loadProg
  by_cases h : mem = 0
  · rw [if_pos h]
    exact ⟨fun _ => ⟨rfl, rfl⟩, fun h1 => absurd (h.symm.trans h1) (by decide), rfl, rfl, rfl, rfl⟩
  · rw [if_neg h]
    exact ⟨fun h0 => absurd h0 h, fun _ => ⟨rfl, rfl⟩, rfl, rfl, rfl, rfl⟩

/-- The arguments of a STN_PROG are in range. -/
def progFits (s : State) : Prop :=
  s.arg 0 < 64 ∧ s.arg 1 < 2 ∧ s.arg 2 % 4 = 0 ∧ s.arg 3 % 4 = 0 ∧ s.arg 3 ≤ 65536 ∧ s.arg 2 + s.arg 3 ≤ progSize (s.arg 1) ∧
  s.arg64 4 + s.arg 3 ≤ dramSize

theorem progFits.not_bad (h : progFits s) : ¬ (64 ≤ s.arg 0 ∨ 2 ≤ s.arg 1 ∨ s.arg 2 % 4 ≠ 0 ∨ s.arg 3 % 4 ≠ 0 ∨ 65536 < s.arg 3 ∨
    progSize (s.arg 1) < s.arg 2 + s.arg 3 ∨ dramSize < s.arg64 4 + s.arg 3) := by
  simp only [not_or, not_le, not_lt, ne_eq, not_not]
  exact h

theorem exec_stnProg_running (hmail : s.mailIs 0x40 = true) (hfits : progFits s) (hst : (s.st (stnId (s.arg 0))).st = .running) :
    exec .stnProg s = .next (s.mailDone 3 []) := by
  refine congrArg Host.Outcome.next ((if_pos hmail).trans ((if_neg hfits.not_bad).trans (if_pos ?_)))
  simp [hst]

/-- The block that the Curator takes for a program, and the state after. -/
theorem State.alloc_prog {n : StnId} (hpool : (s.st n).lay.count 4 ≠ 0) {b : Nat} (hgiven : 4 ∉ (s.st n).cyc.given)
    (hrank : (s.st n).outranked s.ht 4 .curator 0 = false) (hlow : (s.st n).lowestFree 4 = some b) :
    s.alloc n .curator 0 65536 = some (4, b, (s.modSt n (fun x => x.giveBlk 4 b .curator 0)).clkLow n 4) := by
  unfold State.alloc
  rw [Layout.fitPool_prog hpool]
  simp only [List.contains_eq_mem, hgiven, decide_false, hrank, Bool.or_self, Bool.false_eq_true, if_false, hlow]

/-- The program's bytes `bs` pass through the block at `at_` into the memory. -/
def progPut (s u : State) (n : StnId) (b at_ : Nat) (bs : List Byte) : State :=
  ((u.vitWrite n at_ bs).modSt n (fun x => x.freeBlk 4 b)).modSt n (fun x => x.loadProg (s.arg 1) (s.arg 2) bs)

theorem st_progPut_ne {u : State} {n k : StnId} (b at_ : Nat) (bs : List Byte) (h : k ≠ n) :
    (progPut s u n b at_ bs).st k = u.st k := by
  rw [progPut, State.st_modSt_ne _ _ h, State.st_modSt_ne _ _ h, State.vitWrite, State.st_modSt_ne _ _ h]

theorem st_progPut_self {u : State} {n : StnId} (b at_ : Nat) (bs : List Byte) : (progPut s u n b at_ bs).st n =
    (((u.st n).vitPut at_ bs).freeBlk 4 b).loadProg (s.arg 1) (s.arg 2) bs := by
  rw [progPut, State.st_modSt_self, State.st_modSt_self, State.vitWrite, State.st_modSt_self]

/-- With a block given and the bytes read, the bytes pass through the block. The reading is a variable, for the kernel not
to evaluate it on the way through the branches. -/
theorem staged_given {n : StnId} {read : State → Nat → Nat → MemUser → State × Option (List Byte)} {w u v : State}
    {given : Option (Nat × Nat × State)} {bs : List Byte} {b d len : Nat} {who : MemUser} (hgiven : given = some (4, b, u))
    (hread : read u d len who = (v, some bs)) :
    (match (generalizing := false) given with
      | none => w
      | some (i, b, u) =>
        let r := read u d len who
        match r.2 with
        | none => (r.1.modSt n (fun x => x.freeBlk i b)).mailDone mailMem []
        | some bs =>
          let at_ := (u.st n).lay.start i + b * poolSize i
          (((r.1.vitWrite n at_ bs).modSt n (fun x => x.freeBlk i b)).modSt n
            (fun x => x.loadProg (s.arg 1) (s.arg 2) bs)).mailDone 0 []) =
      (progPut s v n b ((u.st n).lay.start 4 + b * poolSize 4) bs).mailDone 0 [] := by
  subst hgiven
  show (match (read u d len who).2 with
    | none => ((read u d len who).1.modSt n (fun x => x.freeBlk 4 b)).mailDone mailMem []
    | some bs => (progPut s (read u d len who).1 n b ((u.st n).lay.start 4 + b * poolSize 4) bs).mailDone 0 []) = _
  rw [hread]

theorem exec_stnProg_alloc (hmail : s.mailIs 0x40 = true) (hfits : progFits s) {n : StnId} (hn : stnId (s.arg 0) = n)
    (hup : s.stnUp n = true) (hst : (s.st n).st ≠ .running) (hring : s.ringUp = true) (hpool : (s.st n).lay.count 4 ≠ 0) {b : Nat}
    {u v : State} (halloc : s.alloc n .curator 0 65536 = some (4, b, u)) {bs : List Byte}
    (hread : u.dramRead (s.arg64 4) (s.arg 3) .curator = (v, some bs)) :
    exec .stnProg s = .next ((progPut s v n b ((u.st n).lay.start 4 + b * poolSize 4) bs).mailDone 0 []) := by
  subst hn
  refine congrArg Host.Outcome.next ((if_pos hmail).trans ((if_neg hfits.not_bad).trans ((if_neg ?_).trans
    ((if_neg hpool).trans (staged_given halloc hread)))))
  simp [hup, hst, hring]

/-- A program is staged through block `b` of pool 4 and put into its memory. -/
theorem exec_stnProg_put (hmail : s.mailIs 0x40 = true) (hfits : progFits s) {n : StnId} (hn : stnId (s.arg 0) = n)
    (hup : s.stnUp n = true) (hst : (s.st n).st ≠ .running) (hring : s.ringUp = true) (hpool : (s.st n).lay.count 4 ≠ 0) {b : Nat}
    (hgiven : 4 ∉ (s.st n).cyc.given) (hrank : (s.st n).outranked s.ht 4 .curator 0 = false)
    (hlow : (s.st n).lowestFree 4 = some b) (hclean : dramClean s (s.arg64 4) (s.arg 3)) :
    ∃ t at_, exec .stnProg s = .next (t.mailDone 0 []) ∧ t = { s with regs := t.regs, stn := t.stn, stk := t.stk } ∧ stnsBut n s t ∧
      t.st n = ((s.st n).staged b at_ (Cells.read zeroByte s.dram (s.arg64 4) (s.arg 3))).loadProg (s.arg 1) (s.arg 2)
        (Cells.read zeroByte s.dram (s.arg64 4) (s.arg 3)) := by
  obtain ⟨hframe, hregs⟩ := (s.modSt n (fun x => x.giveBlk 4 b .curator 0)).clkLow_frame n 4
  have halloc := State.alloc_prog hpool hgiven hrank hlow
  generalize (s.modSt n (fun x => x.giveBlk 4 b .curator 0)).clkLow n 4 = u at hframe hregs halloc
  have hust (k : StnId) : u.st k = (s.modSt n (fun x => x.giveBlk 4 b .curator 0)).st k := by rw [hframe]; rfl
  have hdram : u.dram = s.dram := by rw [hframe]; rfl
  have hbad : u.dramBad = s.dramBad := by rw [hframe]; rfl
  have hmap : u.rg (Reg.memMap 0) = s.rg (Reg.memMap 0) := hregs _ (memMap_not_clkLow n 4)
  have hread := State.dramRead_bytes (u := .curator) (dramClean.congr hclean hmap hbad)
  rw [hdram] at hread
  have hexec := exec_stnProg_alloc hmail hfits hn hup hst hring hpool halloc hread
  refine ⟨_, (u.st n).lay.start 4 + b * poolSize 4, hexec, ?_, fun k hk => ?_, ?_⟩
  · rw [hframe]
    rfl
  · rw [st_progPut_ne _ _ _ hk]
    exact (hust k).trans (State.st_modSt_ne _ _ hk)
  · rw [st_progPut_self]
    have hself : u.st n = (s.st n).giveBlk 4 b .curator 0 := by rw [hust, State.st_modSt_self]
    exact congrArg (fun x : Stn => ((x.vitPut ((u.st n).lay.start 4 + b * poolSize 4)
      (Cells.read zeroByte s.dram (s.arg64 4) (s.arg 3))).freeBlk 4 b).loadProg (s.arg 1) (s.arg 2)
      (Cells.read zeroByte s.dram (s.arg64 4) (s.arg 3))) hself

/-- A memory with `bs` put at `o`, byte by byte. -/
def putBytes (o len : Nat) (bs : List Byte) (mem before : Cells Byte) : Prop := ∀ a, Cells.get zeroByte mem a =
  if o ≤ a ∧ a < o + len then nth bs (a - o) 0 else Cells.get zeroByte before a

theorem putBytes_of_write {o len : Nat} {bs : List Byte} {mem before : Cells Byte} (hmem : mem = Cells.write zeroByte before o bs)
    (h : bs.length = len) : putBytes o len bs mem before := by
  subst hmem h
  exact fun a => Cells.get_write_nth _ _ _ _ _ 0

/-- What a STN_PROG leaves that puts its bytes into a program memory of station `n`. -/
theorem stnProg_puts (hmail : s.cur.mail = some m) (hready : s.curReady = true) (hdone : m.done = none) (hop : m.op = 0x40)
    (hfits : progFits s) {n : StnId} (hn : stnId (s.arg 0) = n) (hup : s.stnUp n = true) (hst : (s.st n).st ≠ .running)
    (hring : s.ringUp = true) (hpool : (s.st n).lay.count 4 ≠ 0) {b : Nat} (hgiven : 4 ∉ (s.st n).cyc.given)
    (hrank : (s.st n).outranked s.ht 4 .curator 0 = false) (hlow : (s.st n).lowestFree 4 = some b)
    (hclean : dramClean s (s.arg64 4) (s.arg 3)) {bytes : List Byte} (hbytes : Cells.read zeroByte s.dram (s.arg64 4) (s.arg 3) = bytes) :
    ∃ t, exec .stnProg s = .next t ∧ mailEnds m 0 [] t ∧
      (s.arg 1 = 0 → putBytes (s.arg 2) (s.arg 3) bytes (t.st n).asMem (s.st n).asMem ∧ (t.st n).xsMem = (s.st n).xsMem) ∧
      (s.arg 1 = 1 → putBytes (s.arg 2) (s.arg 3) bytes (t.st n).xsMem (s.st n).xsMem ∧ (t.st n).asMem = (s.st n).asMem) ∧
      stnsBut n s t ∧ t.dram = s.dram ∧ t.flash = s.flash ∧ t.prt = s.prt ∧ (t.st n).as = (s.st n).as ∧
      (t.st n).xs = (s.st n).xs ∧ (t.st n).q = (s.st n).q ∧ (t.st n).usedOf 4 = (s.st n).usedOf 4 := by
  obtain ⟨t, at_, hexec, hframe, hothers, hself⟩ := exec_stnProg_put (State.mailIs_of hmail hready hdone hop) hfits hn hup hst hring
    hpool hgiven hrank hlow hclean
  rw [hbytes] at hself
  obtain ⟨has, hxs, hAs, hXs, hq, hused⟩ := ((s.st n).staged b at_ bytes).loadProg_spec (s.arg 1) (s.arg 2) bytes
  rw [← hself] at has hxs hAs hXs hq hused
  have hcur : t.cur.mail = some m := by rw [hframe]; exact hmail
  have hlen : bytes.length = s.arg 3 := by rw [← hbytes, Cells.read_length]
  refine ⟨_, hexec, mailEnds_mailDone hcur 0 [], fun h0 => ?_, fun h1 => ?_, hothers, ?_, ?_, ?_, hAs, hXs, hq, ?_⟩
  · obtain ⟨hmem, hother⟩ := has h0
    exact ⟨putBytes_of_write hmem hlen, hother⟩
  · obtain ⟨hmem, hother⟩ := hxs h1
    exact ⟨putBytes_of_write hmem hlen, hother⟩
  · rw [hframe]; rfl
  · rw [hframe]; rfl
  · rw [hframe]; rfl
  · exact (congrArg (nth · 4 []) hused).trans ((s.st n).usedOf_staged b at_ bytes)

end

/-- Settles O39: a command that fits its arguments, and whose bytes go to good words within the hold limit, writes each
piece of its bytes and ends with its status; the completion answers with what stands in the command; STN_PROG takes a
staging block, puts the bytes and gives the block back. -/
theorem mailboxCommandsAndCompletion : Obligations.MailboxCommandsAndCompletion := by
  unfold Obligations.MailboxCommandsAndCompletion
  refine ⟨mailboxCommands, fun s m hmail hready => ⟨fun st rsp hdone => ?_, fun hdone hop => ?_, fun hdone hop => ?_⟩, ?_⟩
  · exact ⟨_, exec_mailboxComplete_done hmail hready hdone, mailAnswered_answerMail s m st rsp⟩
  · exact ⟨_, (exec_mailboxComplete_waits hmail hready hdone).trans (congrArg _ (if_neg hop)), mailAnswered_answerMail s m 1 []⟩
  · exact (exec_mailboxComplete_waits hmail hready hdone).trans (congrArg _ (if_pos hop))
  · intro s m hmail hready hdone hop arg n d hstn hmem ho hn hlen hend hdram
    have hfits : progFits s := ⟨hstn, hmem, ho, hn, hlen, hend, hdram⟩
    refine ⟨fun hup hst hring hpool b hgiven hrank hlow hclean => ?_, fun hst => ?_⟩
    · exact stnProg_puts hmail hready hdone hop hfits rfl hup hst hring hpool hgiven hrank hlow hclean rfl
    · exact ⟨_, exec_stnProg_running (State.mailIs_of hmail hready hdone hop) hfits hst, mailEnds_mailDone hmail 3 [], rfl⟩

end Sys2Proof.Machine
end
